-- ==== Sys2Proof/Word.lean ====
section
/-! DEFINITION. The word types of the model and the sparse tables that State holds. -/

namespace Sys2Proof

/-- One byte (R7: every multi-byte field is little-endian). -/
abbrev Byte := BitVec 8

/-- A 32-bit code: an FP32 value or a 32-bit register. -/
abbrev Word := BitVec 32

/-- A sparse table: keys strictly rising, and no entry equal to the default of the table. -/
abbrev Tbl (α : Type) := List (Nat × α)

end Sys2Proof
end

