-- ==== Sys2Proof/Syntax.lean ====
section
/-! DEFINITION. The commands of the block, one constructor of `Instr` for each row of spec/opcode_table.json, and the
operand types they and the command packets carry. -/

namespace Sys2Proof

/-- R44: number formats. -/
inductive Fmt where
  | fp32 | fp16 | bf16 | e4m3 | e5m2 | mxE4M3 | mxE5M2 | mxFp4 | e8m0
  deriving DecidableEq, Repr

/-- R127: an operand descriptor; `host` is bit [1] of flags (R186). -/
structure Desc where
  va : Nat
  scaleVa : Nat
  rowStride : Nat
  scaleStride : Nat
  fmt : Nat
  fmtRsv : Nat
  flags : Nat
  rsv : Nat
  deriving DecidableEq, Repr

/-- R129: ARR_MATMUL, ARR_STREAM; also ARR_SHALLOW (R133: a is x, b is w, m is t). -/
structure Matmul where
  a : Desc
  b : Desc
  m : Nat
  n : Nat
  k : Nat
  ctl : Nat
  accBase : Nat
  fold : Nat
  drain : Nat
  roundSeed : Nat
  wickId : Nat
  rsv : Nat
  d : Desc
  deriving DecidableEq, Repr

/-- R132: the geometry of ARR_CONV. -/
structure ConvGeom where
  batch : Nat
  inH : Nat
  inW : Nat
  inC : Nat
  winR : Nat
  winS : Nat
  strideH : Nat
  strideW : Nat
  dilH : Nat
  dilW : Nat
  padT : Nat
  padB : Nat
  padL : Nat
  padR : Nat
  rsv : Nat
  n : Nat
  mStart : Nat
  mCount : Nat
  deriving DecidableEq, Repr

/-- R134: one quadrant block of ARR_QUAD. -/
structure QuadBlock where
  a : Desc
  b : Desc
  m : Nat
  n : Nat
  k : Nat
  acc : Nat
  tile : Nat
  rsv : Nat
  deriving DecidableEq, Repr

/-- R204: a vector instruction. -/
structure VInstr where
  op : Nat
  ctl : Nat
  count : Nat
  imm : Nat
  dst : Nat
  s1 : Nat
  s2 : Nat
  s3 : Nat
  deriving DecidableEq, Repr

/-- R226: VEC_RUN. -/
structure VecRun where
  nInstr : Nat
  tqLimit : Nat
  taperSeed : Nat
  taperStream : Nat
  rsvZero : Bool
  descs : List Desc
  instrs : List VInstr
  deriving DecidableEq, Repr

/-- R320: a Wick descriptor. -/
structure WickDesc where
  index : Nat
  remove : Bool
  indexRsv : Nat
  topk : Bool
  hard : Bool
  map : Bool
  ctlRsv : Nat
  depth : Nat
  spindles : Nat
  fmtT : Nat
  fmtS : Nat
  mapSlot : Nat
  relTok : Nat
  k : Nat
  rows : Nat
  vocabT : Nat
  vocabS : Nat
  invTau : Word
  wSoft : Word
  wHard : Word
  group : Nat
  pages : Nat
  va : Nat
  labelVa : Nat
  lossVa : Nat
  rsvZero : Bool
  deriving DecidableEq, Repr

/-- R334, R377: the fields of a request entry that admission sets. -/
structure Admission where
  tenant : Nat
  priority : Nat
  promptLen : Nat
  maxLen : Nat
  eosId : Nat
  deadline : Nat
  pageListVa : Nat
  kvStreams : Nat
  ppp : Nat
  slotBytes : Nat
  seed : Nat
  temperature : Word
  topK : Nat
  topP : Word
  rep : Word
  freq : Word
  presence : Word
  countsVa : Nat
  ringIova : Nat
  ringLog2 : Nat
  restZero : Bool
  deriving DecidableEq, Repr

/-- R419, R438: GRAD_EXCHANGE CONFIG. -/
structure XchConfig where
  ctx : Nat
  comp : Nat
  topkLog2 : Nat
  policy : Nat
  gfmt : Nat
  group : Nat
  shardBlocks : Nat
  window : Nat
  minPresent : Nat
  gradVa : Nat
  residVa : Nat
  inboxVa : Nat
  sumVa : Nat
  firstStep : Nat
  rsvZero : Bool
  deriving DecidableEq, Repr

/-- The TRD_UPDATE payload; TRD_VERIFY repeats it (R483). -/
structure TrdUpdate where
  step : Nat
  sched : Nat
  epsMul : Nat
  ratioLo : Word
  ratioHi : Word
  nDesc : Nat
  nLayers : Nat
  tableVa : Nat
  normVa : Nat
  statsVa : Nat
  zeroThr : Nat
  rsvZero : Bool
  roundSeed : Nat
  deriving DecidableEq, Repr

/-- R498, R523: SNAPSHOT CONFIG. -/
structure SnapConfig where
  store0 : Nat
  store1 : Nat
  sealedRegion : Nat
  buddy0 : Nat
  buddy1 : Nat
  jobId : Nat
  tableVa : Nat
  nRegions : Nat
  group : Nat
  rsvZero : Bool
  deriving DecidableEq, Repr

/-- The payload of a command packet, as its owning chapter lays it out. Fields that the chapter calls zero are kept as
one value or one flag, so that submission can refuse a packet that breaks them. -/
inductive Payload where
  | nop
  | timestamp
  | queueCreate (queue part sqLog2 cqLog2 share vec attr sqVa cqVa firstSeq : Nat) (rsvZero : Bool)
  | queueDestroy (queue mode : Nat) (rsvZero : Bool)
  | queueResume (queue mode newHead newSeq : Nat) (rsvZero : Bool)
  | partCreate (part w share attr spanId nSpan spanIova : Nat) (rsvZero : Bool)
  | partRegrow (part w : Nat) (rsvZero : Bool)
  | partRelease (part : Nat) (rsvZero : Bool)
  | partShares (kind index share : Nat) (rsvZero : Bool)
  | ctxSave (part : Nat) (rsvZero : Bool)
  | ctxRestore (part nReload reloadVa : Nat) (rsvZero : Bool)
  | kill (scope queue part halt seq : Nat) (rsvZero : Bool)
  | reclaim (part snap : Nat) (rsvZero : Bool)
  | arrMatmul (p : Matmul)
  | arrStream (p : Matmul)
  | arrConv (x : Desc) (f : Desc) (g : ConvGeom) (ctl accBase fold drain roundSeed wickId : Nat) (d : Desc) (rsvZero : Bool)
  | arrShallow (p : Matmul)
  | arrQuad (mode mask roundSeed : Nat) (blocks : List QuadBlock) (rsvZero : Bool)
  | arrAcc (op tile count half : Nat) (d : Desc) (rsvZero : Bool)
  | memCopy (src dst : Desc) (rows cols : Nat) (rsvZero : Bool)
  | memFill (dst : Desc) (rows rowBytes pattern : Nat) (rsvZero : Bool)
  | memAlloc (va pages tier flags : Nat) (rsvZero : Bool)
  | memFree (va pages tier flags : Nat) (rsvZero : Bool)
  | memMigrate (va pages tier flags : Nat) (rsvZero : Bool)
  | memSealed (op region part pages va : Nat) (rsvZero : Bool)
  | vecRun (p : VecRun)
  | vecTqFlush (count : Nat) (rsvZero : Bool)
  | wickDesc (d : WickDesc)
  | wickStep (desc op mb : Nat) (rsvZero : Bool)
  | wickMerge (desc op mb : Nat) (rsvZero : Bool)
  | wickTokmap (slot nEntries : Nat) (src : Desc) (rsvZero : Bool)
  | reqAdmit (a : Admission)
  | poolAdd (va pages : Nat) (rsvZero : Bool)
  | poolRemove (va pages : Nat) (rsvZero : Bool)
  | reqRelease (id generation : Nat) (rsvZero : Bool)
  | decodeOpen (period n batchVa stepVa : Nat) (rsvZero : Bool)
  | decodeClose (period : Nat) (logits : Desc) (vocab draftVa : Nat) (rsvZero : Bool)
  | decodeAbort (period : Nat) (rsvZero : Bool)
  | prefill (period n batchVa stepVa : Nat) (rsvZero : Bool)
  | tenantSet (tenant op part maxLive value : Nat) (rsvZero : Bool)
  | draftConfig (ctl id generation : Nat) (rsvZero : Bool)
  | draftDraw (period n vocab itemsVa draftVa : Nat) (logits : Desc) (rsvZero : Bool)
  | xchConfig (c : XchConfig)
  | xchSend (ctx step : Nat) (rsvZero : Bool)
  | xchRemove (ctx : Nat) (rsvZero : Bool)
  | stepWait (ctx replay step maskVa : Nat) (rsvZero : Bool)
  | actOffload (srcVa dstVa pages ranks : Nat) (rsvZero : Bool)
  | actPrefetch (srcVa dstVa pages ranks : Nat) (rsvZero : Bool)
  | trdNorm (step pair group : Nat) (maxNorm : Word) (nDesc tableVa normVa : Nat) (rsvZero : Bool)
  | trdUpdate (p : TrdUpdate)
  | trdVerify (p : TrdUpdate) (part nSamples sampleVa : Nat) (rsvZero : Bool)
  | root (a x : Desc) (workVa n p itMax : Nat) (tol eps : Word) (rsvZero : Bool)
  | snapStore (store source srcPart hostPart slotBytes logA logB : Nat) (rsvZero : Bool)
  | snapConfig (c : SnapConfig)
  | snapTake (generation : Nat) (rsvZero : Bool)
  | restoreState (store buddy position generation jobId epoch cursor : Nat) (rsvZero : Bool)
  | restoreLog (store buddy position jobId : Nat) (rsvZero : Bool)
  | stepVote (attempt dieMask step group window : Nat) (rsvZero : Bool)
  | stepQuery (attempt step group window : Nat) (rsvZero : Bool)
  | logConfig (baseA baseB pagesA pagesB : Nat) (rsvZero : Bool)
  | logMark (step cursor : Nat) (digest : List Byte) (rsvZero : Bool)
  | spareBegin (part position generation : Nat) (rsvZero : Bool)
  | spareEnd (part position : Nat) (rsvZero : Bool)
  | spareAbandon (part position : Nat) (rsvZero : Bool)
  | routeSet (runs : List (Nat × Nat × Nat)) (rsvZero : Bool)
  | groupDeclare (group n listVa : Nat) (rsvZero : Bool)
  | groupRemove (group : Nat) (rsvZero : Bool)
  | linkWrite (group position bytes dstVa : Nat) (src : Desc) (rsvZero : Bool)
  | chainReduce (group op w elements tag outFmt inVa inStride inFmt outVa : Nat) (rsvZero : Bool)
  | linkSignal (group position tok val : Nat) (rsvZero : Bool)
  | attestReport (mask outIova : Nat) (nonce : List Byte) (rsvZero : Bool)
  | attestExtend (reg outIova : Nat) (digest : List Byte) (rsvZero : Bool)
  | devrecRead (op outIova : Nat) (rsvZero : Bool)
  | devrecInstall (length inIova : Nat) (rsvZero : Bool)
  | telemetry (outIova : Nat) (rsvZero : Bool)
  | errqRead (maxRecs source first outIova : Nat) (rsvZero : Bool)
  | powerCap (capMw persist : Nat) (rsvZero : Bool)
  deriving DecidableEq, Repr

/-- A command that has left its ring: its queue and its sequence number (R233). -/
structure CmdRef where
  queue : Nat
  seq : Nat
  deriving DecidableEq, Repr

/-- R33: the requester paths; each has its own selects and high-half latches. -/
inductive Path where
  | host | group | sb0 | sb1 | lamplighter
  deriving DecidableEq, Repr

/-- The 64-bit counters that follow R33 to R35. -/
inductive Counter where
  | arrRows (sp : Nat) | arrFreeze (sp : Nat) | pilotRows (sp : Nat)
  | vecInstr (sp : Nat) | vecBusy (sp : Nat)
  | wickNonfinite
  | rqtExpired | rqtTokens | rqtDraftNodes | rqtDraftAccepted
  | tenantBalance | tenantReserved
  | trdElems (die : Nat) | trdSkips (die : Nat) | trdOvf (die : Nat) | trdWatch (die : Nat)
  | rvlEntries (share : Nat) | rvlDropped (share : Nat)
  | lnkRetry (port : Nat) | lnkDrop (port : Nat) | hostDiscard
  | acct (field : Nat)
  | energy
  deriving DecidableEq, Repr

/-- R624: a unit, as class and index. -/
structure UnitId where
  cls : Nat
  idx : Nat
  deriving DecidableEq, Repr

/-- An error as a unit reports it (R624). -/
structure ErrorInfo where
  unit : UnitId
  island : Nat
  code : Nat
  part : Nat
  queue : Nat
  seq : Nat
  detail : Nat
  deriving DecidableEq, Repr

/-- R612: what an image slot of the flash holds: the image, its security version, and whether the digest of its public key
and its signature verify. -/
structure ImageSlot where
  verified : Bool
  version : Nat
  image : List Byte
  deriving DecidableEq, Repr

/-- What the board, the flash, the MRAM's record and the training give a boot (R594, R612, R614, R643, R152, R480).
`mramA`, `mramB` and `minVersion` are the device records and the least security version that manufacture left in MRAM; they
count at the first rise only. -/
structure BoardFacts where
  hostEn : Bool
  flashOk : Bool
  slotA : ImageSlot
  slotB : ImageSlot
  serial : Nat
  pgIo : Bool
  pgCore : Bool
  pgHbm : Bool
  hbmPages : Nat
  hbmTrained : Nat
  hbmRepaired : Nat
  dimms : List Nat
  dimmPages : List Nat
  linkUp : Nat
  trdFail : List Nat
  ddrSlow : Bool
  mramA : List Byte
  mramB : List Byte
  minVersion : Nat
  deriving DecidableEq, Repr

/-- R606, R607: where a side-band message comes from, or goes to: its port, 0 SB0 and 1 SB1, and the endpoint ID. -/
structure SbEnd where
  port : Nat
  eid : Nat
  deriving DecidableEq, Repr

/-- Sensor readings of one sample (R635, R651), in units of 0.125 °C. -/
structure Sensors where
  cd : List Int
  iodA : List Int
  iodB : List Int
  hbm : List Int
  mgd : Int
  deriving DecidableEq, Repr

/-- What a group message belongs to: a merge of a descriptor's micro-batch (R325), a chain with its tag (R590), a norm
(R456), a step's vote (R511). -/
inductive GroupKey where
  | wick (idx mb op : Nat)
  | chain (tag : Nat)
  | norm (step : Nat)
  | vote (step attempt : Nat)
  deriving DecidableEq, Repr

/-- The body of a message between devices. -/
inductive MsgBody where
  | linkData (group dstPart dstVa xfer : Nat) (data : List Byte)
  | commitMsg (group dstPart xfer : Nat)
  | refused (msg status : Nat)
  | signal (group dstPart tok val : Nat)
  | groupVal (group digest : Nat) (key : GroupKey) (pos : Nat) (up : Bool) (data : List Byte)
  | groupLost (group : Nat) (key : GroupKey)
  | groupWithdraw (group : Nat) (key : GroupKey) (pos : Nat)
  | groupNotice (msg : Nat)
  | contrib (group ctx step pos : Nat) (data : List Byte)
  | contribCommit (group ctx step pos : Nat)
  | contribHold (msg : Nat)
  | contribGo (msg : Nat)
  | decision (group step attempt decision : Nat)
  | query (group step : Nat)
  | queryAnswer (group step attempt decision : Nat)
  | snapWrite (store slot offset : Nat) (data : List Byte)
  | snapRead (store slot : Nat)
  | snapData (read : Nat) (data : List Byte)
  | logRead (store : Nat)
  | logData (read : Nat) (a b : List Byte)
  | storeRead (store : Nat)
  | storeData (read slotBytes : Nat)
  | logEntry (store share lsn : Nat) (data : List Byte)
  | logAck (part share lsn : Nat)
  | spanReset (spanId : Nat)
  | ack (msg : Nat)
  | unreachable (msg : Nat)
  | hostWrite (iova : Nat) (data : List Byte)
  | hostNotify (vec : Nat)
  | portAccess (slot offset len : Nat) (write : Option (List Byte))
  deriving DecidableEq, Repr

/-- A message on the links (R579): an id of its source, its source, its destination, its virtual channel. -/
structure Message where
  id : Nat
  src : Nat
  dst : Nat
  vc : Nat
  body : MsgBody
  deriving DecidableEq, Repr

/-- A received flit: its number, its buffer, whether its CRC holds, whether it carries no message (an idle flit), whether
its message travels on to another device, the number up to which it acknowledges, and the credits that its header
returns for one buffer (R571, R572). -/
structure FlitIn where
  num : Nat
  vc : Nat
  cls : Nat
  crcOk : Bool
  idle : Bool
  transit : Bool
  ackTo : Nat
  creditVc : Nat
  creditCls : Nat
  credits : Nat
  deriving DecidableEq, Repr

/-- Why a port retrains (R573). -/
inductive RetrainCause where
  | lockLoss | thirdReplay | fec
  deriving DecidableEq, Repr

/-- Why the host path goes down (R601). -/
inductive HostDownCause where
  | linkLeft | busMasterOff | routeLost
  deriving DecidableEq, Repr

/-- A zeroed piece of memory that returns to its pool (R181, R189, R659). -/
inductive ZeroTarget where
  | skeinPage (page : Nat)
  | hbmPage (page : Nat)
  | ddrPage (page : Nat)
  | kvSlot (part frame slot : Nat)
  deriving DecidableEq, Repr

/-- R123: what a window holds: its slots that carry a command's row, and whether its empty ones are those of a pass bubble
(R104). -/
structure PilotSlots where
  slots : Nat
  bubble : Bool
  deriving DecidableEq, Repr

/-- R523: the packet that asks its buddies (`answer` none), or the message by which a buddy answers it. -/
structure BuddyVisit where
  cmd : CmdRef
  answer : Option Message
  deriving DecidableEq, Repr

/-- R597: a host access: its length in bytes, and what it writes (none: a read). -/
structure HostAccess where
  len : Nat
  write : Option (List Byte)
  deriving DecidableEq, Repr

/-- R33, R34: a read of the low half of a 64-bit pair: its path, and whether it is one 8-byte read. -/
structure LoRead where
  path : Path
  wide : Bool
  deriving DecidableEq, Repr

/-- R608: a vendor-defined message's sender and the enterprise number it goes under. -/
structure VendorEnd where
  src : SbEnd
  vendor : Nat
  deriving DecidableEq, Repr

/-- R649: the level that an input takes, and how long it has held it. -/
structure PinHold where
  low : Bool
  heldNs : Nat
  deriving DecidableEq, Repr

/-- The commands of the block. A packet row names the dispatched packet that it runs; the packet's payload holds its
parameters; an answer beside it is the message by which a buddy answers what the packet asked of it (none where the packet
issues). A doorbell is its 8-byte message as two words (R248). Every other row carries the operands of its event. -/
inductive Instr where
  | NOP (c : CmdRef)
  | TIMESTAMP (c : CmdRef)
  | QUEUE_CREATE (c : CmdRef)
  | QUEUE_DESTROY (c : CmdRef)
  | QUEUE_RESUME (c : CmdRef)
  | PART_CREATE (c : CmdRef)
  | PART_CREATE_REGROW (c : CmdRef)
  | PART_RELEASE (c : CmdRef)
  | PART_SHARES (c : CmdRef)
  | CTX_SAVE (c : CmdRef)
  | CTX_RESTORE (c : CmdRef)
  | KILL (c : CmdRef)
  | RECLAIM (c : CmdRef)
  | ARR_MATMUL (c : CmdRef)
  | ARR_STREAM (c : CmdRef)
  | ARR_CONV (c : CmdRef)
  | ARR_SHALLOW (c : CmdRef)
  | ARR_QUAD (c : CmdRef)
  | ARR_ACC_ZERO (c : CmdRef)
  | ARR_ACC_LOAD (c : CmdRef)
  | ARR_ACC_STORE (c : CmdRef)
  | ARR_ACC_POST (c : CmdRef)
  | PILOT_WINDOW (sp : Nat) (w : PilotSlots)
  | PILOT_RAMP (sp : Nat)
  | MEM_COPY (c : CmdRef)
  | MEM_FILL (c : CmdRef)
  | MEM_ALLOC (c : CmdRef)
  | MEM_FREE (c : CmdRef)
  | MEM_MIGRATE (c : CmdRef)
  | SEAL (c : CmdRef)
  | MAP (c : CmdRef)
  | UNMAP (c : CmdRef)
  | UNSEAL (c : CmdRef)
  | UNSEAL_ZERO_DONE (region : Nat)
  | BACKGROUND_ZERO_DONE (t : ZeroTarget)
  | RELEASE_ZERO_DONE (part : Nat)
  | KV_PAGE_ZERO_DONE (part pa : Nat)
  | VEC_RUN (c : CmdRef)
  | VEC_TQ_FLUSH (c : CmdRef)
  | TQ_POP (c : CmdRef)
  | TQ_POP_TIMEOUT (c : CmdRef)
  | WICK_DESC (c : CmdRef)
  | WICK_DESC_REMOVE (c : CmdRef)
  | STATS (c : CmdRef)
  | STATS_T (c : CmdRef)
  | STATS_S (c : CmdRef)
  | GRAD (c : CmdRef)
  | RELEASE (c : CmdRef)
  | WICK_MERGE (c : CmdRef)
  | WICK_TOKMAP (c : CmdRef)
  | REQ_ADMIT (c : CmdRef)
  | POOL_ADD (c : CmdRef)
  | POOL_REMOVE (c : CmdRef)
  | REQ_RELEASE (c : CmdRef)
  | OPEN (c : CmdRef)
  | CLOSE (c : CmdRef)
  | ABORT (c : CmdRef)
  | PREFILL (c : CmdRef)
  | SET_BALANCE (c : CmdRef)
  | ADD_BALANCE (c : CmdRef)
  | BIND (c : CmdRef)
  | CONFIG (c : CmdRef)
  | DRAW (c : CmdRef)
  | STREAM_DELIVER (req : Nat)
  | CONS_READ (req : Nat)
  | GRAD_EXCHANGE_CONFIG (c : CmdRef)
  | SEND (c : CmdRef)
  | REMOVE (c : CmdRef)
  | CONTRIB_ARRIVE (m : Message)
  | STEP_WAIT (c : CmdRef)
  | DECISION_TICK (c : CmdRef)
  | ACT_OFFLOAD (c : CmdRef)
  | ACT_PREFETCH (c : CmdRef)
  | TRD_NORM (c : CmdRef)
  | NORM_RESULT (group step : Nat) (sum : Word) (flags : Nat)
  | TRD_UPDATE (c : CmdRef)
  | TRD_VERIFY (c : CmdRef)
  | ROOT (c : CmdRef)
  | STORE (c : CmdRef)
  | SNAPSHOT_CONFIG (x : BuddyVisit)
  | TAKE (c : CmdRef)
  | RESTORE_STATE (c : CmdRef) (a : Option Message)
  | RESTORE_LOG (c : CmdRef) (a : Option Message)
  | VOTE (c : CmdRef)
  | COMMIT_DECIDE (c : CmdRef)
  | COMMIT_WINDOW_EXPIRE (c : CmdRef)
  | DECISION_ARRIVE (group step attempt decision : Nat)
  | QUERY (c : CmdRef)
  | LOG_MARK_CONFIG (c : CmdRef)
  | MARK (c : CmdRef)
  | LOG_MIRROR_RECEIVE (m : Message)
  | LOG_ENTRY_SECURED (part share lsn : Nat)
  | BEGIN (c : CmdRef)
  | END (c : CmdRef)
  | ABANDON (c : CmdRef)
  | ROUTE_SET (c : CmdRef)
  | ROUTE_HOLD_RELEASE (dst : Nat)
  | GROUP_DECLARE (c : CmdRef)
  | GROUP_REMOVE (c : CmdRef)
  | LINK_WRITE (c : CmdRef)
  | CHAIN_REDUCE (c : CmdRef)
  | LINK_SIGNAL (c : CmdRef)
  | GROUP_MESSAGE_ARRIVE (m : Message)
  | COMMIT_MESSAGE_ARRIVE (m : Message)
  | SPAN_RESET (spanId : Nat)
  | FLIT_RECEIVE (port : Nat) (f : FlitIn)
  | REPLAY_REQUEST (port fromFlit : Nat)
  | MESSAGE_FORWARD (port cls : Nat) (m : Message)
  | END_TO_END_ACK (msg : Nat)
  | UNREACHABLE (msg : Nat)
  | MESSAGE_LOST_TIMEOUT (msg : Nat)
  | RETRAIN (port : Nat) (cause : RetrainCause) (badLane : Option Nat)
  | RETRAIN_DONE (port : Nat)
  | RETRAIN_TIMEOUT (port : Nat)
  | GROUP_WINDOW_ACCESS (slot offset : Nat) (x : HostAccess)
  | QUEUE_WINDOW_ACCESS (queue offset len : Nat) (write : Option (List Byte))
  | HOST_PATH_UP (speed width : Nat)
  | MSIX_COALESCED_SEND (vector : Nat)
  | HOST_PERST_N (high : Bool) (heldNs : Nat)
  | SUBMISSION_DOORBELL (head value : Word)
  | COMPLETION_DOORBELL (head value : Word)
  | SUBMISSION (queue : Nat)
  | DISPATCH (queue : Nat)
  | WAIT_TIMEOUT (queue : Nat)
  | RERUN_ISSUE (c : CmdRef)
  | COMMAND_COMMIT (c : CmdRef)
  | CHAIN_COMMIT (sp chain : Nat)
  | RECORD_WRITE (queue : Nat)
  | DEVICE_TICK
  | REFCLK_LOST
  | REFCLK_RETURN
  | CD_REFCLK_LOST (clock : Nat)
  | TICK_LO_READ (r : LoRead)
  | TOKEN_LO_READ (path : Path)
  | COUNTER_LO_READ (r : LoRead) (counter : Counter)
  | REGISTER_WRITE (path : Path) (offset : Nat) (value : Word)
  | SKN_QUOTA_WRITE (path : Path) (part kind : Nat) (value : Word)
  | CE_CLR (path : Path)
  | PILOT_CFG_WRITE (path : Path) (sp : Nat) (value : Word)
  | DEV_NUM_WRITE (path : Path) (value : Word)
  | PORT_ENABLE_WRITE (path : Path) (port : Nat) (value : Word)
  | RESTART (path : Path)
  | RECOVERY_DATA_WRITE (path : Path) (value : Word)
  | SB_COMMAND_PACKET (m : VendorEnd) (packet : List Byte)
  | SB_REGISTER_READ (m : VendorEnd) (tag addr words : Nat)
  | SB_REGISTER_WRITE (m : VendorEnd) (tag addr : Nat) (value : Word)
  | SB_CONTINUATION (m : VendorEnd) (offset : Nat) (data : List Byte)
  | CONTINUATION_TIMEOUT
  | GET_VENDOR_DEFINED_MESSAGE_SUPPORT (src : SbEnd)
  | ALERT_SEND (port : Nat)
  | ATTEST_REPORT (c : CmdRef)
  | EXTEND (c : CmdRef)
  | DEVREC_READ (c : CmdRef)
  | DEVREC_INSTALL (c : CmdRef)
  | TELEMETRY (c : CmdRef)
  | TELEMETRY_SAMPLE (s : Sensors) (powerMw : Nat)
  | ERRQ_READ (c : CmdRef)
  | POWER_CAP (c : CmdRef)
  | ERROR_TAKEN (e : ErrorInfo)
  | UNIT_RESTART_DONE (u : UnitId)
  | RECOVERY_TIMEOUT (u : UnitId)
  | WATCHDOG (c : CmdRef)
  | LOCKSTEP_FAULT
  | STANDBY_POWER_UP (b : BoardFacts)
  | POWER_GOOD_TIMEOUT
  | SB_RST_N (lowNs : Nat)
  | INPUT_STUCK (input : Nat)
  | INPUT_CHATTER (input : Nat)
  | POWER_EVAL (avgMw : Nat)
  | PWR_BRAKE_N (p : PinHold)
  | THERMAL_COMPARE (s : Sensors)
  | THERMAL_TRIP (source index : Nat) (readings : Sensors)
  | POWER_GOOD_LOST (rail : Nat)
  | FULL_TRAINING_DONE (port : Nat) (badLanes : List Nat)
  | HOST_PATH_DOWN (cause : HostDownCause)
  | STANDBY_POWER_LOSS
  | SERVING_A_BUDDY (id src : Nat) (body : MsgBody)
  | COMMIT_TABLE_QUERY (src group step : Nat)
  | LINK_WRITE_DATA_ARRIVE (m : Message)
  | MSIX_VECTOR_UNMASK (vector : Nat)
  | DOWN_ACCESS_READ (path : Path) (offset : Nat)
  | UNSECURED_ENTRY_TIMEOUT (c : CmdRef)
  deriving DecidableEq, Repr

end Sys2Proof
end

