-- ==== Sys2Proof/Config.lean ====
section
/-! DEFINITION. What the manual leaves open: the free values. Each is a constant with no body, so that a statement about
one holds for every value of it. A free value that may differ from one use to the next is applied to the counter
`Dev.free` of the state. -/

namespace Sys2Proof.Config

/-- R209, R210: where EXP2 steps up: for an output, the least input that reaches it, both as numbers in the order of their
values. EXP2 is a fixed function of its input and monotonic; within its error bound the steps are open. -/
opaque exp2Cut : Nat → Nat

/-- R209, R210: where LOG2 steps up. -/
opaque log2Cut : Nat → Nat

/-- R209, R210: which of the two neighbours of 1 / x RCP delivers when 1 / x is not representable. -/
opaque rcpUp : Word → Bool

/-- R209, R210: which of the two neighbours of 1 / √x RSQ delivers. -/
opaque rsqUp : Word → Bool

/-- R22, R239: a cycle count of a run: how long a command took is not fixed by the manual. -/
opaque cycles : Nat → Nat

/-- R240: the frozen cycles of an array command, the wait cycles of TQ_POP: not fixed by the manual. -/
opaque waitCycles : Nat → Nat

/-- R138: whether a product, named by its queue and number, holds rows in the array at a tick. -/
opaque inArray : Nat → Nat → Nat → Bool

/-- R138: whether it still injects rows. -/
opaque injecting : Nat → Nat → Nat → Bool

/-- R30: whether the tick copy of an island lags the MGD counter by one tick. -/
opaque tickLag : Nat → Nat → Bool

/-- R620, R621: the bytes of a signature or of a public key that the device makes. -/
opaque signatureByte : Nat → Nat → Byte

/-- R263: whether a command that issued at a place in the order read a sector before a later commit wrote it. -/
opaque readsOld : Nat → Nat → Nat → Bool

/-- R540, R541: the part of a worst-case count that no packet field gives (an operand's tier, a hop count). -/
opaque worstCaseExtra : Nat → Nat

/-- R654, R647, R658: energy, in units of 1 mJ, that the package spent between two samples. -/
opaque energyStep : Nat → Nat

/-- R480: the answer that a unit's retraining, or a self-test outside the board's facts, gives. -/
opaque freeBit : Nat → Bool

/-- A value that the manual says is produced and does not give. -/
opaque freeWord : Nat → Word

/-- R484: what the bytes of ROOT's scratch range hold after it. -/
opaque scratchByte : Nat → Nat → Byte

/-- R488, R530: how far a running command of a queue and a number has come, where a status register shows it: the
descriptor in progress, the granules done. -/
opaque progress : Nat → Nat → Nat

/-- R660: the data bytes of a poisoned completion. -/
opaque poisonByte : Nat → Nat → Byte

/-- R597: the data that a member returns to a read through its group window. -/
opaque memberWord : Nat → Nat → Nat → Word

/-- R602: the hops of a message to a device; the device's own tables give none. -/
opaque hops : Nat → Nat

/-- R614: whether a device record's signature verifies against the vendor's record key. -/
opaque recordSigOk : List Byte → Bool

/-- R612: whether the public key's digest and the signature of an image verify. -/
opaque imageOk : List Byte → Bool

/-- R612: the security version in an image's header. -/
opaque imageVersion : List Byte → Nat

/-- R619: whether an index reads back correctly from one of the two words of MRAM. -/
opaque readBackOk : Nat → Nat → Bool

/-- R607: the endpoint ID with which the device sends a message of its own on a port. -/
opaque alertEid : Nat → Nat

/-- R648, R649: the memory issue limit, in sixteenths, that stands for the tier shares of R154. -/
opaque shareLevel : Nat

/-- R642: the lowest voltage, in mV, that the trim tables give a supply for a frequency in MHz, with the headroom of the
on-die regulators. Supplies 0 to 3 are VDD_CORE_0 to VDD_CORE_3, supply 4 is VDD_SKN. -/
opaque trimMv : Nat → Nat → Nat

/-- R642: the lowest voltage, in mV, that the trim tables give an island's own rail for a frequency in MHz. -/
opaque railMv : Nat → Nat → Nat

/-- R19, R641: which of the four VDD_CORE supplies the network's rail is derived from. -/
opaque networkSupply : Nat

end Sys2Proof.Config
end

