-- ==== Sys2Proof/Machine/Bits.lean ====
section
/-! DEFINITION. Bit fields, little-endian fields of byte lists, and the sparse tables' operations. -/

namespace Sys2Proof.Machine

/-- Bits [hi:lo] of x. -/
def bits (x hi lo : Nat) : Nat := x / 2 ^ lo % 2 ^ (hi + 1 - lo)

/-- Bit i of x. -/
def bit (x i : Nat) : Bool := x / 2 ^ i % 2 == 1

/-- A Bool as bit i of a word. -/
def setBit (b : Bool) (i : Nat) : Nat := if b then 2 ^ i else 0

/-- ⌈a / b⌉. -/
def ceilDiv (a b : Nat) : Nat := (a + b - 1) / b

/-- Saturation at a limit. -/
def sat (limit x : Nat) : Nat := min limit x

/-- The 32-bit saturation limit of the record counters and of many registers. -/
def max32 : Nat := 0xFFFFFFFF

/-- Byte i of a byte list, zero past its end. -/
def byteAt (bs : List Byte) (i : Nat) : Nat := (bs.getD i 0).toNat

/-- The n-byte little-endian field at byte i (R7). -/
def leAt (bs : List Byte) : Nat → Nat → Nat
  | _, 0 => 0
  | i, n + 1 => byteAt bs i + 256 * leAt bs (i + 1) n

/-- The n bytes of x, least significant first (R7). -/
def leBytes : Nat → Nat → List Byte
  | 0, _ => []
  | n + 1, x => BitVec.ofNat 8 x :: leBytes n (x / 256)

/-- Bytes i to i + n − 1. -/
def slice (bs : List Byte) (i n : Nat) : List Byte := (bs.drop i).take n

/-- True when bytes i to i + n − 1 are all zero. -/
def zeroAt (bs : List Byte) (i n : Nat) : Bool := (slice bs i n).all (· == 0)

/-- A list of zeros of bytes. -/
def zeros (n : Nat) : List Byte := List.replicate n 0

/-- The bytes padded with zeros, or cut, to n. -/
def fitBytes (n : Nat) (bs : List Byte) : List Byte := (bs ++ zeros n).take n

/-- The value of a key, or the default of the table. -/
def tget {α : Type} (d : α) : Tbl α → Nat → α
  | [], _ => d
  | (k, v) :: t, i => if i = k then v else tget d t i

/-- Whether a table lists a key. -/
def thas {α : Type} (t : Tbl α) (i : Nat) : Bool := t.any (fun kv => kv.1 == i)

/-- The value of a listed key. -/
def tfind {α : Type} : Tbl α → Nat → Option α
  | [], _ => none
  | (k, v) :: t, i => if i = k then some v else tfind t i

/-- The table without a key. -/
def terase {α : Type} : Tbl α → Nat → Tbl α
  | [], _ => []
  | (k, v) :: t, i => if i = k then t else if i < k then (k, v) :: t else (k, v) :: terase t i

/-- The table with a key set, whatever the value. -/
def tins {α : Type} : Tbl α → Nat → α → Tbl α
  | [], i, v => [(i, v)]
  | (k, w) :: t, i, v =>
    if i < k then (i, v) :: (k, w) :: t else if i = k then (i, v) :: t else (k, w) :: tins t i v

/-- The table with a key set; the default removes the entry, so that equal tables are equal data. -/
def tput {α : Type} [DecidableEq α] (d : α) (t : Tbl α) (i : Nat) (v : α) : Tbl α :=
  if v = d then terase t i else tins t i v

/-- The entry of a key changed by a function. -/
def tmod {α : Type} [DecidableEq α] (d : α) (t : Tbl α) (i : Nat) (f : α → α) : Tbl α :=
  tput d t i (f (tget d t i))

/-- The canonical form: keys strictly rising. -/
def keysRising {α : Type} : Tbl α → Bool
  | [] => true
  | [_] => true
  | (k, _) :: (k', v') :: t => decide (k < k') && keysRising ((k', v') :: t)

/-- The canonical form of a table with a default. -/
def tblWf {α : Type} [DecidableEq α] (d : α) (t : Tbl α) : Bool :=
  keysRising t && t.all (fun kv => decide (kv.2 ≠ d))

/-- The lowest number at or above lo, below lo + n, that the test accepts. -/
def lowest (p : Nat → Bool) : Nat → Nat → Option Nat
  | _, 0 => none
  | lo, n + 1 => if p lo then some lo else lowest p (lo + 1) n

/-- The first k numbers at or above lo, below lo + n, that the test accepts, in rising order. -/
def lowestMany (p : Nat → Bool) : Nat → Nat → Nat → List Nat
  | _, _, 0 => []
  | _, 0, _ => []
  | lo, n + 1, k + 1 => if p lo then lo :: lowestMany p (lo + 1) n k else lowestMany p (lo + 1) n (k + 1)

/-- An element put into an ordered list, after those it does not come before. -/
def insertBy {α : Type} (before : α → α → Bool) (a : α) : List α → List α
  | [] => [a]
  | b :: t => if before a b then a :: b :: t else b :: insertBy before a t

/-- A list without repeats, the first of each kept. -/
def nodupNat (l : List Nat) : List Nat := l.foldl (fun acc a => if acc.contains a then acc else acc ++ [a]) []

/-- A list in order, equal elements in the order they stood. -/
def sortBy {α : Type} (before : α → α → Bool) (l : List α) : List α := l.foldl (fun acc a => insertBy before a acc) []

/-- Numbers in rising order, each once. -/
def sortNat (l : List Nat) : List Nat := sortBy (fun a b => decide (a < b)) (nodupNat l)

/-- The bits of a list of numbers, as a mask. -/
def maskOf (l : List Nat) : Nat := l.foldl (fun m i => m ||| 2 ^ i) 0

end Sys2Proof.Machine
end

