-- ==== Sys2Proof/Machine/Float.lean ====
section
/-! DEFINITION. Number formats, rounding and the arithmetic of one element (R44 to R59, R63, R82, R199, R208 to R210).
A finite value is held exactly as sign, magnitude and power of two, so every addition is exact before it is rounded. -/

namespace Sys2Proof.Machine

/-- How a format spends its top codes (R44). -/
inductive FpSpecial where
  | ieee    -- infinity and NaN
  | e4m3    -- no infinity; S.1111.111 is the only NaN
  | finite  -- neither
  deriving DecidableEq, Repr

/-- A floating-point format: exponent bits, fraction bits, bias, special codes. -/
structure FpFmt where
  eb : Nat
  mb : Nat
  bias : Nat
  spec : FpSpecial
  deriving DecidableEq, Repr

def fp32 : FpFmt := ⟨8, 23, 127, .ieee⟩
def fp16 : FpFmt := ⟨5, 10, 15, .ieee⟩
def bf16 : FpFmt := ⟨8, 7, 127, .ieee⟩
def e4m3 : FpFmt := ⟨4, 3, 7, .e4m3⟩
def e5m2 : FpFmt := ⟨5, 2, 15, .ieee⟩
def e2m1 : FpFmt := ⟨2, 1, 1, .finite⟩

/-- An exact value: a NaN, an infinity, or (−1)^neg × mag × 2^exp. -/
inductive FVal where
  | nan
  | inf (neg : Bool)
  | fin (neg : Bool) (mag : Nat) (exp : Int)
  deriving DecidableEq, Repr

/-- mag × 2^d, cut to an integer. -/
def shiftBy (mag : Nat) (d : Int) : Nat :=
  if 0 ≤ d then mag * 2 ^ d.toNat else mag / 2 ^ (-d).toNat

/-- The value of a code (R44, R51: subnormals at their exact value). -/
def decodeFp (f : FpFmt) (c : Nat) : FVal :=
  let neg := c / 2 ^ (f.eb + f.mb) % 2 == 1
  let ex := c / 2 ^ f.mb % 2 ^ f.eb
  let fr := c % 2 ^ f.mb
  if f.spec = .ieee ∧ ex = 2 ^ f.eb - 1 then (if fr = 0 then .inf neg else .nan)
  else if f.spec = .e4m3 ∧ ex = 2 ^ f.eb - 1 ∧ fr = 2 ^ f.mb - 1 then .nan
  else if ex = 0 then .fin neg fr (1 - (f.bias : Int) - f.mb)
  else .fin neg (2 ^ f.mb + fr) ((ex : Int) - f.bias - f.mb)

/-- R54: the canonical NaN code. E2M1 has none; its code is never asked for. -/
def nanCode (f : FpFmt) : Nat :=
  match f.spec with
  | .ieee => (2 ^ f.eb - 1) * 2 ^ f.mb + 2 ^ (f.mb - 1)
  | .e4m3 => 2 ^ (f.eb + f.mb) - 1
  | .finite => 0

def signBit (f : FpFmt) (neg : Bool) : Nat := if neg then 2 ^ (f.eb + f.mb) else 0

/-- The largest finite value, as magnitude and power of two. -/
def maxFinite (f : FpFmt) : Nat × Int :=
  match f.spec with
  | .ieee => (2 ^ (f.mb + 1) - 1, (2 ^ f.eb - 2 : Int) - f.bias - f.mb)
  | .e4m3 => (2 ^ (f.mb + 1) - 2, (2 ^ f.eb - 1 : Int) - f.bias - f.mb)
  | .finite => (2 ^ (f.mb + 1) - 1, (2 ^ f.eb - 1 : Int) - f.bias - f.mb)

/-- a × 2^ea < b × 2^eb. -/
def magLt (a : Nat) (ea : Int) (b : Nat) (eb : Int) : Bool :=
  let e := min ea eb
  decide (a * 2 ^ (ea - e).toNat < b * 2 ^ (eb - e).toNat)

/-- The code of a value that the format holds exactly. -/
def encodeFp (f : FpFmt) (v : FVal) : Nat :=
  match v with
  | .nan => nanCode f
  | .inf neg =>
    match f.spec with
    | .ieee => signBit f neg + (2 ^ f.eb - 1) * 2 ^ f.mb
    | _ => nanCode f
  | .fin neg mag exp =>
    if mag = 0 then signBit f neg
    else
      let top : Int := (Nat.log2 mag : Int) + exp
      let emin : Int := 1 - f.bias
      if top < emin then signBit f neg + shiftBy mag (exp - (emin - f.mb))
      else signBit f neg + (top + f.bias).toNat * 2 ^ f.mb + (shiftBy mag (exp - (top - f.mb)) - 2 ^ f.mb)

/-- The power of two of the last place of a magnitude on the grid of a format. -/
def gridExp (f : FpFmt) (mag : Nat) (exp : Int) : Int :=
  max ((Nat.log2 mag : Int) + exp - f.mb) (1 - (f.bias : Int) - f.mb)

/-- What a magnitude past the largest finite value becomes (R57, R75). -/
def overflowed (f : FpFmt) (neg : Bool) : FVal :=
  match f.spec with
  | .ieee => .inf neg
  | .e4m3 => .nan
  | .finite => .fin neg (maxFinite f).1 (maxFinite f).2

/-- Rounding to the grid to nearest, ties to even, the grid going on past the largest finite value (R56). -/
def nearestGrid (f : FpFmt) (mag : Nat) (exp : Int) : Nat × Int :=
  if mag = 0 then (0, 0)
  else
    let q := gridExp f mag exp
    if q ≤ exp then (mag, exp)
    else
      let d := (q - exp).toNat
      let t := mag / 2 ^ d
      let r := mag % 2 ^ d
      let up := decide (2 ^ d < 2 * r) || (decide (2 * r = 2 ^ d) && t % 2 == 1)
      (if up then t + 1 else t, q)

/-- Rounding of a value to a format, to nearest with ties to even (R56, R57, R52). -/
def roundNE (f : FpFmt) (v : FVal) : FVal :=
  match v with
  | .nan => .nan
  | .inf neg => if f.spec = .ieee then .inf neg else .nan
  | .fin neg mag exp =>
    let r := nearestGrid f mag exp
    if magLt (maxFinite f).1 (maxFinite f).2 r.1 r.2 then overflowed f neg else .fin neg r.1 r.2

/-- Rounding to the element format of an MX block: past the largest finite value it clamps (R58 step 4). -/
def roundClamp (f : FpFmt) (neg : Bool) (mag : Nat) (exp : Int) : FVal :=
  let r := nearestGrid f mag exp
  if magLt (maxFinite f).1 (maxFinite f).2 r.1 r.2 then .fin neg (maxFinite f).1 (maxFinite f).2
  else .fin neg r.1 r.2

/-- R59: stochastic rounding with the low 12 bits r of one draw. -/
def roundStochastic (f : FpFmt) (r : Nat) (v : FVal) : FVal :=
  match v with
  | .nan => .nan
  | .inf neg => .inf neg
  | .fin neg mag exp =>
    if mag = 0 then .fin neg 0 0
    else
      let q := min (gridExp f mag exp) (maxFinite f).2
      if q ≤ exp then
        (if magLt (maxFinite f).1 (maxFinite f).2 mag exp then .inf neg else .fin neg mag exp)
      else
        let d := (q - exp).toNat
        let a := mag / 2 ^ d
        let frac := mag % 2 ^ d * 4096 / 2 ^ d
        let t := if 4096 ≤ frac + r % 4096 then a + 1 else a
        if magLt (maxFinite f).1 (maxFinite f).2 t q then .inf neg else .fin neg t q

/-- The code of a value rounded to a format. -/
def codeNE (f : FpFmt) (v : FVal) : Nat := encodeFp f (roundNE f v)

def FVal.neg : FVal → FVal
  | .nan => .nan
  | .inf s => .inf (!s)
  | .fin s m e => .fin (!s) m e

def FVal.abs : FVal → FVal
  | .nan => .nan
  | .inf _ => .inf false
  | .fin _ m e => .fin false m e

def FVal.isNeg : FVal → Bool
  | .nan => false
  | .inf s => s
  | .fin s _ _ => s

def FVal.isNan : FVal → Bool
  | .nan => true
  | _ => false

def FVal.isInf : FVal → Bool
  | .inf _ => true
  | _ => false

def FVal.isFinite : FVal → Bool
  | .fin _ _ _ => true
  | _ => false

def FVal.isZero : FVal → Bool
  | .fin _ m _ => m == 0
  | _ => false

def fpZero : FVal := .fin false 0 0
def fpOne : FVal := .fin false 1 0

/-- The exact product; infinity times zero is NaN; a zero product keeps the sign of IEEE 754 (R53, R55). -/
def mulExact (a b : FVal) : FVal :=
  match a, b with
  | .nan, _ => .nan
  | _, .nan => .nan
  | .inf s, .inf t => .inf (s != t)
  | .inf s, .fin t m _ => if m = 0 then .nan else .inf (s != t)
  | .fin s m _, .inf t => if m = 0 then .nan else .inf (s != t)
  | .fin s m e, .fin t n f => .fin (s != t) (m * n) (e + f)

/-- The signed integer of a finite value in units of 2^e, e at or below its power. -/
def signedAt (v : FVal) (e : Int) : Int :=
  match v with
  | .fin s m x => if s then -((m * 2 ^ (x - e).toNat : Nat) : Int) else (m * 2 ^ (x - e).toNat : Nat)
  | _ => 0

/-- The exact sum of two terms. An exact zero is +0 unless both terms are −0 (R53); opposite infinities give NaN. -/
def addExact (a b : FVal) : FVal :=
  match a, b with
  | .nan, _ => .nan
  | _, .nan => .nan
  | .inf s, .inf t => if s = t then .inf s else .nan
  | .inf s, .fin _ _ _ => .inf s
  | .fin _ _ _, .inf t => .inf t
  | .fin s m e, .fin t n f =>
    let g := min e f
    let z := signedAt (.fin s m e) g + signedAt (.fin t n f) g
    if z = 0 then .fin (m == 0 && n == 0 && s && t) 0 0
    else .fin (decide (z < 0)) z.natAbs g

/-- R63: a product whose magnitude is outside the FP32 normal range is rounded to FP32; any other is exact. -/
def productTerm (a b : FVal) : FVal :=
  match mulExact a b with
  | .fin s m e =>
    if m = 0 then .fin s m e
    else if magLt m e 1 (-126) || magLt (maxFinite fp32).1 (maxFinite fp32).2 m e then roundNE fp32 (.fin s m e)
    else .fin s m e
  | v => v

/-- a < b of two values that are not NaN, −0 equal to +0 (R82). -/
def fvLt (a b : FVal) : Bool :=
  match a, b with
  | .inf true, .inf true => false
  | .inf true, _ => true
  | _, .inf true => false
  | .inf false, _ => false
  | _, .inf false => true
  | .fin s m e, .fin t n f =>
    let g := min e f
    decide (signedAt (.fin s m e) g < signedAt (.fin t n f) g)
  | _, _ => false

def fvLe (a b : FVal) : Bool := !a.isNan && !b.isNan && !fvLt b a
def fvEq (a b : FVal) : Bool := !a.isNan && !b.isNan && !fvLt a b && !fvLt b a

/-- R82: whether the candidate (a, i) beats (b, j) in a maximum. -/
def beatsMax (a : FVal) (i : Nat) (b : FVal) (j : Nat) : Bool :=
  match a.isNan, b.isNan with
  | true, false => true
  | false, true => false
  | true, true => decide (i < j)
  | false, false => fvLt b a || (!fvLt a b && decide (i < j))

/-- R82 with "smaller": whether (a, i) beats (b, j) in a minimum. -/
def beatsMin (a : FVal) (i : Nat) (b : FVal) (j : Nat) : Bool :=
  match a.isNan, b.isNan with
  | true, false => true
  | false, true => false
  | true, true => decide (i < j)
  | false, false => fvLt a b || (!fvLt b a && decide (i < j))

/-- The FP32 value of a code. -/
def v32 (w : Word) : FVal := decodeFp fp32 w.toNat

/-- rne32: the FP32 code of an exact value. -/
def rne32 (v : FVal) : Word := BitVec.ofNat 32 (codeNE fp32 v)

def add32 (a b : Word) : Word := rne32 (addExact (v32 a) (v32 b))
def sub32 (a b : Word) : Word := rne32 (addExact (v32 a) (v32 b).neg)
def mul32 (a b : Word) : Word := rne32 (mulExact (v32 a) (v32 b))
def fma32 (a b c : Word) : Word := rne32 (addExact (mulExact (v32 a) (v32 b)) (v32 c))

/-- The FP32 code of an integer, rounded to nearest even. -/
def ofInt32 (z : Int) : Word := rne32 (.fin (decide (z < 0)) z.natAbs 0)

def isNan32 (a : Word) : Bool := (v32 a).isNan
def isInf32 (a : Word) : Bool := (v32 a).isInf
def isFinite32 (a : Word) : Bool := (v32 a).isFinite
def lt32 (a b : Word) : Bool := !isNan32 a && !isNan32 b && fvLt (v32 a) (v32 b)
def le32 (a b : Word) : Bool := fvLe (v32 a) (v32 b)

def one32 : Word := 0x3F800000
def nan32 : Word := 0x7FC00000
def inf32 : Word := 0x7F800000
def negInf32 : Word := 0xFF800000

/-- ⌊√n⌋ of the bits below 2^(2k), from the top bit down. -/
def isqrtBits (n : Nat) : Nat → Nat → Nat
  | 0, r => r
  | k + 1, r =>
    let t := r + 2 ^ k
    if t * t ≤ n then isqrtBits n k t else isqrtBits n k r

/-- ⌊√n⌋. -/
def isqrt (n : Nat) : Nat := isqrtBits n (Nat.log2 n / 2 + 1) 0

/-- 1 / (m × 2^e), cut after 64 significant bits, with a last bit that is 1 when bits were cut. -/
def recipSticky (m : Nat) (e : Int) : Nat × Int :=
  let k := 64 + Nat.log2 m
  let q := 2 ^ k / m
  let st := if 2 ^ k % m = 0 then 0 else 1
  (2 * q + st, -e - (k : Int) - 1)

/-- √(m × 2^e), cut after at least 64 significant bits, with a sticky last bit. -/
def sqrtSticky (m : Nat) (e : Int) : Nat × Int :=
  let odd := e % 2 = 1
  let m0 := if odd then 2 * m else m
  let e0 := if odd then e - 1 else e
  let n := m0 * 2 ^ 128
  let r := isqrt n
  let st := if r * r = n then 0 else 1
  (2 * r + st, e0 / 2 - 65)

/-- The two neighbours of a magnitude on the FP32 grid, from below and from above. -/
def neighbours32 (mag : Nat) (exp : Int) : (Nat × Int) × (Nat × Int) :=
  let q := gridExp fp32 mag exp
  if q ≤ exp then ((mag, exp), (mag, exp))
  else
    let d := (q - exp).toNat
    let t := mag / 2 ^ d
    if mag % 2 ^ d = 0 then ((t, q), (t, q)) else ((t, q), (t + 1, q))

/-- A finite magnitude as FP32, infinity past the largest finite value. -/
def magCode32 (neg : Bool) (p : Nat × Int) : Word :=
  BitVec.ofNat 32 (encodeFp fp32
    (if magLt (maxFinite fp32).1 (maxFinite fp32).2 p.1 p.2 then .inf neg else .fin neg p.1 p.2))

/-- R209: RCP, within 1 ulp, exact where 1 / x is representable. Which neighbour it delivers is open (R210). -/
def rcp32 (x : Word) : Word :=
  match v32 x with
  | .nan => nan32
  | .inf neg => BitVec.ofNat 32 (signBit fp32 neg)
  | .fin neg m e =>
    if m = 0 then (if neg then negInf32 else inf32)
    else
      let r := recipSticky m e
      let nb := neighbours32 r.1 r.2
      magCode32 neg (if nb.1 = nb.2 then nb.1 else if Config.rcpUp x then nb.2 else nb.1)

/-- R209: RSQ, within 1 ulp. -/
def rsq32 (x : Word) : Word :=
  match v32 x with
  | .nan => nan32
  | .inf neg => if neg then nan32 else 0
  | .fin neg m e =>
    if m = 0 then (if neg then negInf32 else inf32)
    else if neg then nan32
    else
      let s := sqrtSticky m e
      let exact := s.1 % 2 = 0
      let r := recipSticky s.1 s.2
      let nb := neighbours32 (if exact then r.1 else 2 * r.1 + 1) (if exact then r.2 else r.2 - 1)
      magCode32 false (if nb.1 = nb.2 then nb.1 else if Config.rsqUp x then nb.2 else nb.1)

/-- ⌊v⌋ of a finite value. -/
def floorOf (neg : Bool) (m : Nat) (e : Int) : Int :=
  if 0 ≤ e then (if neg then -((m * 2 ^ e.toNat : Nat) : Int) else (m * 2 ^ e.toNat : Nat))
  else
    let d := 2 ^ (-e).toNat
    if neg then -(((m + d - 1) / d : Nat) : Int) else ((m / d : Nat) : Int)

/-- ⌈v⌉ of a finite FP32 value, R307. -/
def ceil32 (w : Word) : Int :=
  match v32 w with
  | .fin neg m e => -(floorOf (!neg) m e)
  | _ => 0

/-- The code of 2^n for n from −149 to 127, +0 below and +infinity above. -/
def pow2Code (n : Int) : Nat :=
  if n < -149 then 0 else if 127 < n then 0x7F800000 else codeNE fp32 (.fin false 1 n)

/-! ### EXP2 and LOG2 (R209, R210)

Each lies within its error bound and is monotonic; nothing else of it is fixed. The bounds come from an interval around the
exact value, 64 binary places wide. -/

/-- An FP32 code as a number in the order of the values; both zeros are 2³¹. -/
def ordKey (w : Word) : Nat := if w.toNat < 2 ^ 31 then 2 ^ 31 + w.toNat else 2 ^ 31 - (w.toNat - 2 ^ 31)
def ofOrdKey (k : Nat) : Word := BitVec.ofNat 32 (if 2 ^ 31 ≤ k then k - 2 ^ 31 else 2 ^ 31 + (2 ^ 31 - k))

/-- The value that a monotonic function takes at x, from the inputs `cut y` at which it reaches each y: k bits of it, below
those already found. Whatever `cut` is, a greater x gives no smaller value. -/
def monoPick (cut : Nat → Nat) (x : Nat) : Nat → Nat → Nat
  | 0, y => y
  | k + 1, y => monoPick cut x k (if cut (y + 2 ^ k) ≤ x then y + 2 ^ k else y)

/-- The value of such a function between two bounds. -/
def monoBetween (cut : Nat → Nat) (x lo hi : Nat) : Nat := max lo (min hi (monoPick cut x 32 0))

/-- The code of the greatest FP32 magnitude at or below a magnitude, and of the least one at or above it. -/
def codeBelow (mag : Nat) (exp : Int) : Nat := (magCode32 false (neighbours32 mag exp).1).toNat
def codeAbove (mag : Nat) (exp : Int) : Nat := (magCode32 false (neighbours32 mag exp).2).toNat

/-- The bounds as order keys of a value of either sign: z × 2^exp from above, from below. -/
def keyAbove (z : Int) (exp : Int) : Nat :=
  if z < 0 then 2 ^ 31 - codeBelow z.natAbs exp else 2 ^ 31 + codeAbove z.natAbs exp
def keyBelow (z : Int) (exp : Int) : Nat :=
  if z < 0 then 2 ^ 31 - codeAbove z.natAbs exp else 2 ^ 31 + codeBelow z.natAbs exp

/-- 2^(f / 2^k) × y^(1 / 2^k) in units of 2⁻¹²⁸, by k square roots, from the last bit of f up. With y = 1 it bounds 2^(f / 2^k)
from below; with y = 2, each root taken one up, it bounds 2^((f + 1) / 2^k) from above. -/
def powRoots (up : Nat) : Nat → Nat → Nat → Nat
  | 0, _, y => y
  | k + 1, f, y => powRoots up k (f / 2) (isqrt (y * 2 ^ (f % 2) * 2 ^ 128) + up)

/-- The binary places of the logarithm of y × 2⁻¹⁹², y from 1 to 2, by k squarings; each is cut, or taken one up. -/
def logPlaces (up : Nat) : Nat → Nat → Nat → Nat
  | 0, _, l => l
  | k + 1, y, l =>
    let s := y * y / 2 ^ 192 + up
    if 2 ^ 193 ≤ s then logPlaces up k ((s + up) / 2) (2 * l + 1) else logPlaces up k s (2 * l)

/-- EXP2: monotonic, within 1 ulp, exact at an integer from −149 to 127. -/
def exp2 (x : Word) : Word :=
  match v32 x with
  | .nan => nan32
  | .inf neg => if neg then 0 else inf32
  | .fin neg m e =>
    if !fvLt (.fin neg m e) (.fin false 128 0) then inf32
    else if fvLt (.fin neg m e) (.fin true 150 0) then 0
    else
      let n := floorOf neg m e
      if fvEq (.fin neg m e) (.fin (decide (n < 0)) n.natAbs 0) ∧ -149 ≤ n then BitVec.ofNat 32 (pow2Code n)
      else
        let f := (floorOf neg m (e + 64) - n * 2 ^ 64).toNat
        let ulp := 2 ^ (max n (-126) - 23 - n + 128).toNat
        let lo := max (pow2Code n) (codeAbove (powRoots 0 64 f (2 ^ 128) - ulp) (n - 128))
        let hi := min (pow2Code (n + 1)) (codeBelow (powRoots 1 64 f (2 ^ 129) + ulp) (n - 128))
        BitVec.ofNat 32 (monoBetween Config.exp2Cut (ordKey x) lo hi)

/-- The error that LOG2 may have, in units of 2⁻⁶⁴, for an input between 2^n and 2^(n + 1): 2⁻²³ from 0.5 to 2, else 1 ulp. -/
def log2Slack (n : Int) : Int := if n = 0 ∨ n = -1 then 2 ^ 41 else 2 ^ (Nat.log2 (if 0 < n then n.toNat else (-n - 1).toNat) + 41)

/-- LOG2: monotonic, within its error bound, exact at a power of two. -/
def log2 (x : Word) : Word :=
  match v32 x with
  | .nan => nan32
  | .inf neg => if neg then nan32 else inf32
  | .fin neg m e =>
    if m = 0 then negInf32
    else if neg then nan32
    else
      let n : Int := (Nat.log2 m : Int) + e
      if m = 2 ^ Nat.log2 m then ofInt32 n
      else
        let y := m * 2 ^ (192 - Nat.log2 m)
        let lo := max (ordKey (ofInt32 n)) (keyAbove (n * 2 ^ 64 + logPlaces 0 64 y 0 - log2Slack n) (-64))
        let hi := min (ordKey (ofInt32 (n + 1))) (keyBelow (n * 2 ^ 64 + logPlaces 1 64 y 0 + 1 + log2Slack n) (-64))
        ofOrdKey (monoBetween Config.log2Cut (ordKey x) lo hi)

/-- rne16 of an exact value, as an FP16 code. -/
def rne16 (v : FVal) : Nat := codeNE fp16 v

def v16 (c : Nat) : FVal := decodeFp fp16 c

/-- R458: sqrt16, correctly rounded. -/
def sqrt16 (c : Nat) : Nat :=
  match v16 c with
  | .nan => nanCode fp16
  | .inf neg => if neg then nanCode fp16 else encodeFp fp16 (.inf false)
  | .fin neg m e =>
    if m = 0 then signBit fp16 neg
    else if neg then nanCode fp16
    else let s := sqrtSticky m e; rne16 (.fin false s.1 s.2)

/-- R458: rcp16, correctly rounded. -/
def rcp16 (c : Nat) : Nat :=
  match v16 c with
  | .nan => nanCode fp16
  | .inf neg => signBit fp16 neg
  | .fin neg m e =>
    if m = 0 then encodeFp fp16 (.inf neg)
    else let s := recipSticky m e; rne16 (.fin neg s.1 s.2)

end Sys2Proof.Machine
end

