-- ==== Sys2Proof/Machine/Formats.lean ====
section
/-! DEFINITION. Format codes, conversion between formats, MX blocks, the Taper generator, and the fixed combining
orders (R44 to R60, R81 to R93, R374, R375). -/

namespace Sys2Proof.Machine

/-- R374: high 32 bits of the product of two 32-bit values. -/
def mulhi (a b : Nat) : Nat := a * b / 2 ^ 32

/-- One of the ten rounds of R374. -/
def taperRound (x : Nat × Nat × Nat × Nat) (k : Nat × Nat) : Nat × Nat × Nat × Nat :=
  let h0 := mulhi 0xD2511F53 x.1
  let l0 := 0xD2511F53 * x.1 % 2 ^ 32
  let h1 := mulhi 0xCD9E8D57 x.2.2.1
  let l1 := 0xCD9E8D57 * x.2.2.1 % 2 ^ 32
  (h1 ^^^ x.2.1 ^^^ k.1, l1, h0 ^^^ x.2.2.2 ^^^ k.2, l0)

def taperRounds : Nat → Nat × Nat × Nat × Nat → Nat × Nat → Nat × Nat × Nat × Nat
  | 0, x, _ => x
  | n + 1, x, k =>
    taperRounds n (taperRound x k) ((k.1 + 0x9E3779B9) % 2 ^ 32, (k.2 + 0xBB67AE85) % 2 ^ 32)

/-- R374: the Taper generator. -/
def taper (seed stream step mb elem : Nat) : Nat :=
  (taperRounds 10 (elem % 2 ^ 32, mb % 2 ^ 32, step % 2 ^ 32, stream % 2 ^ 16)
    (seed % 2 ^ 32, seed / 2 ^ 32 % 2 ^ 32)).1

/-- R375: a uniform variate in [0, 1), as an exact FP32 code. -/
def unif (draw : Nat) : Word := rne32 (.fin false (draw / 256) (-24))

/-- The element format of a format code (R44). -/
def elemFmt : Nat → FpFmt
  | 0 => fp32
  | 1 => fp16
  | 2 => bf16
  | 3 => e4m3
  | 4 => e5m2
  | 5 => e4m3
  | 6 => e5m2
  | _ => e2m1

/-- Bits per element of a format code. -/
def elemBits : Nat → Nat
  | 0 => 32
  | 1 => 16
  | 2 => 16
  | 7 => 4
  | _ => 8

/-- Bytes that n elements take (R49 packs two MXFP4 elements in a byte). -/
def rowBytes (fmt n : Nat) : Nat := ceilDiv (elemBits fmt * n) 8

def isMx (fmt : Nat) : Bool := fmt == 5 || fmt == 6 || fmt == 7

/-- R46: a format code that may name an element format. -/
def fmtOk (fmt : Nat) : Bool := decide (fmt < 8)

/-- R61: the 8-bit class. -/
def is8bit (fmt : Nat) : Bool := decide (3 ≤ fmt) && decide (fmt ≤ 7)

/-- The codes of n elements of a row's bytes (R7, R49). -/
def rowCodes (fmt n : Nat) (bs : List Byte) : List Nat :=
  (List.range n).map (fun i =>
    if fmt = 7 then byteAt bs (i / 2) / 16 ^ (i % 2) % 16
    else leAt bs (i * (elemBits fmt / 8)) (elemBits fmt / 8))

/-- MXFP4 codes packed two per byte. -/
def packNibbles : List Nat → List Byte
  | [] => []
  | [a] => [BitVec.ofNat 8 a]
  | a :: b :: t => BitVec.ofNat 8 (a + 16 * b) :: packNibbles t

/-- The bytes of a row of codes. -/
def codeBytes (fmt : Nat) (cs : List Nat) : List Byte :=
  if fmt = 7 then packNibbles cs else cs.flatMap (leBytes (elemBits fmt / 8))

/-- R50: the value of an MX element under its block's scale byte. -/
def mxVal (fmt scale code : Nat) : FVal :=
  if scale = 0xFF then .nan
  else
    match decodeFp (elemFmt fmt) code with
    | .fin s m e => .fin s m (e + (scale : Int) - 127)
    | v => v

/-- The value of element i of a row, the scale bytes of the row given. -/
def elemVal (fmt : Nat) (scales : List Byte) (i code : Nat) : FVal :=
  if isMx fmt then mxVal fmt (byteAt scales (i / 32)) code else decodeFp (elemFmt fmt) code

/-- R57: the code of a value in a format that is not MX. DESIGN CHOICE (log entry 159): R57's table has no row for an MX value
that overflows FP32, FP16 or BF16, nor for E4M3 to E5M2 or back; they round to nearest even, with the destination's overflow. -/
def convCode (fmt : Nat) (v : FVal) : Nat := codeNE (elemFmt fmt) v

/-- R58 step 3: the e of an element format. -/
def mxEmax : Nat → Int
  | 5 => 8
  | 6 => 15
  | _ => 2

/-- ⌊log2⌋ of the largest magnitude of a block; none when every value is zero. -/
def blockTop : List FVal → Option Int
  | [] => none
  | .fin _ m e :: t =>
    if m = 0 then blockTop t
    else
      let k : Int := (Nat.log2 m : Int) + e
      match blockTop t with
      | none => some k
      | some j => some (max j k)
  | _ :: t => blockTop t

/-- R58: the scale byte and the element codes of one block. -/
def quantBlock (fmt : Nat) (vs : List FVal) : Nat × List Nat :=
  let f := elemFmt fmt
  if vs.any (fun v => !v.isFinite) then (0xFF, vs.map (fun _ => 0))
  else
    match blockTop vs with
    | none => (0, vs.map (fun v => signBit f v.isNeg))
    | some top =>
      let x := max (-127) (min 127 (top - mxEmax fmt))
      ((x + 127).toNat,
        vs.map (fun v =>
          match v with
          | .fin s m e => encodeFp f (roundClamp f s m (e - x))
          | _ => 0))

/-- Blocks of 32, the fuel the number of blocks. -/
def quantBlocks (fmt : Nat) : Nat → List FVal → List (Nat × List Nat)
  | 0, _ => []
  | n + 1, vs => quantBlock fmt (vs.take 32) :: quantBlocks fmt n (vs.drop 32)

/-- A row of values in a format: element codes and scale bytes (R57, R58). -/
def convRow (fmt : Nat) (vs : List FVal) : List Nat × List Byte :=
  if isMx fmt then
    let bs := quantBlocks fmt (ceilDiv vs.length 32) vs
    (bs.flatMap (·.2), bs.map (fun b => BitVec.ofNat 8 b.1))
  else (vs.map (convCode fmt), [])

/-- The values that a row of codes stands for. -/
def rowVals (fmt : Nat) (scales : List Byte) (cs : List Nat) : List FVal :=
  (List.range cs.length).zipWith (fun i c => elemVal fmt scales i c) cs

/-- R77: whether a list of values holds an infinity, and whether it holds a NaN. -/
def infNan (vs : List FVal) : Bool × Bool := (vs.any FVal.isInf, vs.any FVal.isNan)

/-! ### Fixed combining orders -/

/-- One level of R87: neighbours combined, an odd last entry moved up. -/
def treeLevel {α : Type} (f : α → α → α) : List α → List α
  | [] => []
  | [a] => [a]
  | a :: b :: t => f a b :: treeLevel f t

def treeLevels {α : Type} (f : α → α → α) : Nat → List α → List α
  | 0, l => l
  | n + 1, l => if l.length ≤ 1 then l else treeLevels f n (treeLevel f l)

/-- R87, R90: the fixed binary tree over a list, with its combining operator. -/
def treeFold {α : Type} (f : α → α → α) (d : α) (l : List α) : α := (treeLevels f l.length l).headD d

/-- R87 with FP32 addition. -/
def treeSum (l : List Word) : Word := treeFold add32 0 l

/-- R89: the chained sum from the first entry on. -/
def chainSum : List Word → Word
  | [] => 0
  | a :: t => t.foldl add32 a

/-! ### Maxima, minima and selections with an index (R81 to R85, R216) -/

/-- The better of two (code, index) candidates under R82. -/
def better (f : FpFmt) (isMax : Bool) (a b : Nat × Nat) : Nat × Nat :=
  let va := decodeFp f a.1
  let vb := decodeFp f b.1
  if (if isMax then beatsMax va a.2 vb b.2 else beatsMin va a.2 vb b.2) then a else b

/-- R84: what a reduction over no elements returns. -/
def emptyBest (f : FpFmt) (isMax : Bool) : Nat × Nat := (encodeFp f (.inf isMax), 0xFFFFFFFF)

/-- R81 to R84: the winner of a list. -/
def bestOf (f : FpFmt) (isMax : Bool) : List (Nat × Nat) → Nat × Nat
  | [] => emptyBest f isMax
  | a :: t => t.foldl (better f isMax) a

/-- A candidate put into a list kept in descending order of R82, the list cut to k. -/
def topInsert (f : FpFmt) (a : Nat × Nat) : List (Nat × Nat) → List (Nat × Nat)
  | [] => [a]
  | b :: t =>
    if beatsMax (decodeFp f a.1) a.2 (decodeFp f b.1) b.2 then a :: b :: t else b :: topInsert f a t

/-- R216: the k largest (code, index) pairs in descending order. -/
def topK (f : FpFmt) (k : Nat) (l : List (Nat × Nat)) : List (Nat × Nat) :=
  l.foldl (fun acc a => (topInsert f a acc).take k) []

/-- A list with its positions, counted from a start. -/
def withIdx {α : Type} (start : Nat) (l : List α) : List (α × Nat) :=
  l.zip (List.range' start l.length)

end Sys2Proof.Machine
end

