-- ==== Sys2Proof/Machine/State.lean ====
section
/-! DEFINITION. The state of the block as plain data, its reasons to stop, and its value at reset. -/

namespace Sys2Proof.Machine

/-- No command of this block ends in a fault: an event whose condition does not hold does not take place. -/
inductive Fault where
  /-- Raised by no meaning of this model; safe. -/
  | none
  deriving DecidableEq, Repr

/-- The reasons to refuse a command. -/
inductive Refusal where
  /-- Raised by an arm of exec whose command has no meaning yet; safe. -/
  | notModelled (mnemonic : String)
  deriving DecidableEq, Repr

/-! ### Clocks and ticks (chapter 01) -/

/-- R19 to R32: the tick counter, its copies on the islands (index 0 to 54), the MGD's reference clock. -/
structure Clock where
  standby : Bool
  tick : Nat
  copies : List Nat
  refPresent : Bool
  refReturning : Bool
  tickFree : Bool
  cdRefLost : List Nat
  deriving DecidableEq, Repr

/-! ### Commands, queues, tokens (chapter 06) -/

/-- R233: the header of a packet. -/
structure Header where
  opcode : Nat
  flags : Nat
  units : Nat
  unit : Nat
  part : Nat
  queue : Nat
  rsvZero : Bool
  seq : Nat
  wait0 : Nat
  wait1 : Nat
  sig : Nat
  waitLimit : Nat
  wait0Val : Nat
  wait1Val : Nat
  sigVal : Nat
  tag : Nat
  deriving DecidableEq, Repr

/-- Where a page lies (R154). -/
inductive Tier where
  | skein | hbm | ddr
  deriving DecidableEq, Repr

/-- What a page-table entry maps (R156 to R159). -/
inductive PageKind where
  | data | kv | wick | sealed (region : Nat)
  deriving DecidableEq, Repr

/-- A valid last-level page-table entry; `pa` is the device-physical address of its page. -/
structure Pte where
  pa : Nat
  kind : PageKind
  deriving DecidableEq, Repr

/-- What holds a physical page; a page that no table lists is free. -/
inductive PageUse where
  | free
  | mapped (part : Nat)
  | kvFrame (part : Nat)
  | sealed (region : Nat)
  | saved (part : Nat)
  | store (store : Nat)
  | zeroing
  | releasing (part : Nat)
  deriving DecidableEq, Repr

/-- R66, R663: one half-tile; an FP32 image stands in the even half of its tile, its codes keyed by 256 × row + column. -/
structure HalfTile where
  fp16 : Bool
  count : Nat
  img : Tbl Nat
  deriving DecidableEq, Repr

/-- R220: an entry of the tile queue. -/
structure TqEntry where
  tile : Nat
  fp16 : Bool
  seq : Nat
  taken : Bool
  deriving DecidableEq, Repr

/-- R195, R196: the context of a vector program that waits in TQ_POP. `store` holds V0 to V15, 2,048 bytes each, then T0
to T3, 256 KiB each; a byte that is not listed is zero. -/
structure VecCtx where
  pc : Nat
  store : List Host.Cell
  taken : Nat
  waited : Nat
  deriving DecidableEq, Repr

/-! ### The Wick (chapter 07) -/

/-- R299 to R304: a frame. `ranks` are the ranks counted in the present phase; the block lists hold the present
256-column blocks of each role. -/
structure Frame where
  phase : Nat
  mb : Nat
  ranks : List Nat
  tBlocks : List Nat
  sBlocks : List Nat
  nonfinite : Bool
  labelRange : Bool
  deriving DecidableEq, Repr

/-- A live Wick descriptor (R295, R301): its payload, P and F (R293, R294), the token's value b at creation, the releases
r, the group's size and the member's position, and its frames. -/
structure WickLive where
  desc : WickDesc
  p : Nat
  f : Nat
  b : Nat
  r : Nat
  members : Nat
  pos : Nat
  frames : List Frame
  deriving DecidableEq, Repr

/-! ### Requests (chapters 08 and 09) -/

/-- R388: a drafted node that is present: its number, its parent (0xFF for the root) and its depth. -/
structure DraftNode where
  node : Nat
  parent : Nat
  depth : Nat
  deriving DecidableEq, Repr

/-- R357: a row of a period; status and kind have the codes of the step table. -/
structure PeriodRow where
  req : Nat
  status : Nat
  kind : Nat
  start : Nat
  count : Nat
  rowBase : Nat
  generation : Nat
  nodes : List DraftNode
  deriving DecidableEq, Repr

/-- R355: an open period. -/
structure Period where
  opcode : Nat
  rows : List PeriodRow
  deriving DecidableEq, Repr

/-- What a closer decided for a RUN row: the tokens it emits, the nodes it accepted, the positions it commits, the new
repetition-table length. -/
structure CloseRow where
  req : Nat
  tokens : List Nat
  accepted : Nat
  nodes : Nat
  commit : Nat
  promptDone : Bool
  last : Bool
  countUsed : Nat
  charge : Nat
  deriving DecidableEq, Repr

/-- R334: a request entry that is not FREE. `state` has the codes of R336; `held` are the held tokens with their LAST
flags (R399), `pages` the KV pages held, keyed page index × kv_streams + stream. -/
structure Request where
  state : Nat
  part : Nat
  inPeriod : Bool
  period : Nat
  promptDone : Bool
  adm : Admission
  draftCtl : Nat
  zeroRun : Nat
  probeCtr : Nat
  committed : Nat
  tentative : Nat
  nextToken : Nat
  held : List (Nat × Bool)
  emitted : Nat
  countUsed : Nat
  streamSeq : Nat
  reserveLeft : Nat
  accepted : Nat
  cons : Nat
  consRead : Nat
  periodSeq : Nat
  overdrawn : Bool
  pages : Tbl Nat
  deriving DecidableEq, Repr

/-- What CTX_SAVE keeps (R546, R548, R553): virtual keys of the Skein pages with their non-zero bytes, the half-tiles and
the tile queue of each rank. -/
structure SavedCtx where
  area : List Nat
  pages : List (Nat × List Host.Cell)
  acc : List (Tbl HalfTile)
  tq : List (List TqEntry × Nat)
  deriving DecidableEq, Repr

/-- R181, R184, R659: a page or slot that waits to be zeroed. `ordered` items stand in their tier's zeroing queue (R659);
the others are those of a partition's release (R184). -/
structure ZeroItem where
  target : ZeroTarget
  region : Option Nat
  ordered : Bool
  deriving DecidableEq, Repr

/-! ### The gradient exchange (chapter 10) -/

/-- R429: a decision of STEP_WAIT. -/
structure XchDecision where
  present : List Nat
  held : List Nat
  deriving DecidableEq, Repr

/-- A bound exchange context (R419 to R435, R445): its stored contributions as (step, position), those marked held, the
tick of its owner's own contribution, and the decision for its current step. `shadows` are contributions that have arrived and whose
SEND has not committed, by step and position; `waiters` the deliveries that wait at their senders, as (device, message, step)
(R428). -/
structure Xch where
  cfg : XchConfig
  part : Nat
  members : Nat
  pos : Nat
  step : Nat
  epoch : Nat
  stored : List (Nat × Nat)
  held : List (Nat × Nat)
  ownTick : Option Nat
  issueTick : Option Nat
  decision : Option XchDecision
  replay : Bool
  lastPresent : Nat
  dropped : Nat
  heldCount : Nat
  shadows : List ((Nat × Nat) × List Byte)
  waiters : List (Nat × Nat × Nat)
  deriving DecidableEq, Repr

/-! ### The Treadle and the snapshot engine (chapters 11 and 12) -/

/-- R488: the registers of one die's Treadle. -/
structure Treadle where
  failed : Bool
  lastStep : Nat
  lastSkipped : Bool
  lastFlags : Nat
  lastOvf : Nat
  event : Bool
  zeroSeen : Bool
  ratioSeen : Bool
  watchLayer : Nat
  tested : Bool
  pass : Bool
  ruleFail : Nat
  elems : Nat
  skips : Nat
  ovfBlocks : Nat
  watchEvents : Nat
  deriving DecidableEq, Repr

/-- R510: the last TRD_UPDATE of a partition on a die that completed: its place in dispatch order, its step, its status. -/
structure LastUpdate where
  order : Nat
  step : Nat
  status : Nat
  deriving DecidableEq, Repr

/-- R495: an entry that is not secured: its share, its lsn, the tick at which it was made. -/
structure Unsecured where
  share : Nat
  lsn : Nat
  tick : Nat
  deriving DecidableEq, Repr

/-- R490 to R497: a partition's Roving log. `mark` is the step and the cursor of its last MARK. -/
structure TrainLog where
  baseA : Nat
  baseB : Nat
  pagesA : Nat
  pagesB : Nat
  nextA : Nat
  nextB : Nat
  overrun : Bool
  unsecured : List Unsecured
  mark : Option (Nat × Nat)
  deriving DecidableEq, Repr

/-- A region entry of a snapshot set. -/
structure SnapRegion where
  va0 : Nat
  va1 : Nat
  granules : Nat
  sel : Nat
  ctx : Nat
  die : Nat
  rsvZero : Bool
  deriving DecidableEq, Repr

/-- R501: a generation that the partition keeps, with the step and the lsns of its manifest. -/
structure Generation where
  n : Nat
  step : Nat
  lsnA : Nat
  lsnB : Nat
  deriving DecidableEq, Repr

/-- R498 to R507: a partition's snapshot set. `dirty` holds the four dirty bits of each granule, numbered through the
table; a granule that it does not list has all four set. `taking` names the bit that a running TAKE cleared and the
granules whose bit it cleared; `base` holds the lsns in the manifest of the generation last restored. -/
structure SnapSet where
  cfg : SnapConfig
  position : Nat
  table : List Byte
  regions : List SnapRegion
  gens : List Generation
  dirty : Tbl Nat
  taking : Option (Nat × List Nat)
  base : Option (Nat × Nat)
  deriving DecidableEq, Repr

/-- What a partition keeps for its job: BOB_STEP_n, each share's next lsn when that step was applied, its log and its
snapshot set. -/
structure Train where
  step : Nat
  lsnA : Nat
  lsnB : Nat
  log : Option TrainLog
  snap : Option SnapSet
  deriving DecidableEq, Repr

/-- R508: a snapshot store: its source, its host partition, its sizes, its pages (two slots, then the mirrors of shares A
and B). -/
structure Store where
  source : Nat
  srcPart : Nat
  host : Nat
  slotBytes : Nat
  logA : Nat
  logB : Nat
  pages : List Nat
  deriving DecidableEq, Repr

/-- R518, R530: an open recovery. `teacher` is the digest that the restored manifest carries. -/
structure Recovery where
  part : Nat
  position : Nat
  gen : Nat
  stateDone : Bool
  logDone : Bool
  teacher : Option (List Byte)
  deriving DecidableEq, Repr

/-- R514: a decision that the root recorded; `past` where a RESTORE STATE has since gone back before its step (R520). -/
structure Decision where
  step : Nat
  attempt : Nat
  code : Nat
  past : Bool
  deriving DecidableEq, Repr

/-- The training units: the Treadles by die, the last updates keyed 2 × partition + die, the partitions' jobs, the stores,
the commit tables by group, the open recovery,
the tick in which each die's Bobbin last served a buddy, RVL_ENTRIES and RVL_DROPPED of each share. -/
structure Training where
  trd : Tbl Treadle
  last : Tbl LastUpdate
  p : Tbl Train
  stores : Tbl Store
  table : Tbl (List Decision)
  recovery : Option Recovery
  serving : Tbl Nat
  entries : Tbl Nat
  dropped : Tbl Nat
  deriving DecidableEq, Repr

/-! ### What a command holds and how it ends (chapter 06) -/

/-- R583: a member of a group. -/
structure GroupMember where
  device : Nat
  part : Nat
  idxOffset : Nat
  deriving DecidableEq, Repr

/-- R583, R584: a declared group, the issuing device's position, its digest. -/
structure Group where
  part : Nat
  members : List GroupMember
  pos : Nat
  digest : Nat
  deriving DecidableEq, Repr

/-- The held effects of the exchange, the Treadle and the snapshot engine. -/
inductive TrainEffect where
  /-- R488: a committed TRD_UPDATE: the flags of its norm record, and its watch events as layer, ZERO_EVENT, RATIO_EVENT. -/
  | update (die part order step : Nat) (skipped : Bool) (flags ovf elems : Nat) (events : List (Nat × Bool × Bool))
  /-- R455: a norm record for the log. -/
  | norm (part die step : Nat) (bytes : List Byte)
  | xchNew (ctx : Nat) (x : Xch)
  | xchGone (ctx : Nat)
  | contrib (ctx step pos : Nat) (data : List Byte)
  | stepSummed (ctx : Nat) (present held : List Nat)
  | store (i : Nat) (s : Store)
  | snapConfig (part : Nat) (s : SnapSet)
  | snapTaken (part gen step granules : Nat)
  | restored (part step gen ctxEpoch lsnA lsnB : Nat) (teacher : List Byte)
  | logRestored (part : Nat) (nextA nextB : Nat) (rebuilt : List (Nat × Decision))
  | logConfig (part : Nat) (l : TrainLog)
  | mark (part step cursor : Nat) (digest : List Byte)
  | decided (part group step attempt code : Nat) (entry : Bool)
  | recoveryOpen (r : Recovery)
  | recoveryClosed
  deriving DecidableEq, Repr

/-- The held effects of the link commands. -/
inductive LinkEffect where
  | routes (runs : List (Nat × Nat × Nat))
  | group (g : Nat) (v : Group)
  | groupGone (g : Nat)
  deriving DecidableEq, Repr

/-- The held effects of the Lamplighter's commands. `output` bytes follow a queue-1 record (R610). -/
inductive LampEffect where
  | output (data : List Byte)
  | extend (reg : Nat) (digest : List Byte)
  | install (record : List Byte)
  | errqTake (n : Nat)
  | cap (mw : Nat) (persist : Bool)
  deriving DecidableEq, Repr

/-- One effect that a command holds until its commit point (R261). Each is applied to the state of that instant. -/
inductive Effect where
  /-- The bytes at a device-physical address. -/
  | mem (pa : Nat) (data : List Byte)
  /-- A block of len bytes, of which only the listed offsets are not zero. -/
  | block (pa len : Nat) (cells : List Host.Cell)
  /-- The bytes at an I/O virtual address of the host. -/
  | host (iova : Nat) (data : List Byte)
  /-- A half-tile's new image. -/
  | half (sp h : Nat) (v : HalfTile)
  /-- A working image that the commit does not publish (R119, R131). -/
  | work (sp h : Nat) (v : HalfTile)
  | tqPost (sp tile : Nat) (fp16 : Bool)
  | tqRemove (sp n : Nat)
  | permRange (sp : Nat)
  | map (part key : Nat) (e : Pte)
  | unmap (part key : Nat)
  | pageUse (tier : Tier) (page : Nat) (u : PageUse)
  | kvFrames (part : Nat) (frames : List Nat)
  | zero (i : ZeroItem)
  | region (r : Nat) (pages : List Nat) (digest : List Byte)
  | regionZero (r : Nat)
  | sealMap (part r va : Nat)
  | sealUnmap (part r va : Nat)
  | queueNew (q part share vec sqLog2 cqLog2 sqVa cqVa firstSeq : Nat) (operator : Bool) (sqPages cqPages : List Nat)
  | queueGone (q : Nat)
  | queueResume (q mode newHead newSeq : Nat)
  | partNew (p share spanId : Nat) (forerunner span : Bool) (spanList spindles : List Nat)
  | partRegrow (p : Nat) (spindles : List Nat)
  | partFree (p : Nat)
  | partShare (p share : Nat)
  | queueShare (q share : Nat)
  | ctxSaved (p : Nat) (c : SavedCtx)
  | ctxActive (p : Nat) (spindles : List Nat)
  | reclaimed (p : Nat)
  | tick
  | killHeld (cs : List CmdRef)
  | wickNew (part idx : Nat) (w : WickLive)
  | wickGone (part idx : Nat)
  | wickBlocks (part idx mb role : Nat) (blocks : List Nat)
  | wickRank (part idx mb rank next : Nat)
  | wickPhase (part idx mb phase : Nat) (nonfinite labelRange : Bool)
  | wickRelease (part idx : Nat)
  | wickMap (part slot : Nat) (entries : List Nat)
  | wickNonfinite (n : Nat)
  | reqAdmit (part id : Nat) (a : Admission)
  | reqRelease (id : Nat)
  | reqExpire (id : Nat)
  | poolAdd (part : Nat) (pages : List (Nat × Nat))
  | poolRemove (part : Nat) (pages : List Nat)
  | pagePlace (part id index : Nat) (page : Nat)
  | periodOpen (part slot : Nat) (p : Period)
  | periodClose (part slot : Nat) (rows : List CloseRow)
  | periodAbort (part slot : Nat)
  | tenantSet (t op part maxLive value : Nat)
  | draftCtl (id ctl : Nat)
  | draftNodes (part slot : Nat) (nodes : List (Nat × DraftNode))
  | train (e : TrainEffect)
  | link (e : LinkEffect)
  | lamp (e : LampEffect)
  deriving DecidableEq, Repr

/-- How a command ended or will end: the fields of its completion record (R239) and its held effects (R261). -/
structure Result where
  status : Nat
  c0 : Nat
  c1 : Nat
  c2 : Nat
  cycles : Nat
  permRange : Bool
  outNan : Bool
  outInf : Bool
  ce : Bool
  effects : List Effect
  deriving DecidableEq, Repr

/-- What a command that has issued and not finished holds. -/
inductive Progress where
  | vec (v : VecCtx) (r : Result)
  | stage (n : Nat) (r : Result)
  | coll (sent : Bool) (own : List Byte) (r : Result)
  deriving DecidableEq, Repr

/-- Where a packet stands between submission and its record (R252, R261, R267, R271). -/
inductive Phase where
  | waiting
  | dispatched
  | running (p : Progress)
  | rerun
  | ran (r : Result)
  | done (r : Result)
  deriving DecidableEq, Repr

/-- A packet that the device has read and not yet recorded. `headSince` is the tick at which it reached the head of its queue,
`lapsed` whether its wait limit has passed with a wait unmet (R257); `submitted` is the tick at which it was read, `accepted` and
`order` its places in the order of acceptance and of dispatch, `since` the place at which it last issued. -/
structure Entry where
  hdr : Header
  payload : Payload
  bytes : List Byte
  phase : Phase
  reruns : Nat
  issued : Bool
  yielded : Bool
  ce : Bool
  order : Nat
  since : Nat
  wc : Nat
  headSince : Option Nat
  lapsed : Bool
  submitted : Nat
  accepted : Nat
  heldBy : Option UnitId
  chain : Option Nat
  room : Nat
  reqRecords : List (List Byte)
  deriving DecidableEq, Repr

/-- STATE of SKN_Q_CFG_q (R287). -/
inductive QState where
  | disabled | running | halted | saved
  deriving DecidableEq, Repr

/-- R241 to R250, R283, R287: a command queue. `part` is 14 for queues 0 and 1. `sqPages` and `cqPages` are the
device-physical addresses of the rings' 2 MiB pieces. `haltDue` holds dispatch until the records that halt the queue are written. -/
structure Queue where
  state : QState
  savedState : QState
  part : Nat
  operator : Bool
  sqLog2 : Nat
  cqLog2 : Nat
  share : Nat
  vec : Nat
  sqVa : Nat
  cqVa : Nat
  sqPages : List Nat
  cqPages : List Nat
  head : Nat
  tail : Nat
  written : Nat
  cqHead : Nat
  nextSeq : Nat
  dbIgnored : Nat
  overrun : Bool
  badHeader : Bool
  lastStatus : Nat
  qtags : Tbl Nat
  haltDue : Bool
  entries : List Entry
  deriving DecidableEq, Repr

/-- R543: the accounting counters of a partition or of a queue. -/
structure Acct where
  busySpn : Nat
  busyIod : Nat
  pilot : Nat
  wait : Nat
  killRerun : Nat
  killFinal : Nat
  lost : Nat
  yielded : Nat
  teardown : Nat
  deriving DecidableEq, Repr

/-- The queues, the tokens (sets 0 to 13 of the partitions, 14 of the operator; key 64 × set + token) and what orders
commands over the whole device. -/
structure Queues where
  q : Tbl Queue
  tokens : Tbl Nat
  nextOrder : Nat
  nextChain : Nat
  qAcct : Tbl Acct
  ptags : Tbl Nat
  deriving DecidableEq, Repr

/-! ### Spindles (chapters 03 and 05) -/

/-- R138, R139: the fields of SPN_PILOT_CFG. -/
structure PilotCfg where
  en : Bool
  high : Nat
  low : Nat
  ramp : Nat
  gapMax : Nat
  deriving DecidableEq, Repr

/-- One Spindle: its accumulator tiles, its tile queue, its pilot state and its counters. `hist` holds the command rows of
the last 16 windows before the present gap, newest first, `gap` the windows of the present gap, `bubbles` those of them that
lie in pass bubbles, `ramp` the windows since the last ramp step. `loaded` says whether the stationary registers and the
row-hold registers hold operand data: no command reads what they hold (R125, R182). -/
structure Spindle where
  acc : Tbl HalfTile
  tq : List TqEntry
  tqHead : Nat
  rows : Nat
  freeze : Nat
  pilotRows : Nat
  pilot : PilotCfg
  pilotNext : Option PilotCfg
  hist : List Nat
  gap : Nat
  bubbles : Nat
  ramp : Nat
  occupied : Nat
  vecInstr : Nat
  vecBusy : Nat
  permRange : Bool
  loaded : Bool
  deriving DecidableEq, Repr

/-! ### Memory (chapter 04) -/

/-- R175 to R180: a sealed region. -/
structure Region where
  pages : List Nat
  digest : List Byte
  damaged : Bool
  zeroing : Bool
  deriving DecidableEq, Repr

/-- The fault latch of a partition (R163, R193). -/
structure FaultLatch where
  valid : Bool
  va : Nat
  reason : Nat
  source : Nat
  seq : Nat
  deriving DecidableEq, Repr

/-- SKN_HBM_STATUS_s (R193). -/
structure HbmStack where
  trained : Bool
  repaired : Bool
  tempC : Nat
  ce : Nat
  deriving DecidableEq, Repr

/-- R263: what a commit wrote over: its place in the order of dispatches and commits, the ranges that it wrote, and the cells that
held their sectors before it. It is kept while a command that was issued before the commit may still read. -/
structure Stale where
  stamp : Nat
  ranges : List (Nat × Nat)
  old : List Host.Cell
  deriving DecidableEq, Repr

/-- The memory system. `bytes` is keyed by device-physical address, `host` by I/O virtual address; an address that is not
listed reads as zero. `ue` and `ces` list the sectors that hold an uncorrectable or a correctable error. -/
structure Mem where
  bytes : List Host.Cell
  host : List Host.Cell
  ue : List Nat
  ces : List Nat
  stale : List Stale
  skein : Tbl PageUse
  hbm : Tbl PageUse
  ddr : Tbl PageUse
  hbmPages : Nat
  ddrPages : Nat
  zeroQ : List ZeroItem
  regions : Tbl Region
  quotaRej : Bool
  ueFlag : Bool
  ueBank : Nat
  ceCount : Nat
  hbmStacks : Tbl HbmStack
  deriving DecidableEq, Repr

/-! ### Partitions (chapter 13) -/

/-- R532. -/
inductive PartState where
  | free | active | saved | reclaimed
  deriving DecidableEq, Repr

/-- A partition: its state and attributes, its Spindles in rank order, its page table (keyed by va / 64 KiB), its KV
frames, its sealed mappings (region, va), its quotas, its fault latch and its accounting. `level2Held` are the level-2 entries
of pages that a release in progress has taken away (R159). -/
structure Partition where
  state : PartState
  share : Nat
  forerunner : Bool
  span : Bool
  spanId : Nat
  spanList : List Nat
  spindles : List Nat
  pt : Tbl Pte
  kvFrames : List Nat
  maps : List (Nat × Nat)
  quotaSkein : Nat
  quotaWick : Nat
  quotaHbm : Nat
  quotaDdr : Nat
  fault : FaultLatch
  acct : Acct
  saved : SavedCtx
  storePages : Nat
  level2Held : List Nat
  deriving DecidableEq, Repr

/-- LMP_RECLAIM_STATUS (R567). -/
structure ReclaimStatus where
  part : Nat
  snapFailed : Bool
  unwritten : Nat
  deriving DecidableEq, Repr

/-- The partitions, the Spindles whose release is being zeroed (Spindle to former partition), and the last RECLAIM. -/
structure Parts where
  p : Tbl Partition
  spZero : Tbl Nat
  reclaim : ReclaimStatus
  deriving DecidableEq, Repr

/-- The Wick: descriptors keyed 16 × partition + index, map slots keyed 4 × partition + slot (R319). -/
structure Wick where
  descs : Tbl WickLive
  maps : Tbl (List Nat)
  nonfinite : Nat
  deriving DecidableEq, Repr

/-- R347: a page of a KV pool, keyed by its physical address / 64 KiB. -/
structure PoolPage where
  va : Nat
  holder : Option Nat
  zeroing : Bool
  deriving DecidableEq, Repr

/-- R339: a tenant. -/
structure Tenant where
  balance : Int
  reserved : Nat
  maxLive : Nat
  live : Nat
  bound : Option Nat
  overdrawn : Bool
  deriving DecidableEq, Repr

/-- The request table and what stands around it: entries that are not FREE, the generations of all entries, KV pools by
partition, open periods keyed 4 × partition + slot, tenants, MAX_REQ by partition, the counters of R373 and R410. -/
structure Reqs where
  r : Tbl Request
  gens : Tbl Nat
  pools : Tbl (Tbl PoolPage)
  periods : Tbl Period
  tenants : Tbl Tenant
  maxReq : Tbl Nat
  expired : Nat
  streamed : Nat
  draftNodes : Nat
  draftAccepted : Nat
  ringBad : Bool
  deriving DecidableEq, Repr

/-! ### Links and the host bridge (chapter 14) -/

/-- STATE of LNK_PORT_STATUS_j (R605). -/
inductive PortState where
  | disabled | training | up | retrain | down | host
  deriving DecidableEq, Repr

/-- A flit in a replay buffer (R572): its number, its buffer, how often it was replayed. -/
structure Flit where
  num : Nat
  vc : Nat
  cls : Nat
  replays : Nat
  deriving DecidableEq, Repr

/-- A link port (R568 to R576, R605). `retrains` holds the ticks at which retrains began, `since` the tick of the present
one. `waiting` are flits that wait for credits or for a retrain; `used` counts the credits in use for each buffer
(2 × VC + class); `held` and `owed` count the flits that stand in a receive buffer and the credits to return. -/
structure Port where
  state : PortState
  enable : Bool
  dateline : Bool
  chatter : Bool
  spareUsed : Bool
  badLane : Nat
  retrains : List Nat
  since : Nat
  txNext : Nat
  replay : List Flit
  waiting : List (Nat × Nat)
  used : Tbl Nat
  rxNext : Nat
  rxReplay : Bool
  held : Tbl Nat
  owed : Tbl Nat
  retry : Nat
  drop : Nat
  deriving DecidableEq, Repr

/-- A message that this device sent and that is neither acknowledged nor lost (R579); `held` while its destination has it wait here
(R428). -/
structure Sent where
  msg : Message
  cmd : Option CmdRef
  tick : Nat
  held : Bool
  deriving DecidableEq, Repr

/-- A group message that arrived and is not yet combined (R586, R587). -/
structure CollVal where
  group : Nat
  key : GroupKey
  pos : Nat
  up : Bool
  data : List Byte
  deriving DecidableEq, Repr

/-- R325, R456, R590: other members' commands of a group and key that were lost: their devices, and the dies whose command of
that key has still to end with ST_PEER_LOST on their account (a command that no die names stands under die 0). -/
structure Lost where
  group : Nat
  key : GroupKey
  srcs : List Nat
  owed : List Nat
  deriving DecidableEq, Repr

/-- R591: the shadow writes of a LINK_WRITE from another device. -/
structure Shadow where
  src : Nat
  xfer : Nat
  part : Nat
  va : Nat
  data : List Byte
  deriving DecidableEq, Repr

/-- A message that a ROUTE_SET holds (R581), with the command that waits for it; `answer` where its destination does not acknowledge
it. -/
structure Held where
  msg : Message
  cmd : Option CmdRef
  answer : Bool
  deriving DecidableEq, Repr

/-- The link ports, routes, groups and messages, and the host bridge. `holds` lists, for a destination under R581, the
messages that must end before its held messages go; `out` are the messages given to the links so far; `hostHeld` are the host-bound
writes and notifies that wait for the host path (R601), `hostReqs` those that the bridge issued for members, each with its PASID, its
address and its length (R599); `msixTable` the address and data words of the MSI-X table (4 × vector + word); `msixSent` the vectors
with a message in the present tick, `msixAgain` those that owe a coalesced one (R600). `readData` is what the last read access
returned, `poisoned` whether that completion was poisoned, `aer` the reports through AER (R660). -/
structure Links where
  devNum : Nat
  numRej : Bool
  ports : Tbl Port
  routes : Tbl Nat
  holds : Tbl (List Nat)
  heldMsgs : List Held
  sent : List Sent
  nextMsg : Nat
  groups : Tbl Group
  inbox : List CollVal
  lost : List Lost
  shadow : List Shadow
  bridge : Bool
  l0 : Bool
  bme : Bool
  pasidEn : Bool
  speed : Nat
  width : Nat
  hostUp : Bool
  hostHeld : List MsgBody
  hostReqs : List (Option Nat × Nat × Nat)
  hostDiscard : Nat
  slotPath : Tbl Nat
  msixTable : Tbl Nat
  msixMask : Tbl Bool
  msixPend : List Nat
  msixSent : List Nat
  msixAgain : List Nat
  out : List Message
  readData : List Byte
  poisoned : Bool
  aer : Nat
  deriving DecidableEq, Repr

/-! ### The Lamplighter (chapter 15) -/

/-- An error record (R624). -/
structure ErrRecord where
  tick : Nat
  unit : UnitId
  island : Nat
  level : Nat
  escalated : Bool
  fatal : Bool
  code : Nat
  part : Nat
  queue : Nat
  seq : Nat
  detail : Nat
  number : Nat
  deriving DecidableEq, Repr

/-- R626: a unit that is recovering: the level of its present action, the tick at which that action began, and the
partitions that a level-2 action tears down. -/
structure Recovering where
  unit : UnitId
  level : Nat
  since : Nat
  parts : List Nat
  deriving DecidableEq, Repr

/-- R632: a filtered reset input: its level after filtering, whether its present low level has been latched STUCK, whether it
has been taken as a filtered reset, its latches, whether it is ignored, the ticks of its filtered resets. -/
structure ResetInput where
  level : Bool
  stuckLow : Bool
  seen : Bool
  stuck : Bool
  chatter : Bool
  ignored : Bool
  pulses : List Nat
  deriving DecidableEq, Repr

/-- R632: whether an input holds what it resets in reset: it is low, is not STUCK and is not ignored. -/
def ResetInput.holds (r : ResetInput) : Bool := !r.level && !r.stuckLow && !r.ignored

/-- R634: a side-band port: the alert events since its last alert message, and the tick of that message. -/
structure SidePort where
  events : Nat
  lastSent : Option Nat
  deriving DecidableEq, Repr

/-- R611: the continuation data of a DEVREC_INSTALL that waits for it: its command, its port, the bytes so far, the tick of
the last message. -/
structure Continuation where
  cmd : CmdRef
  port : Nat
  data : List Byte
  tick : Nat
  deriving DecidableEq, Repr

/-- R620, R621: a certified per-boot key: which generated key it is, its certificate's identity index, its next index. -/
structure BootKey where
  key : Nat
  idIndex : Nat
  next : Nat
  deriving DecidableEq, Repr

/-- The Lamplighter. `board` are the facts of the board (R612), `stage` the last stage completed, `on` whether the
Lamplighter runs, `cdUp` whether the compute die and the I/O dies run, `held` whether they are held down until a device reset (R625), `localMem` queue 1's
rings in local memory (R609), `sbOut` the side-band messages sent so far as (where to, body), `cameBy` where each queue-1 packet
that came by the side-band came from (R607, R611), `conts` the continuation data that stand, `minVersion` the least security
version of an image (R612), `idA` and `idB` the two MRAM words of the identity's next index, none where the check word does
not match (R618), `applied` the device record whose site map, trims and repair maps are in
effect (R615) and `sites` the enabled site of each logical Spindle (R15), both from the last boot that reached stage 5,
`flashB` the bytes written to flash slot B in recovery mode. -/
structure Lamp where
  board : Option BoardFacts
  on : Bool
  stage : Nat
  recovery : Bool
  slotB : Bool
  recordBad : Bool
  cdUp : Bool
  held : Bool
  enIo : Bool
  enCore : Bool
  enHbm : Bool
  live : Nat
  copyA : List Byte
  copyB : List Byte
  minCounter : Nat
  meas : Tbl (List Byte)
  minVersion : Nat
  idA : Option Nat
  idB : Option Nat
  idIndex : Nat
  key : Option BootKey
  keysMade : Nat
  exhausted : Bool
  idLow : Bool
  bootCount : Nat
  applied : List Byte
  sites : List Nat
  errq : List ErrRecord
  dropped : Nat
  number : Nat
  mram : List ErrRecord
  fatal : Bool
  downAccess : Bool
  alert : Bool
  recovering : List Recovering
  rst : ResetInput
  perst : ResetInput
  ports : Tbl SidePort
  conts : List Continuation
  cameBy : Tbl SbEnd
  sbOut : List (SbEnd × List Byte)
  sample : List Byte
  localMem : List Host.Cell
  flashB : List Byte
  deriving DecidableEq, Repr

/-! ### Power (chapter 16) -/

/-- R647 to R652, R658: the power controller. `hot` counts, for each sensor, the consecutive comparisons at or above its
trip point; sensors are keyed 64 × source + index. `evalAt`, `comparedAt` and `sampledAt` are the ticks of the last
evaluation, comparison and sample. `coreMv` and `sknMv` are the voltages that AVSBus
requests (R642), in mV: VDD_CORE_0 to VDD_CORE_3, then VDD_SKN. -/
structure Power where
  tripped : Bool
  brake : Bool
  therm : Bool
  memLevel : Nat
  target : Nat
  cap : Nat
  stored : Option Nat
  avg : Nat
  latched : Bool
  source : Nat
  index : Nat
  tempC : Int
  hot : Tbl Nat
  cool : Bool
  energy : Nat
  coreMv : List Nat
  sknMv : Nat
  evalAt : Option Nat
  comparedAt : Option Nat
  sampledAt : Option Nat
  deriving DecidableEq, Repr

/-! ### Requester paths (R33, R288) -/

/-- What a requester path keeps of its own: its selects, its latch of TICK_HI, its latch of SKN_TOK_HI, its latches of the
counters' high halves. -/
structure PathRegs where
  tokSel : Nat
  tenSel : Nat
  acctSel : Nat
  routeSel : Nat
  tickHi : Nat
  tokHi : Nat
  hi : List (Counter × Nat)
  deriving DecidableEq, Repr

/-! ### What a table's missing entry stands for -/

def Acct.zero : Acct := ⟨0, 0, 0, 0, 0, 0, 0, 0, 0⟩

def HalfTile.empty : HalfTile := ⟨false, 0, []⟩

/-- A queue that does not exist. -/
def Queue.off : Queue :=
  { state := .disabled, savedState := .disabled, part := 0, operator := false, sqLog2 := 0, cqLog2 := 0, share := 0,
    vec := 0, sqVa := 0, cqVa := 0, sqPages := [], cqPages := [], head := 0, tail := 0, written := 0, cqHead := 0,
    nextSeq := 0, dbIgnored := 0, overrun := false, badHeader := false, lastStatus := 0, qtags := [], haltDue := false,
    entries := [] }

/-- R138: SPN_PILOT_CFG at reset. -/
def PilotCfg.reset : PilotCfg := ⟨true, 0xC, 4, 1, 0x20⟩

def Spindle.reset : Spindle :=
  { acc := [], tq := [], tqHead := 0, rows := 0, freeze := 0, pilotRows := 0, pilot := .reset, pilotNext := none,
    hist := [], gap := 0, bubbles := 0, ramp := 0, occupied := 0, vecInstr := 0, vecBusy := 0, permRange := false,
    loaded := false }

def FaultLatch.clear : FaultLatch := ⟨false, 0, 0, 0, 0⟩

def SavedCtx.empty : SavedCtx := ⟨[], [], [], []⟩

def HbmStack.reset : HbmStack := ⟨false, false, 0, 0⟩

/-- A FREE partition whose quotas are zero. -/
def Partition.off : Partition :=
  { state := .free, share := 0, forerunner := false, span := false, spanId := 0, spanList := [], spindles := [],
    pt := [], kvFrames := [], maps := [], quotaSkein := 0, quotaWick := 0, quotaHbm := 0, quotaDdr := 0,
    fault := .clear, acct := .zero, saved := .empty, storePages := 0, level2Held := [] }

def Tenant.reset : Tenant := ⟨0, 0, 0, 0, none, false⟩

/-- A port at reset (R605). -/
def Port.reset : Port :=
  { state := .disabled, enable := false, dateline := false, chatter := false, spareUsed := false, badLane := 0xF,
    retrains := [], since := 0, txNext := 0, replay := [], waiting := [], used := [], rxNext := 0, rxReplay := false,
    held := [], owed := [], retry := 0, drop := 0 }

def Treadle.reset : Treadle :=
  { failed := false, lastStep := 0, lastSkipped := false, lastFlags := 0, lastOvf := 0, event := false, zeroSeen := false,
    ratioSeen := false, watchLayer := 0, tested := false, pass := false, ruleFail := 0, elems := 0, skips := 0,
    ovfBlocks := 0, watchEvents := 0 }

def Train.reset : Train := ⟨0, 0, 0, none, none⟩

def PathRegs.reset : PathRegs := ⟨0, 0, 0, 0, 0, 0, []⟩

/-- DESIGN CHOICE (log entry 6): the manual does not say at which level an input stands when the MGD leaves its power-on
reset; the model takes it as high, not asserted. -/
def ResetInput.reset : ResetInput := ⟨true, false, false, false, false, false, []⟩

def SidePort.reset : SidePort := ⟨0, none⟩

/-- The Lamplighter before standby power. -/
def Lamp.off : Lamp :=
  { board := none, on := false, stage := 0, recovery := false, slotB := false, recordBad := false, cdUp := false,
    held := false, enIo := false, enCore := false, enHbm := false, live := 0, copyA := [], copyB := [], minCounter := 0, meas := [],
    minVersion := 0, idA := some 0, idB := some 0, idIndex := 0, key := none, keysMade := 0, exhausted := false, idLow := false, bootCount := 0,
    applied := [], sites := [], errq := [], dropped := 0,
    number := 0, mram := [], fatal := false, downAccess := false, alert := false, recovering := [],
    rst := .reset, perst := .reset, ports := [], conts := [], cameBy := [], sbOut := [], sample := [],
    localMem := [], flashB := [] }

/-- R658: the power controller at reset. -/
def Power.reset : Power :=
  { tripped := false, brake := false, therm := false, memLevel := 16, target := 1900, cap := 1900000, stored := none,
    avg := 0, latched := false, source := 0, index := 0, tempC := 0, hot := [], cool := true, energy := 0, coreMv := [],
    sknMv := 0, evalAt := none, comparedAt := none, sampledAt := none }

/-! ### The whole block -/

/-- Everything the spec gives the block, but the queue of waiting commands. `free` counts the uses of free values. -/
structure Dev where
  clk : Clock
  qs : Queues
  sp : Tbl Spindle
  mem : Mem
  parts : Parts
  wick : Wick
  reqs : Reqs
  links : Links
  xch : Tbl Xch
  train : Training
  lamp : Lamp
  power : Power
  paths : Tbl PathRegs
  errDue : List ErrorInfo
  free : Nat
  deriving DecidableEq, Repr

/-! ### Reset -/

/-- R28 to R32: no standby rail is up. -/
def Clock.reset : Clock := ⟨false, 0, List.replicate 55 0, false, false, false, []⟩

def Queues.reset : Queues := ⟨[], [], 1, 0, [], []⟩

def Mem.reset : Mem :=
  { bytes := [], host := [], ue := [], ces := [], stale := [], skein := [], hbm := [], ddr := [], hbmPages := 0, ddrPages := 0,
    zeroQ := [], regions := [], quotaRej := false, ueFlag := false, ueBank := 0, ceCount := 0, hbmStacks := [] }

def Reqs.reset : Reqs :=
  { r := [], gens := [], pools := [], periods := [], tenants := [], maxReq := [], expired := 0, streamed := 0,
    draftNodes := 0, draftAccepted := 0, ringBad := false }

/-- R605: links and host bridge. -/
def Links.reset : Links :=
  { devNum := 0, numRej := false, ports := [], routes := [], holds := [], heldMsgs := [], sent := [], nextMsg := 0,
    groups := [], inbox := [], lost := [], shadow := [], bridge := false, l0 := false, bme := false, pasidEn := false, speed := 0,
    width := 0, hostUp := false, hostHeld := [], hostReqs := [], hostDiscard := 0, slotPath := [], msixTable := [], msixMask := [], msixPend := [],
    msixSent := [], msixAgain := [], out := [], readData := [], poisoned := false, aer := 0 }

def Training.reset : Training :=
  { trd := [], last := [], p := [], stores := [], table := [], recovery := none, serving := [], entries := [], dropped := [] }

/-- Every register at its reset value, nothing in any table, no command taken: the block before its first standby
power-up. -/
def Dev.initial : Dev :=
  { clk := .reset, qs := .reset, sp := [], mem := .reset, parts := ⟨[], [], ⟨0, false, 0⟩⟩, wick := ⟨[], [], 0⟩,
    reqs := .reset, links := .reset, xch := [], train := .reset, lamp := .off, power := .reset, paths := [], errDue := [],
    free := 0 }

/-- The state: the block, and the commands that wait, first in, first out. -/
structure State where
  dev : Dev
  pending : List Instr
  deriving DecidableEq, Repr

/-- The block at reset, with no command waiting. -/
def State.reset : State := ⟨.initial, []⟩

end Sys2Proof.Machine
end

