-- ==== Sys2Proof/Machine/Packet.lean ====
section
/-! DEFINITION. Command packets as bytes: the header (R233) and the payload of every opcode (R276), read from the ring.
A payload of a length that its chapter does not give (R238), or with an operation code its chapter does not give, reads
as none. -/

namespace Sys2Proof.Machine

/-- R233. -/
def parseHeader (b : List Byte) : Header :=
  { opcode := byteAt b 0, flags := byteAt b 1, units := byteAt b 2, unit := byteAt b 3, part := byteAt b 4,
    queue := byteAt b 5,
    rsvZero := zeroAt b 6 2 && zeroAt b 19 1 && zeroAt b 56 8 && byteAt b 1 / 16 == 0,
    seq := leAt b 8 8, wait0 := byteAt b 16, wait1 := byteAt b 17, sig := byteAt b 18, waitLimit := leAt b 20 4,
    wait0Val := leAt b 24 8, wait1Val := leAt b 32 8, sigVal := leAt b 40 8, tag := leAt b 48 8 }

def Header.fence (h : Header) : Bool := bit h.flags 0
def Header.haltOnFail (h : Header) : Bool := bit h.flags 1
def Header.notify (h : Header) : Bool := bit h.flags 2
def Header.log (h : Header) : Bool := bit h.flags 3

/-- R234. -/
def granulesOf (units : Nat) : Nat := ceilDiv (64 + 16 * units) 64

/-- R127. -/
def parseDesc (b : List Byte) (i : Nat) : Desc :=
  { va := leAt b i 8, scaleVa := leAt b (i + 8) 8, rowStride := leAt b (i + 16) 4, scaleStride := leAt b (i + 20) 4,
    fmt := byteAt b (i + 24) % 16, fmtRsv := byteAt b (i + 24) / 16, flags := byteAt b (i + 25), rsv := leAt b (i + 26) 6 }

/-- R129, R133. -/
def parseMatmul (b : List Byte) : Matmul :=
  { a := parseDesc b 0, b := parseDesc b 32, m := leAt b 64 4, n := leAt b 68 4, k := leAt b 72 4, ctl := byteAt b 76,
    accBase := byteAt b 77, fold := byteAt b 78, drain := byteAt b 79, roundSeed := leAt b 80 8, wickId := leAt b 88 4,
    rsv := leAt b 92 4, d := parseDesc b 96 }

/-- R132. -/
def parseGeom (b : List Byte) : ConvGeom :=
  { batch := leAt b 64 2, inH := leAt b 66 2, inW := leAt b 68 2, inC := leAt b 70 2, winR := byteAt b 72,
    winS := byteAt b 73, strideH := byteAt b 74, strideW := byteAt b 75, dilH := byteAt b 76, dilW := byteAt b 77,
    padT := byteAt b 78, padB := byteAt b 79, padL := byteAt b 80, padR := byteAt b 81, rsv := leAt b 82 2,
    n := leAt b 84 4, mStart := leAt b 88 4, mCount := leAt b 92 4 }

/-- R134. -/
def parseQuadBlock (b : List Byte) (q : Nat) : QuadBlock :=
  let i := 16 + 80 * q
  { a := parseDesc b i, b := parseDesc b (i + 32), m := leAt b (i + 64) 4, n := leAt b (i + 68) 4, k := leAt b (i + 72) 4,
    acc := byteAt b (i + 76), tile := byteAt b (i + 77), rsv := leAt b (i + 78) 2 }

/-- R204. -/
def parseVInstr (b : List Byte) (j : Nat) : VInstr :=
  let i := 160 + 16 * j
  { op := byteAt b i, ctl := byteAt b (i + 1), count := leAt b (i + 2) 2, imm := leAt b (i + 4) 4, dst := leAt b (i + 8) 2,
    s1 := leAt b (i + 10) 2, s2 := leAt b (i + 12) 2, s3 := leAt b (i + 14) 2 }

/-- R226. -/
def parseVecRun (b : List Byte) : VecRun :=
  let n := leAt b 0 2
  { nInstr := n, tqLimit := leAt b 4 4, taperSeed := leAt b 8 8, taperStream := leAt b 16 2,
    rsvZero := zeroAt b 2 2 && zeroAt b 18 14,
    descs := (List.range 4).map (fun j => parseDesc b (32 + 32 * j)), instrs := (List.range n).map (parseVInstr b) }

def word32 (b : List Byte) (i : Nat) : Word := BitVec.ofNat 32 (leAt b i 4)

/-- R320. -/
def parseWickDesc (b : List Byte) : WickDesc :=
  { index := byteAt b 0 % 16, remove := bit (byteAt b 0) 7, indexRsv := byteAt b 0 / 16 % 8, topk := bit (byteAt b 1) 0,
    hard := bit (byteAt b 1) 1, map := bit (byteAt b 1) 2, ctlRsv := byteAt b 1 / 8, depth := byteAt b 2,
    spindles := byteAt b 3, fmtT := byteAt b 4, fmtS := byteAt b 5, mapSlot := byteAt b 6, relTok := byteAt b 7,
    k := leAt b 8 2, rows := leAt b 10 2, vocabT := leAt b 12 4, vocabS := leAt b 16 4, invTau := word32 b 20,
    wSoft := word32 b 24, wHard := word32 b 28, group := leAt b 32 2, pages := leAt b 36 4, va := leAt b 40 8,
    labelVa := leAt b 48 8, lossVa := leAt b 56 8, rsvZero := zeroAt b 34 2 && zeroAt b 64 32 }

/-- R334, R367, R377: the 128-byte image of a request entry that ADMIT carries. Only the fields that admission sets may
differ from zero. -/
def parseAdmission (b : List Byte) (i : Nat) : Admission :=
  { tenant := leAt b (i + 2) 2, priority := byteAt b (i + 4), promptLen := leAt b (i + 16) 4, maxLen := leAt b (i + 20) 4,
    eosId := leAt b (i + 28) 4, deadline := leAt b (i + 32) 8, pageListVa := leAt b (i + 40) 8,
    kvStreams := leAt b (i + 48) 2, ppp := leAt b (i + 50) 2, slotBytes := leAt b (i + 52) 2, seed := leAt b (i + 64) 8,
    temperature := word32 b (i + 72), topK := leAt b (i + 76) 2, topP := word32 b (i + 80), rep := word32 b (i + 84),
    freq := word32 b (i + 88), presence := word32 b (i + 92), countsVa := leAt b (i + 96) 8,
    ringIova := leAt b (i + 104) 8, ringLog2 := byteAt b (i + 116),
    restZero := zeroAt b i 2 && zeroAt b (i + 5) 11 && zeroAt b (i + 24) 4 && zeroAt b (i + 54) 10 &&
      zeroAt b (i + 78) 2 && zeroAt b (i + 112) 4 && zeroAt b (i + 117) 11 }

/-- Payloads of class 0x0 (R282 to R285). -/
def parseQueueCmd (op : Nat) (b : List Byte) : Option Payload :=
  match op, b.length with
  | 0x00, 0 => some .nop
  | 0x01, 0 => some .timestamp
  | 0x02, 48 =>
    some (.queueCreate (byteAt b 0) (byteAt b 1) (byteAt b 2) (byteAt b 3) (byteAt b 4) (byteAt b 5) (byteAt b 6)
      (leAt b 8 8) (leAt b 16 8) (leAt b 24 8) (zeroAt b 7 1 && zeroAt b 32 16))
  | 0x03, 16 => some (.queueDestroy (byteAt b 0) (byteAt b 1) (zeroAt b 2 14))
  | 0x04, 32 =>
    some (.queueResume (byteAt b 0) (byteAt b 1) (leAt b 8 4) (leAt b 16 8) (zeroAt b 2 6 && zeroAt b 12 4 && zeroAt b 24 8))
  | _, _ => none

/-- Payloads of class 0x1 (chapter 13). -/
def parsePartCmd (op : Nat) (b : List Byte) : Option Payload :=
  match op, b.length with
  | 0x10, 32 =>
    match byteAt b 0 with
    | 0 => some (.partCreate (byteAt b 1) (byteAt b 2) (byteAt b 3) (byteAt b 4) (leAt b 8 4) (leAt b 12 2) (leAt b 16 8)
        (zeroAt b 5 3 && zeroAt b 14 2 && zeroAt b 24 8))
    | 1 => some (.partRegrow (byteAt b 1) (byteAt b 2) (zeroAt b 3 29))
    | _ => none
  | 0x11, 16 => some (.partRelease (byteAt b 0) (zeroAt b 1 15))
  | 0x12, 16 => some (.partShares (byteAt b 0) (byteAt b 1) (byteAt b 2) (zeroAt b 3 13))
  | 0x13, 16 => some (.ctxSave (byteAt b 0) (zeroAt b 1 15))
  | 0x14, 32 => some (.ctxRestore (byteAt b 0) (leAt b 2 2) (leAt b 8 8) (zeroAt b 1 1 && zeroAt b 4 4 && zeroAt b 16 16))
  | 0x15, 32 =>
    some (.kill (byteAt b 0) (byteAt b 1) (byteAt b 2) (byteAt b 3) (leAt b 8 8)
      (zeroAt b 4 4 && zeroAt b 16 16 && byteAt b 3 / 2 == 0))
  | 0x16, 16 => some (.reclaim (byteAt b 0) (byteAt b 1) (zeroAt b 2 14 && byteAt b 1 / 2 == 0))
  | _, _ => none

/-- Payloads of class 0x2 (R129 to R135). -/
def parseArrCmd (op : Nat) (b : List Byte) : Option Payload :=
  match op, b.length with
  | 0x20, 128 => some (.arrMatmul (parseMatmul b))
  | 0x21, 128 => some (.arrStream (parseMatmul b))
  | 0x22, 160 =>
    some (.arrConv (parseDesc b 0) (parseDesc b 32) (parseGeom b) (byteAt b 96) (byteAt b 97) (byteAt b 98) (byteAt b 99)
      (leAt b 100 8) (leAt b 108 4) (parseDesc b 128) (zeroAt b 112 16))
  | 0x23, 128 => some (.arrShallow (parseMatmul b))
  | 0x24, 336 =>
    some (.arrQuad (byteAt b 0 % 4) (byteAt b 1 % 16) (leAt b 8 8) ((List.range 4).map (parseQuadBlock b))
      (byteAt b 0 / 4 == 0 && byteAt b 1 / 16 == 0 && zeroAt b 2 6))
  | 0x25, 48 =>
    some (.arrAcc (byteAt b 0) (byteAt b 1) (byteAt b 2) (byteAt b 3 % 2) (parseDesc b 16)
      (byteAt b 3 / 2 == 0 && zeroAt b 4 12))
  | _, _ => none

/-- Payloads of class 0x3 (chapter 04). -/
def parseMemCmd (op : Nat) (b : List Byte) : Option Payload :=
  match op, b.length with
  | 0x30, 80 => some (.memCopy (parseDesc b 0) (parseDesc b 32) (leAt b 64 4) (leAt b 68 4) (zeroAt b 72 8))
  | 0x31, 48 => some (.memFill (parseDesc b 0) (leAt b 32 4) (leAt b 36 4) (leAt b 40 4) (zeroAt b 44 4))
  | 0x32, 16 => some (.memAlloc (leAt b 0 8) (leAt b 8 4) (byteAt b 12) (byteAt b 13) (zeroAt b 14 2))
  | 0x33, 16 => some (.memFree (leAt b 0 8) (leAt b 8 4) (byteAt b 12) (byteAt b 13) (zeroAt b 14 2))
  | 0x34, 16 => some (.memMigrate (leAt b 0 8) (leAt b 8 4) (byteAt b 12) (byteAt b 13) (zeroAt b 14 2))
  | 0x35, 32 =>
    some (.memSealed (byteAt b 0) (byteAt b 1) (byteAt b 2) (leAt b 4 4) (leAt b 8 8) (zeroAt b 3 1 && zeroAt b 16 16))
  | _, _ => none

/-- Payloads of class 0x4 (R226, R228). -/
def parseVecCmd (op : Nat) (b : List Byte) : Option Payload :=
  match op with
  | 0x40 =>
    let p := parseVecRun b
    if 1 ≤ p.nInstr ∧ p.nInstr ≤ 54 ∧ b.length = 160 + 16 * p.nInstr then some (.vecRun p) else none
  | 0x41 => if b.length = 16 then some (.vecTqFlush (byteAt b 0) (zeroAt b 1 15)) else none
  | _ => none

/-- Payloads of class 0x5 (R320 to R326). -/
def parseWickCmd (op : Nat) (b : List Byte) : Option Payload :=
  match op, b.length with
  | 0x50, 96 => some (.wickDesc (parseWickDesc b))
  | 0x51, 16 => some (.wickStep (byteAt b 0) (byteAt b 1) (leAt b 2 2) (zeroAt b 4 12))
  | 0x52, 16 => some (.wickMerge (byteAt b 0) (byteAt b 1) (leAt b 2 2) (zeroAt b 4 12))
  | 0x53, 48 => some (.wickTokmap (byteAt b 0) (leAt b 4 4) (parseDesc b 16) (zeroAt b 1 3 && zeroAt b 8 8))
  | _, _ => none

/-- Payloads of class 0x6 (R367 to R370, R403 to R405). -/
def parseReqCmd (op : Nat) (b : List Byte) : Option Payload :=
  match op, b.length with
  | 0x60, 160 =>
    if byteAt b 0 = 0 ∧ zeroAt b 1 31 then some (.reqAdmit (parseAdmission b 32)) else none
  | 0x60, 32 =>
    match byteAt b 0 with
    | 1 => some (.poolAdd (leAt b 8 8) (leAt b 16 4) (zeroAt b 1 7 && zeroAt b 20 12))
    | 2 => some (.poolRemove (leAt b 8 8) (leAt b 16 4) (zeroAt b 1 7 && zeroAt b 20 12))
    | _ => none
  | 0x61, 16 => some (.reqRelease (leAt b 0 2) (leAt b 4 4) (zeroAt b 2 2 && zeroAt b 8 8))
  | 0x62, 32 =>
    match byteAt b 0 with
    | 0 => some (.decodeOpen (byteAt b 1) (leAt b 2 2) (leAt b 8 8) (leAt b 16 8) (zeroAt b 4 4 && zeroAt b 24 8))
    | 2 => some (.decodeAbort (byteAt b 1) (zeroAt b 4 4 && zeroAt b 24 8))
    | _ => none
  | 0x62, 128 =>
    if byteAt b 0 = 1 then
      some (.decodeClose (byteAt b 1) (parseDesc b 32) (leAt b 64 4) (leAt b 72 8)
        (zeroAt b 4 4 && zeroAt b 24 8 && zeroAt b 68 4 && zeroAt b 80 48))
    else none
  | 0x63, 32 =>
    if byteAt b 0 = 0 then
      some (.prefill (byteAt b 1) (leAt b 2 2) (leAt b 8 8) (leAt b 16 8) (zeroAt b 4 4 && zeroAt b 24 8))
    else none
  | 0x64, 16 => some (.tenantSet (leAt b 0 2) (byteAt b 2) (byteAt b 3) (leAt b 4 4) (leAt b 8 8) true)
  | 0x68, 16 =>
    if byteAt b 0 = 0 then some (.draftConfig (byteAt b 1) (leAt b 2 2) (leAt b 4 4) (zeroAt b 8 8)) else none
  | 0x68, 64 =>
    if byteAt b 0 = 1 then
      some (.draftDraw (byteAt b 1) (leAt b 2 2) (leAt b 4 4) (leAt b 8 8) (leAt b 16 8) (parseDesc b 32) (zeroAt b 24 8))
    else none
  | _, _ => none

/-- Payloads of class 0x7 (chapter 10). -/
def parseStepCmd (op : Nat) (b : List Byte) : Option Payload :=
  match op, b.length with
  | 0x70, 80 =>
    if byteAt b 0 = 0 then
      some (.xchConfig
        { ctx := byteAt b 1, comp := byteAt b 2, topkLog2 := byteAt b 3, policy := byteAt b 4, gfmt := byteAt b 5,
          group := leAt b 6 2, shardBlocks := leAt b 8 4, window := leAt b 12 4, minPresent := leAt b 16 2,
          gradVa := leAt b 24 8, residVa := leAt b 32 8, inboxVa := leAt b 40 8, sumVa := leAt b 48 8,
          firstStep := leAt b 56 4, rsvZero := zeroAt b 18 6 && zeroAt b 60 20 })
    else none
  | 0x70, 16 =>
    match byteAt b 0 with
    | 1 => some (.xchSend (byteAt b 1) (leAt b 4 4) (zeroAt b 2 2 && zeroAt b 8 8))
    | 2 => some (.xchRemove (byteAt b 1) (zeroAt b 2 14))
    | _ => none
  | 0x71, 32 =>
    some (.stepWait (byteAt b 0) (byteAt b 1 % 2) (leAt b 4 4) (leAt b 8 8)
      (byteAt b 1 / 2 == 0 && zeroAt b 2 2 && zeroAt b 16 16))
  | 0x72, 32 => some (.actOffload (leAt b 0 8) (leAt b 8 8) (leAt b 16 4) (byteAt b 20) (zeroAt b 21 11))
  | 0x73, 32 => some (.actPrefetch (leAt b 0 8) (leAt b 8 8) (leAt b 16 4) (byteAt b 20) (zeroAt b 21 11))
  | _, _ => none

/-- The TRD_UPDATE payload. -/
def parseTrdUpdate (b : List Byte) : TrdUpdate :=
  { step := leAt b 0 4, sched := leAt b 4 2, epsMul := leAt b 6 2, ratioLo := word32 b 8, ratioHi := word32 b 12,
    nDesc := leAt b 16 4, nLayers := leAt b 20 4, tableVa := leAt b 24 8, normVa := leAt b 32 8, statsVa := leAt b 40 8,
    zeroThr := leAt b 48 4, rsvZero := zeroAt b 52 4, roundSeed := leAt b 56 8 }

/-- Payloads of class 0x8 (R483, R484). -/
def parseTrdCmd (op : Nat) (b : List Byte) : Option Payload :=
  match op, b.length with
  | 0x80, 48 =>
    some (.trdNorm (leAt b 0 4) (byteAt b 4 % 2) (leAt b 8 2) (word32 b 12) (leAt b 16 4) (leAt b 24 8) (leAt b 32 8)
      (byteAt b 4 / 2 == 0 && zeroAt b 5 3 && zeroAt b 10 2 && zeroAt b 20 4 && zeroAt b 40 8))
  | 0x81, 64 => some (.trdUpdate (parseTrdUpdate b))
  | 0x82, 96 =>
    some (.trdVerify (parseTrdUpdate b) (byteAt b 64) (leAt b 68 4) (leAt b 72 8) (zeroAt b 65 3 && zeroAt b 80 16))
  | 0x83, 96 =>
    some (.root (parseDesc b 0) (parseDesc b 32) (leAt b 64 8) (leAt b 72 2) (byteAt b 74) (byteAt b 75) (word32 b 76)
      (word32 b 80) (zeroAt b 84 12))
  | _, _ => none

/-- Payloads of class 0x9 (R523 to R526). -/
def parseSnapCmd (op : Nat) (b : List Byte) : Option Payload :=
  match op, b.length with
  | 0x90, 64 =>
    match byteAt b 0 with
    | 0 =>
      some (.snapStore (byteAt b 1) (leAt b 4 2) (leAt b 6 2) (byteAt b 28) (leAt b 32 8) (leAt b 40 4) (leAt b 44 4)
        (zeroAt b 2 2 && zeroAt b 8 20 && zeroAt b 29 3 && zeroAt b 48 16))
    | 1 =>
      some (.snapConfig
        { store0 := byteAt b 1, store1 := byteAt b 2, sealedRegion := byteAt b 3, buddy0 := leAt b 4 2, buddy1 := leAt b 6 2,
          jobId := leAt b 8 8, tableVa := leAt b 16 8, nRegions := leAt b 24 2, group := leAt b 26 2,
          rsvZero := zeroAt b 28 36 })
    | _ => none
  | 0x90, 16 => if byteAt b 0 = 2 then some (.snapTake (leAt b 8 8) (zeroAt b 1 7)) else none
  | 0x91, 48 =>
    match byteAt b 0 with
    | 0 =>
      some (.restoreState (byteAt b 1) (leAt b 2 2) (leAt b 4 2) (leAt b 8 8) (leAt b 16 8) (leAt b 24 4) (leAt b 32 8)
        (zeroAt b 6 2 && zeroAt b 28 4 && zeroAt b 40 8))
    | 1 =>
      some (.restoreLog (byteAt b 1) (leAt b 2 2) (leAt b 4 2) (leAt b 16 8)
        (zeroAt b 6 2 && zeroAt b 8 8 && zeroAt b 24 24))
    | _ => none
  | 0x92, 16 =>
    match byteAt b 0 with
    | 0 =>
      some (.stepVote (byteAt b 1) (byteAt b 2 % 4) (leAt b 4 4) (leAt b 8 2) (leAt b 12 4)
        (byteAt b 2 / 4 == 0 && zeroAt b 3 1 && zeroAt b 10 2))
    | 1 =>
      some (.stepQuery (byteAt b 1) (leAt b 4 4) (leAt b 8 2) (leAt b 12 4)
        (byteAt b 2 / 4 == 0 && zeroAt b 3 1 && zeroAt b 10 2))
    | _ => none
  | 0x93, 32 =>
    match byteAt b 0 with
    | 0 =>
      some (.logConfig (leAt b 8 8) (leAt b 16 8) (leAt b 24 2) (leAt b 26 2) (zeroAt b 1 7 && zeroAt b 28 4))
    | 1 => some (.logMark (leAt b 4 4) (leAt b 8 8) (slice b 16 16) (zeroAt b 1 3))
    | _ => none
  | 0x94, 16 =>
    match byteAt b 0 with
    | 0 => some (.spareBegin (byteAt b 1) (leAt b 2 2) (leAt b 8 8) (zeroAt b 4 4))
    | 1 => some (.spareEnd (byteAt b 1) (leAt b 2 2) (zeroAt b 4 12))
    | 2 => some (.spareAbandon (byteAt b 1) (leAt b 2 2) (zeroAt b 4 12))
    | _ => none
  | _, _ => none

/-- Payloads of class 0xA (R602). -/
def parseLinkCmd (op : Nat) (b : List Byte) : Option Payload :=
  match op with
  | 0xA0 =>
    let n := leAt b 0 2
    if 1 ≤ n ∧ n ≤ 63 ∧ b.length = 16 + 16 * n then
      some (.routeSet ((List.range n).map (fun i => (leAt b (16 + 16 * i) 2, leAt b (18 + 16 * i) 2, leAt b (20 + 16 * i) 2)))
        (zeroAt b 2 14 && (List.range n).all (fun i => zeroAt b (22 + 16 * i) 10)))
    else none
  | 0xA1 =>
    if b.length = 32 then
      match byteAt b 0 with
      | 0 => some (.groupDeclare (leAt b 2 2) (leAt b 4 2) (leAt b 8 8) (zeroAt b 1 1 && zeroAt b 6 2 && zeroAt b 16 16))
      | 1 => some (.groupRemove (leAt b 2 2) (zeroAt b 1 1 && zeroAt b 4 28))
      | _ => none
    else none
  | 0xA2 =>
    if b.length = 64 then
      some (.linkWrite (leAt b 0 2) (leAt b 2 2) (leAt b 4 4) (leAt b 8 8) (parseDesc b 32) (zeroAt b 16 16))
    else none
  | 0xA3 =>
    if b.length = 96 then
      some (.chainReduce (leAt b 0 2) (byteAt b 2) (byteAt b 3) (leAt b 4 4) (leAt b 8 4) (byteAt b 12) (leAt b 16 8)
        (leAt b 24 8) (byteAt b 32) (leAt b 40 8) (zeroAt b 13 3 && zeroAt b 33 7 && zeroAt b 48 48))
    else none
  | 0xA4 =>
    if b.length = 32 then
      some (.linkSignal (leAt b 0 2) (leAt b 2 2) (byteAt b 4) (leAt b 8 8) (zeroAt b 5 3 && zeroAt b 16 16))
    else none
  | _ => none

/-- Payloads of class 0xB (chapters 15 and 16). -/
def parseLampCmd (op : Nat) (b : List Byte) : Option Payload :=
  match op, b.length with
  | 0xB0, 64 =>
    match byteAt b 0 with
    | 0 => some (.attestReport (leAt b 2 2) (leAt b 8 8) (slice b 16 32) (zeroAt b 4 4 && zeroAt b 48 16))
    | 1 => some (.attestExtend (byteAt b 1) (leAt b 8 8) (slice b 16 32) (zeroAt b 4 4 && zeroAt b 48 16))
    | _ => none
  | 0xB1, 16 => some (.devrecRead (byteAt b 0) (leAt b 8 8) (zeroAt b 1 7))
  | 0xB2, 16 => some (.devrecInstall (leAt b 0 4) (leAt b 8 8) (zeroAt b 4 4))
  | 0xB3, 16 => some (.telemetry (leAt b 8 8) (zeroAt b 0 8))
  | 0xB4, 16 => some (.errqRead (byteAt b 0) (byteAt b 1) (leAt b 2 2) (leAt b 8 8) (zeroAt b 4 4))
  | 0xB5, 16 => some (.powerCap (leAt b 0 4) (byteAt b 4 % 2) (byteAt b 4 / 2 == 0 && zeroAt b 5 11))
  | _, _ => none

/-- R276: the payload of an opcode. -/
def parsePayload (op : Nat) (b : List Byte) : Option Payload :=
  match op / 16 with
  | 0x0 => parseQueueCmd op b
  | 0x1 => parsePartCmd op b
  | 0x2 => parseArrCmd op b
  | 0x3 => parseMemCmd op b
  | 0x4 => parseVecCmd op b
  | 0x5 => parseWickCmd op b
  | 0x6 => parseReqCmd op b
  | 0x7 => parseStepCmd op b
  | 0x8 => parseTrdCmd op b
  | 0x9 => parseSnapCmd op b
  | 0xA => parseLinkCmd op b
  | 0xB => parseLampCmd op b
  | _ => none

/-- R276: the opcodes that the device accepts. -/
def isOpcode (op : Nat) : Bool :=
  decide (op ≤ 0x04) || (decide (0x10 ≤ op) && decide (op ≤ 0x16)) || (decide (0x20 ≤ op) && decide (op ≤ 0x25)) ||
    (decide (0x30 ≤ op) && decide (op ≤ 0x35)) || op == 0x40 || op == 0x41 || (decide (0x50 ≤ op) && decide (op ≤ 0x53)) ||
    (decide (0x60 ≤ op) && decide (op ≤ 0x64)) || op == 0x68 || (decide (0x70 ≤ op) && decide (op ≤ 0x73)) ||
    (decide (0x80 ≤ op) && decide (op ≤ 0x83)) || (decide (0x90 ≤ op) && decide (op ≤ 0x94)) ||
    (decide (0xA0 ≤ op) && decide (op ≤ 0xA4)) || (decide (0xB0 ≤ op) && decide (op ≤ 0xB5))

/-- The queues that may hold an opcode (R276). -/
inductive QueueRight where
  | any | operator | partition | operatorOrSame
  deriving DecidableEq, Repr

def rightOf (op : Nat) : QueueRight :=
  if op ≤ 0x01 then .any
  else if op = 0x04 then .operatorOrSame
  else if op < 0x20 ∨ op = 0x35 ∨ op = 0x64 ∨ op = 0x82 ∨ op = 0x94 ∨ op = 0xA0 ∨ 0xB0 ≤ op then .operator
  else .partition

end Sys2Proof.Machine
end

