-- ==== Sys2Proof/Machine/Ops.lean ====
section
/-! DEFINITION. The named operations over the block's tables, its memory and its commands: lookup and update, address
translation, reads and held writes of a running command, and how a run ends. -/

namespace Sys2Proof.Machine

/-! ### Status codes (R278) -/

def stOk : Nat := 0x0000
def stLongSum : Nat := 0x0001
def stSkipped : Nat := 0x0002
def stLatePeer : Nat := 0x0003
def stBadHeader : Nat := 0x0100
def stBadOpcode : Nat := 0x0101
def stBadParam : Nat := 0x0102
def stPrivilege : Nat := 0x0103
def stQuota : Nat := 0x0104
def stInUse : Nat := 0x0105
def stBudget : Nat := 0x0106
def stXlateFault : Nat := 0x0200
def stSealedAccess : Nat := 0x0201
def stUncorrectable : Nat := 0x0202
def stTqEmpty : Nat := 0x0203
def stWaitTimeout : Nat := 0x0204
def stLinkDown : Nat := 0x0205
def stPeerLost : Nat := 0x0206
def stRngSkew : Nat := 0x0207
def stBadManifest : Nat := 0x0208
def stStepReverted : Nat := 0x0209
def stNoConverge : Nat := 0x020A
def stVerifyMismatch : Nat := 0x020B
def stBadSignature : Nat := 0x020C
def stUnavailable : Nat := 0x020D
def stKilled : Nat := 0x0300
def stChainAbort : Nat := 0x0301
def stFlushed : Nat := 0x0302
def stPartitionReset : Nat := 0x0303
def stExpired : Nat := 0x0400

/-- R278: a status of a command that committed. -/
def commits (status : Nat) : Bool := status / 256 == 0

/-! ### Tables -/

def Dev.queue (d : Dev) (q : Nat) : Queue := tget Queue.off d.qs.q q
def Dev.setQueue (d : Dev) (q : Nat) (v : Queue) : Dev := { d with qs := { d.qs with q := tput Queue.off d.qs.q q v } }
def Dev.modQueue (d : Dev) (q : Nat) (f : Queue → Queue) : Dev := d.setQueue q (f (d.queue q))
/-- R241: whether a queue exists. A doorbell for one that does not is counted in its entry all the same (R249). -/
def Queue.exists (k : Queue) : Bool := k.state != .disabled || !k.entries.isEmpty
def Dev.hasQueue (d : Dev) (q : Nat) : Bool := (d.queue q).exists
def Dev.part (d : Dev) (p : Nat) : Partition := tget Partition.off d.parts.p p
def Dev.setPart (d : Dev) (p : Nat) (v : Partition) : Dev :=
  { d with parts := { d.parts with p := tput Partition.off d.parts.p p v } }
def Dev.modPart (d : Dev) (p : Nat) (f : Partition → Partition) : Dev := d.setPart p (f (d.part p))
def Dev.spin (d : Dev) (s : Nat) : Spindle := tget Spindle.reset d.sp s
def Dev.setSpin (d : Dev) (s : Nat) (v : Spindle) : Dev := { d with sp := tput Spindle.reset d.sp s v }
def Dev.modSpin (d : Dev) (s : Nat) (f : Spindle → Spindle) : Dev := d.setSpin s (f (d.spin s))
def Dev.half (d : Dev) (s h : Nat) : HalfTile := tget HalfTile.empty (d.spin s).acc h
def Dev.modMem (d : Dev) (f : Mem → Mem) : Dev := { d with mem := f d.mem }

/-- The other half-tile of a tile. -/
def twinOf (h : Nat) : Nat := if h % 2 = 0 then h + 1 else h - 1

/-- Whether a half-tile's tile holds half-tiles, not one FP32 image (R663). -/
def inHalves (t : Tbl HalfTile) (h : Nat) : Bool := (tget HalfTile.empty t h).fp16 || (tget HalfTile.empty t (twinOf h)).fp16

/-- R663: an image written into a half-tile. FP16 data written into a tile that holds an FP32 image leaves the other half
unused; FP32 data, which stands in the even half, takes the whole tile. -/
def putHalf (t : Tbl HalfTile) (h : Nat) (v : HalfTile) : Tbl HalfTile :=
  let keep := v.fp16 && inHalves t h
  let t := tput HalfTile.empty t h v
  if keep then t else tput HalfTile.empty t (twinOf h) HalfTile.empty

/-- The next use of a free value, and the block after it. -/
def Dev.useFree (d : Dev) : Nat × Dev := (d.free, { d with free := d.free + 1 })

/-- R255: token t of set p (14 is the operator set). -/
def Dev.token (d : Dev) (set t : Nat) : Nat := tget 0 d.qs.tokens (64 * set + t)
def Dev.setToken (d : Dev) (set t v : Nat) : Dev := { d with qs := { d.qs with tokens := tput 0 d.qs.tokens (64 * set + t) v } }

/-- R256: a signal raises a token to a value, never lowers it; tokens are 64-bit counters. -/
def Dev.signal (d : Dev) (set t v : Nat) : Dev :=
  if t < 64 then d.setToken set t (max (d.token set t) (v % 2 ^ 64)) else d

def Queue.entry (q : Queue) (seq : Nat) : Option Entry := q.entries.find? (fun e => e.hdr.seq == seq)
def Queue.modEntry (q : Queue) (seq : Nat) (f : Entry → Entry) : Queue :=
  { q with entries := q.entries.map (fun e => if e.hdr.seq == seq then f e else e) }
def Dev.entry (d : Dev) (c : CmdRef) : Option Entry := (d.queue c.queue).entry c.seq
def Dev.modEntry (d : Dev) (c : CmdRef) (f : Entry → Entry) : Dev := d.modQueue c.queue (fun q => q.modEntry c.seq f)
def Dev.setPhase (d : Dev) (c : CmdRef) (p : Phase) : Dev := d.modEntry c (fun e => { e with phase := p })

def Queue.mapEntries (q : Queue) (f : Entry → Entry) : Queue := { q with entries := q.entries.map f }
def Dev.mapEntries (d : Dev) (f : Entry → Entry) : Dev :=
  { d with qs := { d.qs with q := d.qs.q.map (fun kv => (kv.1, kv.2.mapEntries f)) } }

/-- Every packet that the device has read and not yet recorded, with its queue. -/
def Dev.live (d : Dev) : List (Nat × Entry) := d.qs.q.flatMap (fun kv => kv.2.entries.map (fun e => (kv.1, e)))

def Entry.ref (e : Entry) : CmdRef := ⟨e.hdr.queue, e.hdr.seq⟩

/-- Dispatched and without an outcome: the command holds or waits for an engine. -/
def Entry.inFlight (e : Entry) : Bool :=
  match e.phase with
  | .waiting => false
  | .done _ => false
  | _ => true

/-- A command that has begun its work: it runs, or waits for its commit point. -/
def Entry.begun (e : Entry) : Bool :=
  match e.phase with
  | .running _ => true
  | .ran _ => true
  | _ => false

def Entry.isRan (e : Entry) : Bool :=
  match e.phase with
  | .ran _ => true
  | _ => false

def Entry.isDone (e : Entry) : Bool :=
  match e.phase with
  | .done _ => true
  | _ => false

def Entry.isWaiting (e : Entry) : Bool := decide (e.phase = .waiting)

/-- R233: the logical Spindle of a command's unit field; rank 0 for the commands that run on rank 0. -/
def Dev.spindleOf (d : Dev) (e : Entry) : Nat := ((d.part e.hdr.part).spindles)[e.hdr.unit]?.getD 0

/-! ### Islands and shared engines (R276, R422, R540) -/

/-- The island in which an opcode's cycles are counted (R276). -/
inductive Island where
  | spindle | skein | iod | lamplighter
  deriving DecidableEq, Repr

def islandOf (op : Nat) : Island :=
  if op < 0x10 then .skein
  else if op < 0x13 then .lamplighter
  else if op = 0x16 then .lamplighter
  else if op < 0x20 then .skein
  else if op = 0x35 then .skein
  else if op = 0x64 then .skein
  else if op < 0x70 then .spindle
  else if op < 0x72 then .iod
  else if op < 0x80 then .spindle
  else if op = 0x82 then .lamplighter
  else if op = 0x83 then .spindle
  else if op < 0xB0 then .iod
  else .lamplighter

/-! ### The device-physical map (R36, R37, R150, R151) -/

def pageBytes : Nat := 2097152
def ddrBase : Nat := 0x0010000000000
def skeinBase : Nat := 0xF000000000000

def paOf : Tier → Nat → Nat
  | .hbm, p => p * pageBytes
  | .ddr, p => ddrBase + p * pageBytes
  | .skein, p => skeinBase + p * pageBytes

/-- The tier and the page number of a device-physical address; none where the map is reserved. -/
def tierOf (pa : Nat) : Option (Tier × Nat) :=
  if pa < 0x0010000000000 then some (.hbm, pa / pageBytes)
  else if pa < 0x0090000000000 then some (.ddr, (pa - ddrBase) / pageBytes)
  else if skeinBase ≤ pa ∧ pa < 0xF000040000000 then some (.skein, (pa - skeinBase) / pageBytes)
  else none

def Mem.populatedPages (m : Mem) : Tier → Nat
  | .hbm => m.hbmPages
  | .ddr => m.ddrPages
  | .skein => 384

/-- R38. -/
def Mem.populated (m : Mem) (pa : Nat) : Bool :=
  match tierOf pa with
  | some (t, p) => decide (p < m.populatedPages t)
  | none => false

def Mem.uses (m : Mem) : Tier → Tbl PageUse
  | .hbm => m.hbm
  | .ddr => m.ddr
  | .skein => m.skein

def Mem.use (m : Mem) (t : Tier) (p : Nat) : PageUse := tget .free (m.uses t) p

def Mem.setUse (m : Mem) (t : Tier) (p : Nat) (u : PageUse) : Mem :=
  match t with
  | .hbm => { m with hbm := tput .free m.hbm p u }
  | .ddr => { m with ddr := tput .free m.ddr p u }
  | .skein => { m with skein := tput .free m.skein p u }

/-- R153: the first page that may be mapped. -/
def firstPage : Tier → Nat
  | .skein => 8
  | .hbm => 512
  | .ddr => 0

/-- The number of free pages of a tier. -/
def Mem.freeCount (m : Mem) (t : Tier) : Nat :=
  m.populatedPages t - firstPage t - (m.uses t).length

/-- The lowest free pages of a tier, at most n of them, among those that a test accepts. -/
def Mem.freePages (m : Mem) (t : Tier) (ok : Nat → Bool) (n : Nat) : List Nat :=
  lowestMany (fun p => ok p && decide (m.use t p = .free)) (firstPage t) (m.populatedPages t - firstPage t) n

/-- R140: the bank of a Skein address. -/
def skeinBank (pa : Nat) : Nat :=
  let x := pa % 2 ^ 30
  (x / 2 ^ 6 ^^^ x / 2 ^ 12 ^^^ x / 2 ^ 18 ^^^ x / 2 ^ 24) % 64

/-- R150: the stack of an HBM address. -/
def hbmStackOf (pa : Nat) : Nat :=
  (pa / 2 ^ 11 ^^^ pa / 2 ^ 15 ^^^ pa / 2 ^ 19 ^^^ pa / 2 ^ 23 ^^^ pa / 2 ^ 27 ^^^ pa / 2 ^ 31 ^^^ pa / 2 ^ 35) % 16
    ^^^ bits pa 39 39

/-- R150: the channel of an HBM address on its stack, and the stack-local address. -/
def hbmChannelOf (pa : Nat) : Nat := bits pa 10 6
def hbmLocalOf (pa : Nat) : Nat := bits pa 39 15 * 2048 + bits pa 10 0

/-- R151: the DDR5 channel of an address. -/
def ddrChannelOf (pa : Nat) : Nat :=
  let p := (pa - ddrBase) / pageBytes
  let g := bits pa 20 12
  (g + p / 2) % 6 + (if p % 2 = 0 then 0 else 6)

/-! ### Bytes -/

/-- The cells from an address on. -/
def dropBelow (a : Nat) : List Host.Cell → List Host.Cell
  | [] => []
  | (k, v) :: t => if k < a then dropBelow a t else (k, v) :: t

/-- The n bytes from an address on, of cells that begin at or above it. -/
def takeBytes : Nat → Nat → List Host.Cell → List Byte
  | 0, _, _ => []
  | n + 1, a, [] => 0 :: takeBytes n (a + 1) []
  | n + 1, a, (k, v) :: t =>
    if k = a then v :: takeBytes n (a + 1) t else 0 :: takeBytes n (a + 1) ((k, v) :: t)

/-- The n bytes at an address; a byte that no cell lists reads as zero. -/
def getBytes (m : List Host.Cell) (a n : Nat) : List Byte := takeBytes n a (dropBelow a m)

/-- The byte at an address. -/
def getByte (m : List Host.Cell) (a : Nat) : Byte := tget 0 m a

/-- The cells of a byte list laid at an address; zero bytes have none. -/
def cellsOf (a : Nat) : List Byte → List Host.Cell
  | [] => []
  | b :: t => if b = 0 then cellsOf (a + 1) t else (a, b) :: cellsOf (a + 1) t

/-- The cells outside a range, with new cells in it. -/
def splice (m : List Host.Cell) (a n : Nat) (c : List Host.Cell) : List Host.Cell :=
  m.filter (fun kv => decide (kv.1 < a)) ++ c ++ m.filter (fun kv => decide (a + n ≤ kv.1))

/-- Memory with bytes stored at an address. -/
def putBytes (m : List Host.Cell) (a : Nat) (bs : List Byte) : List Host.Cell := splice m a bs.length (cellsOf a bs)

/-- The cells of a range, as offsets in it. -/
def getCells (m : List Host.Cell) (a n : Nat) : List Host.Cell :=
  ((m.filter (fun kv => decide (a ≤ kv.1))).filter (fun kv => decide (kv.1 < a + n))).map (fun kv => (kv.1 - a, kv.2))

/-- Cells in canonical form below a bound: offsets rising, no zero byte. -/
def cellsWf (n : Nat) (c : List Host.Cell) : Bool := tblWf 0 c && c.all (fun kv => decide (kv.1 < n))

/-- Memory with a range replaced by a block of cells. -/
def putCells (m : List Host.Cell) (a n : Nat) (c : List Host.Cell) : List Host.Cell :=
  if cellsWf n c then splice m a n (c.map (fun kv => (a + kv.1, kv.2))) else m

/-- The canonical form of the two byte memories. -/
abbrev Mem.wf (m : Mem) : Prop := tblWf (0 : Byte) m.bytes = true ∧ tblWf (0 : Byte) m.host = true

/-! ### Errors in memory (R145, R180, R268, R664) -/

/-- A corrected error counted in its tier (R664) and its sector written back. -/
def Mem.correct (m : Mem) (sector : Nat) : Mem :=
  if sector ∈ m.ces then
    let m := { m with ces := m.ces.filter (· ≠ sector) }
    match tierOf (64 * sector) with
    | some (.skein, _) => { m with ceCount := min 0xFFFF (m.ceCount + 1) }
    | some (.hbm, _) =>
      { m with hbmStacks := tmod HbmStack.reset m.hbmStacks (hbmStackOf (64 * sector))
                 (fun s => { s with ce := min 0xFFFF (s.ce + 1) }) }
    | _ => m
  else m

/-- R145, R180: what an uncorrectable error in a sector latches. -/
def Mem.noteUe (m : Mem) (pa : Nat) : Mem :=
  match tierOf pa with
  | some (.skein, _) => { m with ueFlag := true, ueBank := skeinBank pa }
  | some (.hbm, p) =>
    match m.use .hbm p with
    | .sealed r => { m with regions := match tfind m.regions r with
        | some g => tins m.regions r { g with damaged := true }
        | none => m.regions }
    | _ => m
  | _ => m

/-- R624: the unit that holds a device-physical address. -/
def memUnit (pa : Nat) : UnitId :=
  match tierOf pa with
  | some (.hbm, _) => ⟨3, hbmStackOf pa⟩
  | some (.ddr, _) => ⟨4, ddrChannelOf pa⟩
  | _ => ⟨1, 0⟩

/-- R189: new KV frames of a partition. -/
def Partition.addFrames (p : Partition) (frames : List Nat) : Partition :=
  { p with kvFrames := p.kvFrames ++ frames.filter (fun f => !p.kvFrames.contains f) }

/-- R179: the zeroing of a region begins. -/
def Mem.startZero (m : Mem) (r : Nat) : Mem :=
  match tfind m.regions r with
  | some g => { m with regions := tins m.regions r { g with zeroing := true } }
  | none => m

/-- R334, R343: an entry as admission leaves it. -/
def Request.admitted (part : Nat) (a : Admission) : Request :=
  { state := 1, part := part, inPeriod := false, period := 0, promptDone := false, adm := a, draftCtl := 0, zeroRun := 0,
    probeCtr := 0, committed := 0, tentative := 0, nextToken := 0, held := [], emitted := 0, countUsed := 0, streamSeq := 0,
    reserveLeft := a.maxLen, accepted := 0, cons := 0, consRead := 0, periodSeq := 0, overdrawn := false, pages := [] }

/-! ### Request entries (R331, R334, R377) -/

def Dev.request (d : Dev) (id : Nat) : Option Request := tfind d.reqs.r id
def Dev.genOf (d : Dev) (id : Nat) : Nat := tget 0 d.reqs.gens id

/-- R153, R331: the entries lie in reserved Skein page 1, that of a request at 128 × its id. -/
def entriesPa : Nat := skeinBase + pageBytes
def entryPa (id : Nat) : Nat := entriesPa + 128 * id
def inEntries (pa : Nat) : Bool := decide (entriesPa ≤ pa) && decide (pa < entriesPa + pageBytes)

/-- The 24 bytes of the sampler fields (R377). -/
def Request.samplerImage (r : Request) : List Byte :=
  leBytes 4 r.adm.temperature.toNat ++ leBytes 2 r.adm.topK ++ leBytes 2 r.countUsed ++ leBytes 4 r.adm.topP.toNat ++
    leBytes 4 r.adm.rep.toNat ++ leBytes 4 r.adm.freq.toNat ++ leBytes 4 r.adm.presence.toNat

/-- The 128 bytes of an entry (R334). -/
def Request.image (r : Request) (gen : Nat) : List Byte :=
  let a := r.adm
  leBytes 1 (r.state + setBit r.inPeriod 4 + 32 * r.period + setBit r.promptDone 7) ++ leBytes 1 r.part ++ leBytes 2 a.tenant ++
    leBytes 1 a.priority ++ leBytes 1 r.draftCtl ++ leBytes 1 r.zeroRun ++ leBytes 1 r.probeCtr ++ leBytes 4 r.committed ++
    leBytes 4 r.tentative ++ leBytes 4 a.promptLen ++ leBytes 4 a.maxLen ++ leBytes 4 r.nextToken ++ leBytes 4 a.eosId ++
    leBytes 8 a.deadline ++ leBytes 8 a.pageListVa ++ leBytes 2 a.kvStreams ++ leBytes 2 a.ppp ++ leBytes 2 a.slotBytes ++
    leBytes 2 r.held.length ++ leBytes 4 gen ++ leBytes 4 r.emitted ++ leBytes 8 a.seed ++ r.samplerImage ++
    leBytes 8 a.countsVa ++ leBytes 8 a.ringIova ++ leBytes 4 r.streamSeq ++ leBytes 1 a.ringLog2 ++ zeros 3 ++
    leBytes 4 r.reserveLeft ++ leBytes 4 r.accepted

/-- The bytes of the entry of a request; a FREE one keeps its generation only (log entry 80). -/
def Dev.entryImage (d : Dev) (id : Nat) : List Byte :=
  match d.request id with
  | some r => r.image (d.genOf id)
  | none => zeros 56 ++ leBytes 4 (d.genOf id) ++ zeros 68

/-- What an access outside any command reads at a device-physical address. -/
def Dev.memBytes (d : Dev) (pa n : Nat) : List Byte :=
  if inEntries pa then ((d.entryImage ((pa - entriesPa) / 128)).drop ((pa - entriesPa) % 128)).take n
  else getBytes d.mem.bytes pa n

/-! ### A running command -/

/-- R163, R193: what the SKN_FAULT registers of a partition latch: the partition whose addresses were used, the address, the
REASON and the SOURCE. -/
structure FaultInfo where
  part : Nat
  va : Nat
  reason : Nat
  source : Nat
  deriving DecidableEq, Repr

/-- Why a run fails: its status, what SKN_FAULT latches, the address of an uncorrectable error. -/
structure Fail where
  status : Nat
  latch : Option FaultInfo
  ue : Option Nat
  deriving DecidableEq, Repr

/-- What a run reads and what it has made so far; effects newest first. -/
structure Ctx where
  dev : Dev
  cmd : CmdRef
  entry : Entry
  eff : List Effect
  ces : List Nat
  inf : Bool
  nan : Bool
  perm : Bool
  deriving DecidableEq, Repr

/-- A run of a command: it reads the block as it stands and holds what it makes. -/
abbrev Run := EStateM Fail Ctx

def failWith {α : Type} (status : Nat) : Run α := throw ⟨status, none, none⟩
def require (ok : Bool) (status : Nat) : Run Unit := if ok then pure () else failWith status
def hold (e : Effect) : Run Unit := modify (fun c => { c with eff := e :: c.eff })
def holdAll (es : List Effect) : Run Unit := modify (fun c => { c with eff := es.reverse ++ c.eff })
def noteVals (vs : List FVal) : Run Unit :=
  modify (fun c => { c with inf := c.inf || vs.any FVal.isInf, nan := c.nan || vs.any FVal.isNan })
def getDev : Run Dev := do return (← get).dev

/-- The bytes of a range after the run's own held writes (R264). -/
def overlay (eff : List Effect) (pa : Nat) (bs : List Byte) : List Byte :=
  eff.foldr (fun e bs =>
    match e with
    | .mem a data =>
      if a < pa + bs.length ∧ pa < a + data.length then
        (List.range bs.length).zipWith (fun i b => if a ≤ pa + i ∧ pa + i < a + data.length then data.getD (pa + i - a) b else b) bs
      else bs
    | .block a len cells =>
      if a < pa + bs.length ∧ pa < a + len then
        (List.range bs.length).zipWith (fun i b => if a ≤ pa + i ∧ pa + i < a + len then tget 0 cells (pa + i - a) else b) bs
      else bs
    | _ => bs) bs

/-- Whether the run's own writes cover a whole sector. -/
def ownSector (eff : List Effect) (sector : Nat) : Bool :=
  eff.any (fun e =>
    match e with
    | .mem a data => decide (a ≤ 64 * sector) && decide (64 * sector + 64 ≤ a + data.length)
    | .block a len _ => decide (a ≤ 64 * sector) && decide (64 * sector + 64 ≤ a + len)
    | _ => false)

/-- Reads device-physical memory: an uncorrectable sector fails the command, a correctable one is counted (R145). -/
def readPhys (pa n : Nat) : Run (List Byte) := do
  let c ← get
  let inRange (s : Nat) : Bool := decide (pa < 64 * s + 64) && decide (64 * s < pa + n) && !ownSector c.eff s
  match c.dev.mem.ue.find? inRange with
  | some s => throw ⟨stUncorrectable, none, some (64 * s)⟩
  | none => do
    set { c with ces := c.ces ++ c.dev.mem.ces.filter inRange }
    return overlay c.eff pa (getBytes c.dev.mem.bytes pa n)

/-- What an access of a command may reach: its SOURCE code (R193), whether it writes, whether a sealed page may be read
(R128, R172), whether a Wick page may be touched (R298), whether a KV page may be. -/
structure Access where
  source : Nat
  write : Bool
  sealedOk : Bool
  wickOk : Bool
  kvOk : Bool
  deriving DecidableEq, Repr

/-- The page-table entry of a virtual address and the physical address it gives (R158). -/
def Partition.lookup (p : Partition) (va : Nat) : Option (Pte × Nat) :=
  match tfind p.pt (va / 65536) with
  | some e =>
    if e.kind = .kv then some (e, e.pa + va % 65536) else some (e, e.pa + va % pageBytes)
  | none =>
    match tfind p.pt (va / pageBytes * 32) with
    | some e => if e.kind = .kv then none else some (e, e.pa + va % pageBytes)
    | none => none

/-- R171: the seal map, whatever a page-table entry says. -/
def Mem.isSealed (m : Mem) (pa : Nat) : Bool :=
  match tierOf pa with
  | some (t, n) => (match m.use t n with
    | .sealed _ => true
    | _ => false)
  | none => false

/-- R38, R158, R163, R171 to R174, R298: translation of one address for an access. -/
def Dev.translate (d : Dev) (a : Access) (part va : Nat) : Except Fail (Pte × Nat) :=
  match if va < 2 ^ 48 then (d.part part).lookup va else none with
  | none => .error ⟨stXlateFault, some ⟨part, va, 0, a.source⟩, none⟩
  | some (e, pa) =>
    if !d.mem.populated pa then .error ⟨stXlateFault, some ⟨part, va, 1, a.source⟩, none⟩
    else
      let isSealed := d.mem.isSealed pa
      if isSealed && a.write then .error ⟨stSealedAccess, some ⟨part, va, 3, a.source⟩, none⟩
      else if isSealed && !a.sealedOk then .error ⟨stSealedAccess, some ⟨part, va, 2, a.source⟩, none⟩
      else if e.kind = .wick && !a.wickOk then .error ⟨stBadParam, none, none⟩
      else if e.kind = .kv && !a.kvOk then .error ⟨stBadParam, none, none⟩
      else .ok (e, pa)

/-- A virtual range cut at 64 KiB boundaries. -/
def pieces : Nat → Nat → Nat → List (Nat × Nat)
  | 0, _, _ => []
  | f + 1, va, n =>
    if n = 0 then []
    else
      let k := min n (65536 - va % 65536)
      (va, k) :: pieces f (va + k) (n - k)

def piecesOf (va n : Nat) : List (Nat × Nat) := pieces (n / 65536 + 2) va n

/-- Translation inside a run. -/
def xlate (a : Access) (part va : Nat) : Run Nat := do
  match (← getDev).translate a part va with
  | .ok r => return r.2
  | .error f => throw f

/-- Reads n bytes of a partition's memory. -/
def readIn (a : Access) (part va n : Nat) : Run (List Byte) := do
  let parts ← (piecesOf va n).mapM (fun p => do readPhys (← xlate a part p.1) p.2)
  return parts.flatten

/-- Holds a write of bytes to a partition's memory. -/
def writeIn (a : Access) (part va : Nat) (data : List Byte) : Run Unit := do
  let _ ← (piecesOf va data.length).foldlM (fun (bs : List Byte) p => do
    let pa ← xlate { a with write := true } part p.1
    hold (.mem pa (bs.take p.2))
    return bs.drop p.2) data

/-- Reads of the issuing partition. -/
def readVa (a : Access) (va n : Nat) : Run (List Byte) := do readIn a (← get).entry.hdr.part va n
def writeVa (a : Access) (va : Nat) (data : List Byte) : Run Unit := do writeIn a (← get).entry.hdr.part va data

/-- Reads host memory through the host bridge, the run's own host writes seen; R601: no read while the host path is down. -/
def readHost (iova n : Nat) : Run (List Byte) := do
  let c ← get
  require c.dev.links.hostUp stLinkDown
  return c.eff.foldr (fun e bs =>
    match e with
    | .host a data =>
      (List.range bs.length).zipWith (fun i b => if a ≤ iova + i ∧ iova + i < a + data.length then data.getD (iova + i - a) b else b) bs
    | _ => bs) (getBytes c.dev.mem.host iova n)

/-- The accesses of the sources of R193. Source 0 is the array feeder, 1 an array drain, 2 the vector engine, 3 a data
mover, 4 a bridge port, 5 the host bridge, 6 the side-band. -/
def accFeeder : Access := ⟨0, false, true, true, true⟩
def accDrain : Access := ⟨1, true, false, false, true⟩
def accVector : Access := ⟨2, false, false, true, true⟩
def accMover : Access := ⟨3, false, false, false, true⟩
def accPlain : Access := ⟨3, false, false, false, false⟩
def accBridge : Access := ⟨4, false, false, false, false⟩

/-! ### The sectors that held effects write -/

/-- The device-physical ranges that held effects write. -/
def writeRanges (effects : List Effect) : List (Nat × Nat) :=
  effects.filterMap (fun x => match x with
    | .mem pa data => some (pa, data.length)
    | .block pa len _ => some (pa, len)
    | _ => none)

def inSpan (rs : List (Nat × Nat)) (a : Nat) : Bool := rs.any (fun r => decide (r.1 ≤ a) && decide (a < r.1 + r.2))

/-- Whether writes touch a sector, and whether together they cover it. -/
def touchesSector (rs : List (Nat × Nat)) (s : Nat) : Bool := (List.range 64).any (fun i => inSpan rs (64 * s + i))
def coversSector (rs : List (Nat × Nat)) (s : Nat) : Bool := (List.range 64).all (fun i => inSpan rs (64 * s + i))

/-- R268: a sector with an uncorrectable error that the command's writes cover only in part. -/
def Dev.partialUe (d : Dev) (effects : List Effect) : Option Nat :=
  let rs := writeRanges effects
  d.mem.ue.find? (fun s => touchesSector rs s && !coversSector rs s)

/-! ### How a run ends -/

/-- A result with a status and no effects. -/
def Result.failed (status cycles : Nat) (ce : Bool) : Result :=
  { status := status, c0 := 0, c1 := 0, c2 := 0, cycles := cycles, permRange := false, outNan := false, outInf := false,
    ce := ce, effects := [] }

/-- The counters that a run delivers, with its class-0 status. -/
structure Counts where
  status : Nat
  c0 : Nat
  c1 : Nat
  c2 : Nat
  deriving DecidableEq, Repr

def okCounts (c0 c1 c2 : Nat) : Counts := ⟨stOk, c0, c1, c2⟩

/-- R163, R193: the fault latch of a partition; a later fault is not latched until software clears it. -/
def Dev.latchFault (d : Dev) (seq : Nat) (l : FaultInfo) : Dev :=
  d.modPart l.part (fun p =>
    if p.fault.valid then p else { p with fault := ⟨true, l.va, l.reason, l.source, seq % 65536⟩ })

def Dev.modQAcct (d : Dev) (q : Nat) (f : Acct → Acct) : Dev :=
  { d with qs := { d.qs with qAcct := tmod Acct.zero d.qs.qAcct q f } }

/-- R543: one change of the accounting counters of a queue and of its partition. -/
def Dev.account (d : Dev) (q part : Nat) (f : Acct → Acct) : Dev :=
  let d := d.modQAcct q f
  if part < 14 then d.modPart part (fun p => { p with acct := f p.acct }) else d

/-- R543: the cycles of a run, kept 64 bits wide. -/
def Acct.addBusy (a : Acct) (i : Island) (n : Nat) : Acct :=
  match i with
  | .spindle => { a with busySpn := (a.busySpn + n) % 2 ^ 64 }
  | .iod => { a with busyIod := (a.busyIod + n) % 2 ^ 64 }
  | _ => a

def Acct.addLost (a : Acct) (n : Nat) : Acct := { a with lost := (a.lost + n) % 2 ^ 64 }

/-- The cycles of a run that ends now (R239, R543): a free value beyond the cycles that it is known to take, counted for its
owner. -/
def Dev.spend (d : Dev) (e : Entry) (least : Nat := 0) : Nat × Dev :=
  let (k, d) := d.useFree
  let n := least + Config.cycles k
  (n, d.account e.hdr.queue e.hdr.part (fun a => a.addBusy (islandOf e.hdr.opcode) n))

/-- R664: the corrected errors that a run met. -/
def Dev.correctAll (d : Dev) (sectors : List Nat) : Dev := d.modMem (fun m => sectors.foldl Mem.correct m)

/-- R269, R626: an error that a command met, for the Lamplighter to take. -/
def Dev.due (d : Dev) (e : ErrorInfo) : Dev := { d with errDue := d.errDue ++ [e] }

/-- R19: the island of a unit. -/
def unitIsland (u : UnitId) : Nat :=
  match u.cls with
  | 0 => u.idx
  | 1 => 14
  | 2 => 15
  | 3 => 18 + u.idx
  | 4 => 34 + u.idx
  | 5 => 46 + u.idx
  | 6 => 16
  | 7 => 16 + u.idx
  | 8 => 16 + u.idx
  | _ => 54

/-- R269: the error record of an uncorrectable error at an address. -/
def ueError (e : Entry) (pa : Nat) : ErrorInfo :=
  ⟨memUnit pa, unitIsland (memUnit pa), 0x01, e.hdr.part, e.hdr.queue, e.hdr.seq, pa⟩

/-- The cycles of the run that a command has in progress or has finished. -/
def Entry.runCycles (e : Entry) : Nat :=
  match e.phase with
  | .ran r => r.cycles
  | .running (.vec _ r) => r.cycles
  | .running (.stage _ r) => r.cycles
  | .running (.coll _ _ r) => r.cycles
  | _ => 0

/-- R240, R481: the result of a command that does not commit. Its counters read zero, but for TRD_VERIFY's: what its run counted, or
that no block has been checked. -/
def Entry.failure (e : Entry) (status cycles : Nat) : Result :=
  let r := Result.failed status cycles e.ce
  if e.hdr.opcode = 0x82 then
    match e.phase with
    | .ran v => { r with c0 := v.c0, c1 := v.c1, c2 := v.c2 }
    | _ => { r with c2 := 2 ^ 32 - 1 }
  else r

/-- R271: a command that a re-runnable kill stopped and that has not issued again. -/
def Entry.isHeld (e : Entry) : Bool := decide (e.phase = .rerun)

/-- R122: what a failure does to the other members of the command's chain. -/
def Dev.abortChain (d : Dev) (c : CmdRef) (chain : Option Nat) : Dev :=
  match chain with
  | none => d
  | some n =>
    d.mapEntries (fun e =>
      if e.chain == some n && e.ref != c && e.inFlight then
        { e with phase := .done (e.failure stChainAbort e.runCycles) }
      else e)

/-- R223, R272: what an ended command gives up: its tile-queue takes. One vector command runs at a time on a Spindle, so the
takes are those of the command at work; one that is held for re-run, or waits to issue, has none. -/
def Dev.giveUp (d : Dev) (e : Entry) : Dev :=
  if !e.begun then d else
  match e.payload with
  | .vecRun _ => d.modSpin (d.spindleOf e) (fun s => { s with tq := s.tq.map (fun t => { t with taken := false }) })
  | _ => d

/-- The end of a command that fails: its record's status, its latch, its error record, its chain. -/
def Dev.failEntry (d : Dev) (c : CmdRef) (e : Entry) (f : Fail) (cycles : Nat) : Dev :=
  let d := (d.setPhase c (.done (e.failure f.status cycles))).giveUp e
  let d := match f.latch with
    | some l => d.latchFault e.hdr.seq l
    | none => d
  let d := match f.ue with
    | some pa => (d.modMem (fun m => m.noteUe pa)).due (ueError e pa)
    | none => d
  d.abortChain c e.chain

/-- What a run leaves that is no effect: its corrected errors, that it issued, and its cycles, `least` of them known. -/
def Dev.issuedRun (d : Dev) (c : CmdRef) (e : Entry) (x : Ctx) (least : Nat := 0) : Entry × Nat × Dev :=
  let e' := { e with ce := e.ce || !x.ces.isEmpty, issued := true }
  let (n, d) := (d.correctAll x.ces).spend e' least
  (e', n, d.modEntry c (fun e₀ => { e₀ with ce := e'.ce, issued := true }))

/-! ### What the array and the vector engine count of a run (R107, R138, R232) -/

/-- The opcodes of the array's products (R129 to R134); ARR_ACC does not use the array (R135). -/
def isProduct (op : Nat) : Bool := decide (0x20 ≤ op) && decide (op ≤ 0x24)

/-- R104, R110, R114: the rows that a product injects over its passes; each pass streams all of them. -/
def rowsOf (p : Payload) (passes : Nat) : Nat :=
  match p with
  | .arrMatmul p => p.m * passes
  | .arrStream p => p.m * passes
  | .arrConv _ _ g _ _ _ _ _ _ _ _ => g.mCount * passes
  | .arrShallow p => p.n * passes
  | .arrQuad _ mask _ blocks _ =>
    ((List.range 4).filter (bit mask)).foldl (fun n q =>
      match blocks[q]? with
      | some b => n + ceilDiv b.k 128 * b.m
      | none => n) 0
  | _ => 0

/-- R107, R138, R232: the counters of a Spindle after a run of a command of it: rows and frozen cycles of a product, cycles of
a vector command. -/
def Spindle.count (s : Spindle) (op rows frozen cycles : Nat) : Spindle :=
  if isProduct op then { s with rows := (s.rows + rows) % 2 ^ 64, freeze := (s.freeze + frozen) % 2 ^ 64, loaded := true }
  else if op / 16 = 4 then { s with vecBusy := (s.vecBusy + cycles) % 2 ^ 64 }
  else s

def Dev.countRun (d : Dev) (e : Entry) (rows frozen cycles : Nat) : Dev :=
  if isProduct e.hdr.opcode || e.hdr.opcode / 16 == 4 then d.modSpin (d.spindleOf e) (fun s => s.count e.hdr.opcode rows frozen cycles)
  else d

/-- R107: the frozen cycles of a product, which its record's count0 gives (R240), are among the cycles that it uses. -/
def Counts.frozen (k : Counts) (e : Entry) : Nat := if isProduct e.hdr.opcode then k.c0 else 0

/-- The result of a run that reached its end or a wait. -/
def runResult (k : Counts) (cycles : Nat) (ce : Bool) (x : Ctx) : Result :=
  { status := k.status, c0 := k.c0, c1 := k.c1, c2 := k.c2, cycles := cycles, permRange := x.perm, outNan := x.nan,
    outInf := x.inf, ce := ce, effects := x.eff.reverse }

/-- The end of a run that succeeds: its effects wait for the commit point. -/
def Dev.ranOk (d : Dev) (c : CmdRef) (e : Entry) (k : Counts) (x : Ctx) : Dev :=
  let (e', n, d) := d.issuedRun c e x (k.frozen e)
  (d.countRun e (rowsOf e.payload k.c1) (k.frozen e) n).setPhase c (.ran (runResult k n e'.ce x))

/-- The end of a run that fails. How many of its rows passed and how many cycles froze before the failure are free values. -/
def Dev.ranFail (d : Dev) (c : CmdRef) (e : Entry) (f : Fail) (x : Ctx) : Dev :=
  let (u, d) := d.useFree
  let frozen := if isProduct e.hdr.opcode then Config.waitCycles u else 0
  let (e', n, d) := d.issuedRun c e x frozen
  (d.countRun e (Config.freeWord u).toNat frozen n).failEntry c e' f n

/-! ### Reads beside another command's commit (R262, R263) -/

/-- Whether an address lies in a sector that the ranges touch. -/
def sectorTouched (rs : List (Nat × Nat)) (a : Nat) : Bool :=
  rs.any (fun r => decide (r.1 / 64 ≤ a / 64) && decide (a / 64 ≤ (r.1 + r.2 - 1) / 64) && decide (0 < r.2))

/-- The bytes before one commit, in the sectors that a command read before it. -/
def Stale.under (s : Stale) (since : Nat) (m : List Host.Cell) : List Host.Cell :=
  let before (a : Nat) : Bool := decide (since ≤ s.stamp) && sectorTouched s.ranges a && Config.readsOld since s.stamp (a / 64)
  (s.old.filter (fun c => before c.1)).foldl (fun m c => tins m c.1 c.2) (m.filter (fun c => !before c.1))

/-- R263: the memory that a command sees: of the commits since it issued, each sector before or after each. -/
def Dev.seenBy (d : Dev) (e : Entry) : Dev :=
  match d.mem.stale with
  | [] => d
  | l => { d with mem := { d.mem with bytes := l.foldr (fun s m => s.under e.since m) d.mem.bytes } }

/-- Whether a command may still read memory. -/
def Entry.reads (e : Entry) : Bool :=
  match e.phase with
  | .dispatched => true
  | .running _ => true
  | _ => false

/-- R263: what a commit writes over in some ranges is kept while a command that issued before it may still read; what no such command
can see goes. -/
def Dev.keepOld (d : Dev) (c : Option CmdRef) (rs : List (Nat × Nat)) : Dev :=
  let readers := (d.live.map (·.2)).filter (fun e => e.reads && some e.ref != c)
  let l := d.mem.stale.filter (fun s => readers.any (fun e => decide (e.since ≤ s.stamp)))
  if readers.isEmpty || rs.isEmpty then d.modMem (fun m => { m with stale := l })
  else
    let n := d.qs.nextOrder
    { d with qs := { d.qs with nextOrder := n + 1 }
             mem := { d.mem with stale := l ++ [⟨n, rs, d.mem.bytes.filter (fun b => sectorTouched rs b.1)⟩] } }

/-- A run that starts with nothing made. -/
def Ctx.start (d : Dev) (c : CmdRef) (e : Entry) : Ctx := ⟨d.seenBy e, c, e, [], [], false, false, false⟩

/-- A command that a check at its issue ends. -/
def Dev.refuse (d : Dev) (c : CmdRef) (e : Entry) (status : Nat) : Dev := d.ranFail c e ⟨status, none, none⟩ (.start d c e)

/-- Runs a command: it either holds its effects for its commit point, or fails. -/
def Dev.run (d : Dev) (c : CmdRef) (e : Entry) (m : Run Counts) : Dev :=
  match m (.start d c e) with
  | .ok k x => d.ranOk c e k x
  | .error f x => d.ranFail c e f x

/-- The logical Spindle that a packet's unit field names, where its partition has one. -/
def Dev.rankOf (d : Dev) (e : Entry) : Option Nat := (d.part e.hdr.part).spindles[e.hdr.unit]?

/-- R416: whether a command runs on a Spindle: an activation copy uses the data movers of its first w ranks. -/
def Dev.runsOnSpindle (d : Dev) (sp : Nat) (e : Entry) : Bool :=
  let movers (w : Nat) : Bool :=
    let all := (d.part e.hdr.part).spindles
    (if w = 0 then all else all.take w).contains sp
  match e.payload with
  | .actOffload _ _ _ w _ => movers w
  | .actPrefetch _ _ _ w _ => movers w
  | _ => d.rankOf e == some sp

/-- R479: whether a ROOT at work holds a Spindle of a command, which therefore stalls at its issue. -/
def Dev.rootHolds (d : Dev) (e : Entry) : Bool :=
  islandOf e.hdr.opcode == .spindle && d.live.any (fun x => x.2.hdr.opcode == 0x83 && x.2.ref != e.ref && x.2.begun &&
    (match d.rankOf x.2 with
      | some sp => d.runsOnSpindle sp e
      | none => false))

/-- A packet row runs a dispatched packet of its own kind that no ROOT holds back; on any other packet the event does not take
place. -/
def Dev.onPacket (d : Dev) (c : CmdRef) (f : Entry → Dev) : Dev :=
  match d.entry c with
  | some e => if e.phase = .dispatched then (if d.rootHolds e then d else f e) else d
  | none => d

end Sys2Proof.Machine
end

