-- ==== Sys2Proof/Machine/Msg.lean ====
section
/-! DEFINITION. Messages between devices (R577 to R581): routes, sending, acknowledgements; and the shape of the group
tree (R87, R90, R587). -/

namespace Sys2Proof

/-- R570: the virtual channel of a message. -/
def MsgBody.channel (b : MsgBody) : Nat :=
  match b with
  | .linkData _ _ _ _ _ => 0
  | .contrib _ _ _ _ _ => 0
  | .snapWrite _ _ _ _ => 0
  | .snapRead _ _ => 0
  | .snapData _ _ => 0
  | .logRead _ => 0
  | .logData _ _ _ => 0
  | .storeRead _ => 0
  | .storeData _ _ => 0
  | .logEntry _ _ _ _ => 0
  | .hostWrite _ _ => 0
  | .groupVal _ _ (.vote _ _) _ _ _ => 2
  | .groupVal _ _ _ _ _ _ => 1
  | .portAccess _ _ _ _ => 3
  | _ => 2

/-- The payload bytes that a message carries beside its fixed fields. -/
def MsgBody.bytes (b : MsgBody) : Nat :=
  match b with
  | .linkData _ _ _ _ d => d.length
  | .contrib _ _ _ _ d => d.length
  | .snapWrite _ _ _ d => d.length
  | .snapData _ d => d.length
  | .logData _ a b => a.length + b.length
  | .logEntry _ _ _ d => d.length
  | .hostWrite _ d => d.length
  | .groupVal _ _ _ _ _ d => d.length
  | .portAccess _ _ _ (some d) => d.length
  | _ => 0

end Sys2Proof

namespace Sys2Proof.Machine

/-- R569: the flits of a message, 248 payload bytes each. -/
def flitsOf (b : MsgBody) : Nat := max 1 (ceilDiv b.bytes 248)

/-- R570: the receive buffer of a virtual channel and class, in flits. -/
def vcBuffer (vc : Nat) : Nat :=
  match vc with
  | 0 => 256
  | 1 => 256
  | 2 => 64
  | _ => 32

/-- R570, R571: the index of a buffer: 2 × VC + class. -/
def bufOf (vc cls : Nat) : Nat := 2 * vc + cls

/-- Whether a port may transmit a flit now: it is up, holds a credit, and its replay buffer has room (R571, R572). -/
def Port.mayTransmit (p : Port) (vc cls : Nat) : Bool :=
  p.state == .up && decide (tget 0 p.used (bufOf vc cls) < vcBuffer vc) && decide (p.replay.length < 512)

/-- A flit leaves; it carries back the credits owed. -/
def Port.transmit (p : Port) (vc cls : Nat) : Port :=
  { p with replay := p.replay ++ [⟨p.txNext, vc, cls, 0⟩], txNext := p.txNext + 1, used := tmod 0 p.used (bufOf vc cls) (· + 1),
           owed := [] }

/-- A flit leaves, or waits behind those that wait. -/
def Port.give (p : Port) (vc cls : Nat) : Port :=
  if p.waiting.isEmpty && p.mayTransmit vc cls then p.transmit vc cls else { p with waiting := p.waiting ++ [(vc, cls)] }

/-- The waiting flits that may go, in order on each buffer. -/
def Port.drain (p : Port) : Port :=
  p.waiting.foldl (fun q f =>
    if q.mayTransmit f.1 f.2 && !q.waiting.any (fun g => bufOf g.1 g.2 == bufOf f.1 f.2) then q.transmit f.1 f.2
    else { q with waiting := q.waiting ++ [f] }) { p with waiting := [] }

/-- R261, R428, R591, R593: the messages at which another device publishes an effect. -/
def isCommitMsg (b : MsgBody) : Bool :=
  match b with
  | .commitMsg _ _ _ => true
  | .signal _ _ _ _ => true
  | .contribCommit _ _ _ _ => true
  | _ => false

def Dev.modLinks (d : Dev) (f : Links → Links) : Dev := { d with links := f d.links }
def Dev.port (d : Dev) (j : Nat) : Port := tget Port.reset d.links.ports j
def Dev.modPort (d : Dev) (j : Nat) (f : Port → Port) : Dev :=
  d.modLinks (fun l => { l with ports := tmod Port.reset l.ports j f })

/-- R578: an entry of the route table. -/
def Dev.route (d : Dev) (dst : Nat) : Nat := tget 0 d.links.routes dst

/-- R573, R579: a port that takes messages; during a retrain they wait and none is dropped. -/
def Port.carries (p : Port) : Bool := p.state == .up || p.state == .retrain

/-- R578, R579: whether messages to a destination leave; the entry for the device's own number is ignored. -/
def Dev.routeOk (d : Dev) (dst : Nat) : Bool :=
  dst == d.links.devNum || (bit (d.route dst) 15 && (d.port (d.route dst % 8)).carries)

/-- R579: a dropped message counts at its port, where its route names one. -/
def Dev.countDrop (d : Dev) (dst : Nat) : Dev :=
  if bit (d.route dst) 15 then d.modPort (d.route dst % 8) (fun p => { p with drop := (p.drop + 1) % 2 ^ 64 }) else d

/-- A message of this device to a destination. -/
def Dev.newMsg (d : Dev) (dst : Nat) (body : MsgBody) : Message × Dev :=
  (⟨d.links.nextMsg, d.links.devNum, dst, body.channel, body⟩, d.modLinks (fun l => { l with nextMsg := l.nextMsg + 1 }))

/-- A message's flits at a port; a port with DATELINE moves them to class 1 (R570). -/
def Dev.giveFlits (d : Dev) (j vc cls n : Nat) : Dev :=
  d.modPort j (fun p => (List.range n).foldl (fun p _ => p.give vc (if p.dateline then 1 else cls)) p)

/-- A message leaves for its destination, or is dropped. -/
def Dev.leave (d : Dev) (m : Message) (cls : Nat) : Dev :=
  if d.routeOk m.dst then
    let d := d.modLinks (fun l => { l with out := l.out ++ [m] })
    if m.dst = d.links.devNum then d else d.giveFlits (d.route m.dst % 8) m.vc cls (flitsOf m.body)
  else d.countDrop m.dst

/-- R579, R581: sends a message that its destination acknowledges; a held destination holds it. -/
def Dev.sendMsg (d : Dev) (cmd : Option CmdRef) (dst : Nat) (body : MsgBody) : Dev :=
  let (m, d) := d.newMsg dst body
  if thas d.links.holds dst then d.modLinks (fun l => { l with heldMsgs := l.heldMsgs ++ [⟨m, cmd, false⟩] })
  else (d.modLinks (fun l => { l with sent := l.sent ++ [⟨m, cmd, d.clk.tick, false⟩] })).leave m 0

/-- Sends an answer, which nothing acknowledges; a held destination holds it. -/
def Dev.answer (d : Dev) (dst : Nat) (body : MsgBody) : Dev :=
  let (m, d) := d.newMsg dst body
  if thas d.links.holds dst then d.modLinks (fun l => { l with heldMsgs := l.heldMsgs ++ [⟨m, none, true⟩] })
  else d.leave m 0

/-- R579: the end-to-end acknowledgement of a message that arrived. -/
def Dev.ackMsg (d : Dev) (m : Message) : Dev := d.answer m.src (.ack m.id)

/-- R579: a message that is acknowledged or lost is no longer outstanding. -/
def Dev.settled (d : Dev) (msg : Nat) : Dev :=
  d.modLinks (fun l => { l with sent := l.sent.filter (fun s => s.msg.id != msg) })

def Dev.sentMsg (d : Dev) (msg : Nat) : Option Sent := d.links.sent.find? (fun s => s.msg.id == msg)

/-- Whether a command still has a message that is neither acknowledged nor lost. -/
def Dev.awaits (d : Dev) (c : CmdRef) : Bool :=
  d.links.sent.any (fun s => s.cmd == some c) || d.links.heldMsgs.any (fun s => s.cmd == some c)

/-! ### Host-bound traffic (R599 to R601) -/

/-- The device number of a member's bridge, by the numbering of R582's text (log entry 33). -/
def Dev.bridgeNum (d : Dev) : Nat := d.links.devNum / 8 * 8

/-- R600: a vector is raised: one message in a tick, the next one coalesced, pending while it is masked. -/
def Dev.raiseMsix (d : Dev) (v : Nat) : Dev :=
  d.modLinks (fun l =>
    if tget true l.msixMask v then { l with msixPend := if l.msixPend.contains v then l.msixPend else l.msixPend ++ [v] }
    else if l.msixSent.contains v then { l with msixAgain := if l.msixAgain.contains v then l.msixAgain else l.msixAgain ++ [v] }
    else { l with msixSent := l.msixSent ++ [v] })

/-- What host-bound traffic does where it reaches the host. -/
def Dev.toHost (d : Dev) (b : MsgBody) : Dev :=
  match b with
  | .hostWrite iova data => d.modMem (fun m => { m with host := putBytes m.host iova data })
  | .hostNotify v => d.raiseMsix v
  | _ => d

def isHostBound (b : MsgBody) : Bool :=
  match b with
  | .hostWrite _ _ => true
  | .hostNotify _ => true
  | _ => false

/-- R599, R601: host-bound traffic: a bridge issues it, a member sends it to its bridge; while the host path is down the device holds
it. -/
def Dev.hostBound (d : Dev) (b : MsgBody) : Dev :=
  if !d.links.hostUp then d.modLinks (fun l => { l with hostHeld := l.hostHeld ++ [b] })
  else if d.links.bridge then d.toHost b
  else d.sendMsg none d.bridgeNum b

/-- R601: what was held goes in its order. -/
def Dev.hostResend (d : Dev) : Dev :=
  let held := d.links.hostHeld
  held.foldl Dev.hostBound (d.modLinks (fun l => { l with hostHeld := [] }))

/-- R601: a host-bound message is lost: it goes again, with every later one to the same destination behind it, once the host path is
up. -/
def Dev.hostLost (d : Dev) (m : Message) : Dev :=
  let late (x : Message) : Bool := isHostBound x.body && x.dst == m.dst && decide (m.id ≤ x.id)
  let again := ((d.links.sent.map (·.msg)) ++ d.links.heldMsgs.map (·.msg)).filter late
  let d := d.modLinks (fun l =>
    { l with sent := l.sent.filter (fun s => !late s.msg), heldMsgs := l.heldMsgs.filter (fun s => !late s.msg)
             hostHeld := again.map (·.body) ++ l.hostHeld })
  if d.links.hostUp then d.hostResend else d

/-- R599: a member's host-bound message reaches its bridge, which issues it under the member's PASID. -/
def Dev.hostForward (d : Dev) (m : Message) : Dev :=
  if d.links.bridge && d.links.hostUp then
    let pasid : Option Nat := if d.links.pasidEn then some (m.src % 8) else none
    let d := match m.body with
      | .hostWrite iova data => d.modLinks (fun l => { l with hostReqs := l.hostReqs ++ [(pasid, iova, data.length)] })
      | _ => d
    (d.toHost m.body).ackMsg m
  else d

/-! ### Groups (R583, R584) -/

/-- The members of a group and this device's position; group 0xFFFF is the device alone. -/
def Dev.groupOf (d : Dev) (part group : Nat) : Option (List GroupMember × Nat) :=
  if group = 0xFFFF then some ([⟨d.links.devNum, part, 0⟩], 0)
  else match tfind d.links.groups group with
    | some g => if g.part = part then some (g.members, g.pos) else none
    | none => none

/-- Where what is kept for a group stands: under its id, or, for the device alone, under its partition. -/
def groupSlot (part group : Nat) : Nat := if group = 0xFFFF then 0x10000 + part else group

/-- The digest of a group as this device declares it; a group that it does not declare has none. -/
def Dev.digestOf (d : Dev) (group : Nat) : Option Nat := (tfind d.links.groups group).map (·.digest)

/-- The device number at a position. -/
def memberAt (ms : List GroupMember) (p : Nat) : Nat := ((ms[p]?).map (·.device)).getD 0

/-! ### The group tree -/

/-- The lowest bit of a position that is set. -/
def lowBit (p : Nat) : Nat := ((List.range 13).find? (fun l => bit p l)).getD 13

/-- R90: the positions whose values a position receives, in the order in which it combines them. -/
def treeKids (p g : Nat) : List Nat :=
  (List.range 13).filterMap (fun l => if l < lowBit p ∧ p + 2 ^ l < g then some (p + 2 ^ l) else none)

/-- The position to which a position other than 0 sends. -/
def treeParent (p : Nat) : Nat := p - 2 ^ lowBit p

end Sys2Proof.Machine
end

