-- ==== Sys2Proof/Machine/Operands.lean ====
section
/-! DEFINITION. Operand descriptors (R127): their static checks, the addresses of their elements (R146), reads of rows and
matrices, and held writes of converted rows (R57, R58). -/

namespace Sys2Proof

open Sys2Proof.Machine

def Desc.xpose (d : Desc) : Bool := bit d.flags 0
def Desc.host (d : Desc) : Bool := bit d.flags 1

/-- True for a descriptor of zeros. -/
def Desc.isZero (d : Desc) : Bool :=
  d.va == 0 && d.scaleVa == 0 && d.rowStride == 0 && d.scaleStride == 0 && d.fmt == 0 && d.fmtRsv == 0 &&
    d.flags == 0 && d.rsv == 0

/-- R127, R38: a virtual address of 48 bits. -/
def vaOk (va : Nat) : Bool := decide (va < 2 ^ 48)

/-- R46, R108, R127, R186: what every descriptor keeps, whatever its use. The element format is one of R44, or is not
looked at where `anyFmt` holds. -/
def Desc.ok (d : Desc) (anyFmt hostOk xposeOk : Bool) : Bool :=
  d.rsv == 0 && d.fmtRsv == 0 && decide (d.flags < 4) && (hostOk || !d.host) && (xposeOk || !d.xpose) &&
    (d.host || vaOk d.va) && d.va % 64 == 0 && d.rowStride % 64 == 0 && (anyFmt || fmtOk d.fmt) &&
    (anyFmt || isMx d.fmt || (d.scaleVa == 0 && d.scaleStride == 0)) && !(isMx d.fmt && d.xpose && !anyFmt)

/-- R48: the innermost dimension of an MX tensor. -/
def Desc.innerOk (d : Desc) (n : Nat) : Bool := !isMx d.fmt || n % 32 == 0

def Desc.elemBytes (d : Desc) : Nat := elemBits d.fmt / 8

/-- R146: the address of element (i, k) of a transposed operand. -/
def Desc.xposeVa (d : Desc) (i k : Nat) : Nat := d.va + k * d.rowStride + i * d.elemBytes

/-- Bytes at an address of an operand, in the partition or in host memory (R186). -/
def Desc.readAt (d : Desc) (a : Access) (va n : Nat) : Run (List Byte) :=
  if d.host then readHost va n else readVa a va n

/-- The codes of row r, cols elements, and its scale bytes. -/
def Desc.readRow (d : Desc) (a : Access) (r cols : Nat) : Run (List Nat × List Byte) := do
  if d.xpose then
    let cs ← (List.range cols).mapM (fun k => do
      return leAt (← d.readAt a (d.xposeVa r k) d.elemBytes) 0 d.elemBytes)
    return (cs, [])
  else
    let bs ← d.readAt a (d.va + r * d.rowStride) (rowBytes d.fmt cols)
    let sc ← if isMx d.fmt then d.readAt a (d.scaleVa + r * d.scaleStride) (ceilDiv cols 32) else pure []
    return (rowCodes d.fmt cols bs, sc)

/-- The values of row r. -/
def Desc.readVals (d : Desc) (a : Access) (r cols : Nat) : Run (List FVal) := do
  let p ← d.readRow a r cols
  return rowVals d.fmt p.2 p.1

/-- The values of rows 0 to rows − 1. -/
def Desc.readMat (d : Desc) (a : Access) (rows cols : Nat) : Run (List (List FVal)) :=
  (List.range rows).mapM (fun r => d.readVals a r cols)

/-- Holds a write of codes and scales as row r of a destination. -/
def Desc.writeCodes (d : Desc) (a : Access) (r : Nat) (p : List Nat × List Byte) : Run Unit := do
  let va := d.va + r * d.rowStride
  let sva := d.scaleVa + r * d.scaleStride
  if d.host then
    hold (.host va (codeBytes d.fmt p.1))
    if p.2.isEmpty then pure () else hold (.host sva p.2)
  else
    writeVa a va (codeBytes d.fmt p.1)
    if p.2.isEmpty then pure () else writeVa a sva p.2

/-- Holds a write of values, converted, as row r; R77 looks at what is written. -/
def Desc.writeVals (d : Desc) (a : Access) (r : Nat) (vs : List FVal) : Run Unit := do
  let p := convRow d.fmt vs
  noteVals (rowVals d.fmt p.2 p.1)
  d.writeCodes a r p

/-- The codes of row r of a matrix in another format; a load in the same format is a move and keeps the bits (R55). -/
def Desc.readAs (m : Desc) (a : Access) (r cols fmt : Nat) : Run (List Nat) := do
  let p ← m.readRow a r cols
  return if m.fmt = fmt then p.1 else (rowVals m.fmt p.2 p.1).map (codeNE (elemFmt fmt))

/-- A row of codes stored as row r of a destination, converted by R57; a store in the same format is a move and keeps the
bits (R55). -/
def Desc.writeFrom (m : Desc) (a : Access) (r fmt : Nat) (cs : List Nat) : Run Unit := do
  let vs := cs.map (decodeFp (elemFmt fmt))
  if m.fmt = fmt then
    noteVals vs
    m.writeCodes a r (cs, [])
  else m.writeVals a r vs

end Sys2Proof
end

