-- ==== Sys2Proof/Machine/Shake.lean ====
section
/-! DEFINITION. SHAKE256. The manual names it and gives no definition of its own; this is that of FIPS 202 (PRESUMED, log
entry 12). The permutation's 1,600 bits are one number: lane (x, y) is its 64 bits from bit 64 × (x + 5 y) on, plane y its 320
bits from bit 320 × y on. -/

namespace Sys2Proof.Machine

/-- Plane y of the permutation's state. -/
def spongePlane (s y : Nat) : Nat := s >>> (320 * y) % 2 ^ 320

/-- The lane at a place of the state. -/
def spongeLane (s i : Nat) : Nat := s >>> (64 * i) % 2 ^ 64

/-- A plane whose lane x is lane x + k of another. -/
def turnPlane (p k : Nat) : Nat := p >>> (64 * k) ||| (p % 2 ^ (64 * k)) <<< (320 - 64 * k)

/-- A lane rotated towards its high bit. -/
def turnLane (v r : Nat) : Nat := (v <<< r) % 2 ^ 64 ||| v >>> (64 - r)

/-- Five planes beside one another. -/
def fromPlanes (f : Nat → Nat) : Nat := (List.range 5).foldl (fun s y => s ||| f y <<< (320 * y)) 0

/-- θ: the parity of the columns on both sides goes into every plane. -/
def spongeTheta (s : Nat) : Nat :=
  let parity := (List.range 5).foldl (fun p y => p ^^^ spongePlane s y) 0
  let ahead := (List.range 5).foldl (fun p x => p ||| turnLane (spongeLane (turnPlane parity 1) x) 1 <<< (64 * x)) 0
  s ^^^ fromPlanes (fun _ => turnPlane parity 4 ^^^ ahead)

/-- ρ and π along their one walk over the lanes other than (0, 0): the lane at (x, y) goes to (y, 2 x + 3 y), turned by the next
triangular number. -/
def spongeWalk (s : Nat) : Nat → Nat → Nat → Nat → Nat
  | 0, _, _, _ => spongeLane s 0
  | n + 1, x, y, turns =>
    turnLane (spongeLane s (x + 5 * y)) (turns % 64) <<< (64 * (y + 5 * ((2 * x + 3 * y) % 5))) |||
      spongeWalk s n y ((2 * x + 3 * y) % 5) (turns + (25 - n))

/-- χ in a plane. -/
def chiPlane (p : Nat) : Nat := p ^^^ ((2 ^ 320 - 1 - turnPlane p 1) &&& turnPlane p 2)

/-- The eight-bit shift register that makes the round constants, one step on. -/
def iotaNext (r : Nat) : Nat := if r < 128 then 2 * r else (2 * r) ^^^ 0x171

/-- ι: the constant of a round takes bit 2ʲ − 1 from the register's low bit, j from 0 to 6; and the register after it. -/
def iotaWord (r : Nat) : Nat × Nat :=
  (List.range 7).foldl (fun x j => (x.1 + x.2 % 2 * 2 ^ (2 ^ j - 1), iotaNext x.2)) (0, r)

/-- Rounds of the permutation, with the register that makes their constants. -/
def spongeRounds : Nat → Nat → Nat → Nat
  | 0, s, _ => s
  | n + 1, s, r =>
    let t := spongeWalk (spongeTheta s) 24 1 0 1
    spongeRounds n (fromPlanes (fun y => chiPlane (spongePlane t y)) ^^^ (iotaWord r).1) (iotaWord r).2

def spongePermute (s : Nat) : Nat := spongeRounds 24 s 1

/-- The rate of SHAKE256 in bytes. -/
def shakeRate : Nat := 136

/-- Whole blocks of a message go into the state one by one. -/
def spongeAbsorb : Nat → Nat → List Byte → Nat
  | 0, s, _ => s
  | n + 1, s, bs => spongeAbsorb n (spongePermute (s ^^^ leAt bs 0 shakeRate)) (bs.drop shakeRate)

/-- The padding of a message: the bits 1111 and 1, then zeros, and a 1 in the last bit of its block. -/
def shakePadding (n : Nat) : List Byte :=
  let r := shakeRate - n % shakeRate
  leBytes r (0x1F + 2 ^ (8 * r - 1))

/-- Blocks of output. -/
def spongeSqueeze : Nat → Nat → List Byte
  | 0, _ => []
  | n + 1, s => leBytes shakeRate s ++ spongeSqueeze n (spongePermute s)

/-- The first n bytes of SHAKE256 of a message. -/
def shake256 (n : Nat) (bs : List Byte) : List Byte :=
  (spongeSqueeze (ceilDiv n shakeRate) (spongeAbsorb (bs.length / shakeRate + 1) 0 (bs ++ shakePadding bs.length))).take n

end Sys2Proof.Machine
end

