-- ==== Sys2Proof/Machine/MemCmd.lean ====
section
/-! DEFINITION. The data-movement commands (chapter 04): what they check, what they hold. -/

namespace Sys2Proof.Machine

/-! ### Static checks (R186 to R190, R192) -/

def inRange (lo hi n : Nat) : Bool := decide (lo ≤ n) && decide (n ≤ hi)

def memCopyOk (src dst : Desc) (rows cols : Nat) (rsv : Bool) : Bool :=
  rsv && src.ok false true true && dst.ok false true false && !(src.host && dst.host) && src.innerOk cols &&
    dst.innerOk cols && inRange 1 16777216 rows && inRange 1 16777216 cols

def memFillOk (dst : Desc) (rows rowB : Nat) (rsv : Bool) : Bool :=
  rsv && dst.ok true true false && inRange 1 16777216 rows && inRange 4 0xFFFFFFFC rowB && rowB % 4 == 0

def flagKv (f : Nat) : Bool := bit f 0
def flagWick (f : Nat) : Bool := bit f 1
def flagDie (f : Nat) : Nat := bits f 3 2
def flagPage (f : Nat) : Nat := if flagKv f then 65536 else pageBytes

/-- The fields that MEM_ALLOC, MEM_FREE and MEM_MIGRATE share. -/
def mapFieldsOk (va pages flags : Nat) (rsv : Bool) : Bool :=
  rsv && decide (1 ≤ pages) && decide (flags < 16) && decide (flagDie flags ≤ 2) && !(flagKv flags && flagWick flags) &&
    va % flagPage flags == 0 && decide (va + pages * flagPage flags ≤ 2 ^ 48)

def memAllocOk (va pages tier flags : Nat) (rsv : Bool) : Bool :=
  mapFieldsOk va pages flags rsv && decide (tier ≤ 4) && (!flagKv flags || tier == 3) && (!flagWick flags || tier == 2)

def memMigrateOk (va pages tier flags : Nat) (rsv : Bool) : Bool :=
  mapFieldsOk va pages flags rsv && inRange 2 4 tier && !flagKv flags && !flagWick flags

def memSealedOk (op region part pages va : Nat) (rsv : Bool) : Bool :=
  rsv && decide (op ≤ 3) && decide (region < 16) && (op == 0 || op == 3 || decide (part < 14)) &&
    (op == 3 || (va % pageBytes == 0 && vaOk va)) &&
    (op != 0 || (decide (1 ≤ pages) && decide (va + pages * pageBytes ≤ 2 ^ 48)))

/-! ### Page tables and use -/

/-- The page-table keys of a range: one per 64 KiB page, or the first of each 2 MiB page. -/
def rangeKeys (va pages : Nat) (kv : Bool) : List Nat :=
  (List.range pages).map (fun i => if kv then va / 65536 + i else va / 65536 + 32 * i)

/-- Whether nothing is mapped in a page's range. -/
def Partition.unmappedAt (p : Partition) (key : Nat) (kv : Bool) : Bool :=
  if kv then (p.lookup (key * 65536)).isNone
  else !p.pt.any (fun kv => decide (key ≤ kv.1) && decide (kv.1 < key + 32))

/-- The entry that stands at a key. -/
def Partition.pteAt (p : Partition) (key : Nat) : Option Pte := tfind p.pt key

/-- The pages of a partition in a tier, by kind; KV frames are counted apart (R169, R189). -/
def Partition.pagesIn (p : Partition) (t : Tier) (ok : PageKind → Bool) : Nat :=
  (p.pt.filter (fun kv => ok kv.2.kind && decide ((tierOf kv.2.pa).map (·.1) = some t))).length

def isOwn : PageKind → Bool
  | .data => true
  | .wick => true
  | _ => false

def Partition.skeinUsed (p : Partition) : Nat := p.pagesIn .skein isOwn
def Partition.wickUsed (p : Partition) : Nat := p.pagesIn .skein (fun k => decide (k = .wick))
def Partition.hbmUsed (p : Partition) : Nat := p.pagesIn .hbm isOwn + p.kvFrames.length
def Partition.ddrUsed (p : Partition) : Nat := p.pagesIn .ddr isOwn + p.storePages

/-- R159: the level-2 entries of a partition. Those of the pages that CTX_SAVE saved stay in use, as do those that a release
in progress holds until its commit. -/
def Partition.level2 (p : Partition) : List Nat :=
  nodupNat (p.pt.map (fun e => e.1 / 16384) ++ p.saved.pages.map (fun e => e.1 / 16384) ++ p.level2Held)

/-- R159: the level-2 entries in use in all partitions. -/
def Dev.level2 (d : Dev) : List (Nat × Nat) := d.parts.p.flatMap (fun kv => kv.2.level2.map (fun n => (kv.1, n)))

/-- R159: whether mapping the keys in a partition keeps within 16,384 level-2 entries. -/
def Dev.level2Room (d : Dev) (part : Nat) (keys : List Nat) : Bool :=
  let old := d.level2
  let new := nodupNat ((keys.map (· / 16384)).filter (fun k => !old.contains (part, k)))
  decide (old.length + new.length ≤ 16384)

/-- R245: whether a range of pages holds part of a live queue's ring. -/
def Dev.ringIn (d : Dev) (part va len : Nat) : Bool :=
  d.qs.q.any (fun kv =>
    kv.2.part == part && kv.2.state != .disabled &&
      ((decide (va < kv.2.sqVa + 64 * 2 ^ kv.2.sqLog2) && decide (kv.2.sqVa < va + len)) ||
       (decide (va < kv.2.cqVa + 32 * 2 ^ kv.2.cqLog2) && decide (kv.2.cqVa < va + len))))

/-- R296: whether a Wick page lies in the range of a live descriptor of its partition. -/
def Dev.wickCovers (d : Dev) (part va : Nat) : Bool :=
  d.wick.descs.any (fun kv => kv.1 / 16 == part && decide (kv.2.desc.va ≤ va) &&
    decide (va < kv.2.desc.va + kv.2.desc.pages * pageBytes))

/-- R347: whether a KV page is in a partition's pool. -/
def Dev.inPool (d : Dev) (part pa : Nat) : Bool := thas (tget [] d.reqs.pools part) (pa / 65536)

/-! ### Placement (R165 to R169, R189) -/

/-- What an allocation has placed so far: the pages taken, the new KV frames, the mappings. -/
structure Placing where
  skein : List Nat
  hbm : List Nat
  ddr : List Nat
  slots : List Nat
  maps : List (Nat × Pte)
  deriving DecidableEq, Repr

def firstFree (m : Mem) (t : Tier) (taken : List Nat) (ok : Nat → Bool) : Option Nat :=
  (m.freePages t (fun p => ok p && !taken.contains p) 1).head?

/-- R151, R167: the parity of the die that DDR5 pages come from, by free pages where the command names none. -/
def ddrParity (m : Mem) (taken : List Nat) (die : Nat) : Nat :=
  match die with
  | 1 => 0
  | 2 => 1
  | _ =>
    let used := m.ddr.map (·.1) ++ taken
    let usedA := (used.filter (fun p => p % 2 == 0)).length
    let usedB := (used.filter (fun p => p % 2 == 1)).length
    let freeA := (m.ddrPages + 1) / 2 - usedA
    let freeB := m.ddrPages / 2 - usedB
    if freeA < freeB then 1 else 0

def placeSkein (d : Dev) (p : Partition) (wick : Bool) (x : Placing) (key : Nat) : Option Placing :=
  let kind := if wick then PageKind.wick else .data
  if p.quotaSkein ≤ p.skeinUsed + x.skein.length then none
  else if wick ∧ min p.quotaWick p.quotaSkein ≤ p.wickUsed + x.skein.length then none
  else (firstFree d.mem .skein x.skein (fun _ => true)).map (fun n =>
    { x with skein := x.skein ++ [n], maps := x.maps ++ [(key, ⟨paOf .skein n, kind⟩)] })

def placeHbm (d : Dev) (p : Partition) (x : Placing) (key : Nat) : Option Placing :=
  if p.quotaHbm ≤ p.hbmUsed + x.hbm.length then none
  else (firstFree d.mem .hbm x.hbm (fun _ => true)).map (fun n =>
    { x with hbm := x.hbm ++ [n], maps := x.maps ++ [(key, ⟨paOf .hbm n, .data⟩)] })

def placeDdr (d : Dev) (p : Partition) (die : Nat) (x : Placing) (key : Nat) : Option Placing :=
  if p.quotaDdr ≤ p.ddrUsed + x.ddr.length then none
  else
    let par := ddrParity d.mem x.ddr die
    (firstFree d.mem .ddr x.ddr (fun n => n % 2 == par)).map (fun n =>
      { x with ddr := x.ddr ++ [n], maps := x.maps ++ [(key, ⟨paOf .ddr n, .data⟩)] })

/-- R166: one page in the first tier that can hold it. -/
def placeAuto (d : Dev) (p : Partition) (tier die : Nat) (wick : Bool) (x : Placing) (key : Nat) : Option Placing :=
  match tier with
  | 0 =>
    match placeSkein d p false x key with
    | some y => some y
    | none =>
      match placeHbm d p x key with
      | some y => some y
      | none => placeDdr d p die x key
  | 1 =>
    match placeHbm d p x key with
    | some y => some y
    | none => placeDdr d p die x key
  | 2 => placeSkein d p wick x key
  | 3 => placeHbm d p x key
  | _ => placeDdr d p die x key

/-- The free slots of a partition's KV frames in rising address: not mapped, not being zeroed (R189). -/
def Dev.kvSlots (d : Dev) (part : Nat) (frames : List Nat) : List Nat :=
  let p := d.part part
  let used := p.pt.filterMap (fun kv => if kv.2.kind = .kv then some kv.2.pa else none)
  (sortNat frames).flatMap (fun f => (List.range 32).filterMap (fun s =>
    let pa := paOf .hbm f + 65536 * s
    if used.contains pa ∨ d.mem.zeroQ.any (fun i => i.target == .kvSlot part f s) then none else some pa))

/-- R189: whether a KV frame holds nothing: no page mapped in it, no slot that waits to be zeroed. -/
def Dev.frameIdle (d : Dev) (part f : Nat) : Bool :=
  !(d.part part).pt.any (fun kv => kv.2.kind == .kv && kv.2.pa / pageBytes == f) &&
    !d.mem.zeroQ.any (fun j => match j.target with
      | .kvSlot p g _ => p == part && g == f
      | _ => false)

/-- R189: a KV frame of a partition that holds nothing returns to the free pool. -/
def Dev.freeFrame (d : Dev) (part f : Nat) : Dev :=
  if (d.part part).kvFrames.contains f && d.frameIdle part f then
    (d.modMem (fun m => m.setUse .hbm f .free)).modPart part (fun p => { p with kvFrames := p.kvFrames.filter (· != f) })
  else d

/-- The KV frames in which a MEM_ALLOC that has run and not committed maps pages. -/
def Entry.kvTaking (e : Entry) : List Nat :=
  match e.phase with
  | .ran r => r.effects.filterMap (fun x => match x with
    | .map _ _ pte => if pte.kind = .kv then some (pte.pa / pageBytes) else none
    | _ => none)
  | _ => []

/-- R189: one 64 KiB page, from a free slot, else from a new frame. -/
def placeKv (d : Dev) (part : Nat) (x : Placing) (key : Nat) : Option Placing :=
  let p := d.part part
  match (d.kvSlots part (p.kvFrames ++ x.hbm)).filter (fun pa => !x.slots.contains pa) with
  | pa :: _ => some { x with slots := x.slots ++ [pa], maps := x.maps ++ [(key, ⟨pa, .kv⟩)] }
  | [] =>
    if p.quotaHbm ≤ p.hbmUsed + x.hbm.length then none
    else (firstFree d.mem .hbm x.hbm (fun _ => true)).map (fun n =>
      { x with hbm := x.hbm ++ [n], slots := x.slots ++ [paOf .hbm n], maps := x.maps ++ [(key, ⟨paOf .hbm n, .kv⟩)] })

def placeAll (f : Placing → Nat → Option Placing) : List Nat → Placing → Option Placing
  | [], x => some x
  | k :: t, x =>
    match f x k with
    | some y => placeAll f t y
    | none => none

/-- R166: whether some Skein page is being zeroed, for which MEM_ALLOC waits. -/
def Dev.skeinZeroing (d : Dev) : Bool :=
  d.mem.skein.any (fun kv => match kv.2 with
    | .zeroing => true
    | .releasing _ => true
    | _ => false)

def runAlloc (part va pages tier flags : Nat) : Run Counts := do
  let d ← getDev
  let p := d.part part
  let kv := flagKv flags
  let keys := rangeKeys va pages kv
  require (keys.all (fun k => p.unmappedAt k kv)) stBadParam
  require (d.level2Room part keys) stQuota
  let place := if kv then placeKv d part else placeAuto d p tier (flagDie flags) (flagWick flags)
  match placeAll place keys ⟨[], [], [], [], []⟩ with
  | none => failWith stQuota
  | some x => do
    holdAll (x.maps.map (fun m => .map part m.1 m.2))
    holdAll (x.skein.map (fun n => .pageUse .skein n (.mapped part)))
    holdAll (x.hbm.map (fun n => .pageUse .hbm n (if kv then .kvFrame part else .mapped part)))
    holdAll (x.ddr.map (fun n => .pageUse .ddr n (.mapped part)))
    if kv ∧ !x.hbm.isEmpty then hold (.kvFrames part x.hbm) else pure ()
    if kv then return okCounts 0 pages 0 else return okCounts x.skein.length x.hbm.length x.ddr.length

/-! ### Release of pages (R181, R190, R659) -/

/-- The zeroing target of a whole page. -/
def zeroTarget (pa : Nat) : Option ZeroTarget :=
  match tierOf pa with
  | some (.skein, n) => some (.skeinPage n)
  | some (.hbm, n) => some (.hbmPage n)
  | some (.ddr, n) => some (.ddrPage n)
  | none => none

/-- The effects that release a mapped page: its entry goes, its bytes wait to be zeroed. -/
def releasePage (part key : Nat) (e : Pte) (ordered : Bool) : List Effect :=
  .unmap part key ::
    (match e.kind, tierOf e.pa with
      | .kv, some (_, f) => [.zero ⟨.kvSlot part f (e.pa % pageBytes / 65536), none, ordered⟩]
      | .sealed _, _ => []
      | _, some (t, n) =>
        (match zeroTarget e.pa with
          | some z => [.pageUse t n .zeroing, .zero ⟨z, none, ordered⟩]
          | none => [])
      | _, none => [])

def runFree (part va pages flags : Nat) : Run Counts := do
  let d ← getDev
  let p := d.part part
  let want := if flagKv flags then PageKind.kv else if flagWick flags then .wick else .data
  let keys := rangeKeys va pages (flagKv flags)
  let es := keys.filterMap (fun k => (p.pteAt k).map (fun e => (k, e)))
  require (es.length == keys.length && es.all (fun ke => ke.2.kind == want)) stBadParam
  require (!es.any (fun ke => (want == .kv && d.inPool part ke.2.pa) || (want == .wick && d.wickCovers part (ke.1 * 65536)))
    && !d.ringIn part va (pages * flagPage flags)) stInUse
  holdAll (es.flatMap (fun ke => releasePage part ke.1 ke.2 true))
  return okCounts pages 0 0

/-- The cells of a whole page, its errors met. -/
def readPage (pa : Nat) : Run (List Host.Cell) := do
  let c ← get
  let inPage (s : Nat) : Bool := decide (pa ≤ 64 * s) && decide (64 * s < pa + pageBytes)
  match c.dev.mem.ue.find? inPage with
  | some s => throw ⟨stUncorrectable, none, some (64 * s)⟩
  | none => do
    set { c with ces := c.ces ++ c.dev.mem.ces.filter inPage }
    return getCells c.dev.mem.bytes pa pageBytes

def runMigrate (part va pages tier flags : Nat) : Run Counts := do
  let d ← getDev
  let p := d.part part
  let keys := rangeKeys va pages false
  let es := keys.filterMap (fun k => (p.pteAt k).map (fun e => (k, e)))
  require (es.length == keys.length && es.all (fun ke => ke.2.kind == .data)) stBadParam
  require (!d.ringIn part va (pages * pageBytes)) stInUse
  match placeAll (placeAuto d p tier (flagDie flags) false) keys ⟨[], [], [], [], []⟩ with
  | none => failWith stQuota
  | some x => do
    let _ ← (es.zip x.maps).mapM (fun em => do
      let cells ← readPage em.1.2.pa
      hold (.block em.2.2.pa pageBytes cells)
      holdAll (releasePage part em.1.1 em.1.2 true)
      hold (.map part em.1.1 em.2.2)
      match tierOf em.2.2.pa with
      | some (t, n) => hold (.pageUse t n (.mapped part))
      | none => pure ())
    return okCounts pages 0 0

/-! ### Sealed regions (R175 to R179) -/

/-- R175: the digest of a region. -/
def sealDigest (m : Mem) (pages : List Nat) : List Byte :=
  shake256 32 (pages.flatMap (fun n => shake256 32 (getBytes m.bytes (paOf .hbm n) pageBytes)))

def runSeal (part region pages va : Nat) : Run Counts := do
  let d ← getDev
  let p := d.part part
  let keys := rangeKeys va pages false
  let es := keys.filterMap (fun k => (p.pteAt k).map (fun e => (k, e)))
  let nums := es.filterMap (fun ke => match tierOf ke.2.pa with
    | some (.hbm, n) => some n
    | _ => none)
  require (part < 14 && es.length == keys.length && es.all (fun ke => ke.2.kind == .data) && nums.length == keys.length) stBadParam
  require (!d.ringIn part va (pages * pageBytes)) stInUse
  require (!thas d.mem.regions region) stInUse
  let _ ← nums.mapM (fun n => readPage (paOf .hbm n))
  holdAll (keys.map (fun k => .unmap part k))
  holdAll (nums.map (fun n => .pageUse .hbm n (.sealed region)))
  hold (.region region nums (sealDigest d.mem nums))
  return okCounts pages 0 0

def runMap (region target va : Nat) : Run Counts := do
  let d ← getDev
  let p := d.part target
  match tfind d.mem.regions region with
  | none => failWith stBadParam
  | some g => do
    require (p.state != .free) stBadParam
    require (!g.zeroing) stInUse
    let keys := rangeKeys va g.pages.length false
    require (decide (va + g.pages.length * pageBytes ≤ 2 ^ 48) && keys.all (fun k => p.unmappedAt k false)) stBadParam
    require (d.level2Room target keys) stQuota
    holdAll ((keys.zip g.pages).map (fun kp => .map target kp.1 ⟨paOf .hbm kp.2, .sealed region⟩))
    hold (.sealMap target region va)
    return okCounts g.pages.length 0 0

def runUnmap (region target va : Nat) : Run Counts := do
  let d ← getDev
  let p := d.part target
  match tfind d.mem.regions region with
  | none => failWith stBadParam
  | some g => do
    require (p.maps.contains (region, va)) stBadParam
    holdAll ((rangeKeys va g.pages.length false).map (fun k => .unmap target k))
    hold (.sealUnmap target region va)
    return okCounts g.pages.length 0 0

/-- The partitions that map a region (MAPS of SKN_SEAL_r). -/
def Dev.mapsOf (d : Dev) (region : Nat) : Nat := (d.parts.p.filter (fun kv => kv.2.maps.any (fun m => m.1 == region))).length

def runUnseal (region : Nat) : Run Counts := do
  let d ← getDev
  match tfind d.mem.regions region with
  | none => failWith stBadParam
  | some g => do
    require (d.mapsOf region == 0 && !g.zeroing) stInUse
    hold (.regionZero region)
    holdAll (g.pages.map (fun n => .zero ⟨.hbmPage n, some region, true⟩))
    return okCounts g.pages.length 0 0

/-! ### Copies and fills (R187) -/

def runCopy (src dst : Desc) (rows cols : Nat) : Run Counts := do
  let data ← (List.range rows).mapM (fun r => src.readRow accMover r cols)
  let _ ← (withIdx 0 data).mapM (fun dr => do
    if src.fmt = dst.fmt then
      noteVals (rowVals src.fmt dr.1.2 dr.1.1)
      dst.writeCodes accMover dr.2 dr.1
    else dst.writeVals accMover dr.2 (rowVals src.fmt dr.1.2 dr.1.1))
  return okCounts rows 0 0

def runFill (dst : Desc) (rows rowB pattern : Nat) : Run Counts := do
  let row := (List.replicate (rowB / 4) (leBytes 4 pattern)).flatten
  (List.range rows).forM (fun r => do
    let va := dst.va + r * dst.rowStride
    if dst.host then hold (.host va row) else writeVa accMover va row)
  return okCounts rows 0 0

end Sys2Proof.Machine
end

