-- ==== Sys2Proof/Machine/Vector.lean ====
section
/-! DEFINITION. The vector engine (chapter 05): the static checks of a program (R227) and its instructions (R207 to R224). -/

namespace Sys2Proof

open Sys2Proof.Machine

/-! ### Instruction fields (R204 to R206) -/

def VInstr.n (i : VInstr) : Nat := i.count % 8192 + 1
def VInstr.bf (i : VInstr) : Bool := bit i.ctl 0
def VInstr.wfmt (i : VInstr) : Nat := i.ctl / 64

/-- The format code of the lanes, and the format. -/
def VInstr.laneCode (i : VInstr) : Nat := if i.bf then 2 else 0
def VInstr.lane (i : VInstr) : FpFmt := elemFmt i.laneCode

/-- The format code of the windows. -/
def VInstr.winCode (i : VInstr) : Nat :=
  match i.wfmt with
  | 0 => 0
  | 1 => 2
  | _ => 1

def specKind (s : Nat) : Nat := s / 16384
def specLow (s : Nat) : Nat := s % 16384

/-- How an instruction uses an operand position. -/
inductive OpndUse where
  | none
  | src (n : Nat)
  | dst (n : Nat)
  | idxSrc (n : Nat)
  | idxDst (n : Nat)
  | aux
  deriving DecidableEq, Repr

/-- R213: the segment length that an aux value selects. -/
def segLen (aux n : Nat) : Nat := if aux = 15 then n else 2 ^ aux

/-- R207: the uses of dst, s1, s2, s3. -/
def VInstr.uses (i : VInstr) : Option (OpndUse × OpndUse × OpndUse × OpndUse) :=
  let n := i.n
  let segs := n / segLen (specLow i.s2 % 16) n
  match i.op with
  | 0x01 => some (.dst n, .src n, .none, .none)
  | 0x02 => some (.dst n, .src n, .src n, .none)
  | 0x03 => some (.dst n, .src n, .src n, .none)
  | 0x04 => some (.dst n, .src n, .src n, .none)
  | 0x05 => some (.dst n, .src n, .src n, .src n)
  | 0x06 => some (.dst n, .src n, .src n, .none)
  | 0x07 => some (.dst n, .src n, .src n, .none)
  | 0x08 => some (.dst n, .src n, .src n, .none)
  | 0x09 => some (.dst n, .src n, .src n, .none)
  | 0x0A => some (.dst n, .src n, .src n, .src n)
  | 0x10 => some (.dst n, .src n, .none, .none)
  | 0x11 => some (.dst n, .src n, .none, .none)
  | 0x12 => some (.dst n, .src n, .none, .none)
  | 0x13 => some (.dst n, .src n, .none, .none)
  | 0x18 => some (.idxDst n, .none, .none, .none)
  | 0x19 => some (.idxDst n, .idxSrc n, .idxSrc n, .none)
  | 0x1A => some (.dst n, .idxSrc n, .none, .none)
  | 0x20 => some (.dst n, .src n, .idxSrc n, .none)
  | 0x28 => some (.dst segs, .src n, .aux, .none)
  | 0x29 => some (.dst segs, .src n, .aux, .idxDst segs)
  | 0x2A => some (.dst segs, .src n, .aux, .idxDst segs)
  | 0x2B => some (.dst i.imm, .src n, .aux, .idxDst i.imm)
  | 0x30 => some (.idxDst n, .none, .none, .none)
  | 0x38 => some (.dst n, .none, .aux, .none)
  | 0x39 => some (.none, .src n, .aux, .none)
  | 0x3A => some (.none, .none, .none, .none)
  | _ => none

/-- A specifier whose reserved bits are zero. -/
def specOk (s : Nat) : Bool :=
  match specKind s with
  | 0 => decide (specLow s < 16)
  | 1 => true
  | 2 => specLow s == 0
  | _ => decide (specLow s < 16)

/-- R201, R227: whether a specifier fits a use. `bf` is lane format BF16. -/
def opndOk (i : VInstr) (s : Nat) (u : OpndUse) : Bool :=
  let win (n e : Nat) : Bool := decide (64 * (specLow s % 4096) + n * e ≤ 262144)
  let wbytes := elemBits i.winCode / 8
  let isDst := match u with
    | .dst _ => true
    | .idxDst _ => true
    | _ => false
  specOk s && (match u, specKind s with
    | .none, _ => true
    | .aux, k => k == 3
    | _, 2 => !isDst && (!i.bf || (match u with
        | .idxSrc _ => true
        | _ => decide (i.imm < 65536)))
    | .src n, 0 => decide (n ≤ if i.bf then 1024 else 512)
    | .dst n, 0 => decide (n ≤ if i.bf then 1024 else 512)
    | .idxSrc n, 0 => decide (n ≤ 512)
    | .idxDst n, 0 => decide (n ≤ 512)
    | .src n, 1 => win n wbytes
    | .dst n, 1 => win n wbytes
    | .idxSrc n, 1 => i.wfmt == 0 && win n 4
    | .idxDst n, 1 => i.wfmt == 0 && win n 4
    | _, _ => false)

/-- R227 for one instruction of a program. -/
def VInstr.ok (p : VecRun) (i : VInstr) : Bool :=
  decide (i.wfmt ≤ 2) && bits i.ctl 5 1 == 0 && decide (i.count < 8192) && specKind i.dst != 2 &&
    (match i.uses with
      | none => false
      | some (ud, u1, u2, u3) => opndOk i i.dst ud && opndOk i i.s1 u1 && opndOk i i.s2 u2 && opndOk i i.s3 u3) &&
    (let aux := specLow i.s2 % 16
     match i.op with
      | 0x18 => !i.bf
      | 0x19 => !i.bf
      | 0x28 => (decide (aux ≤ 13) || aux == 15) && i.n % segLen aux i.n == 0
      | 0x29 => (decide (aux ≤ 13) || aux == 15) && i.n % segLen aux i.n == 0 && decide (i.imm + segLen aux i.n ≤ max32)
      | 0x2A => (decide (aux ≤ 13) || aux == 15) && i.n % segLen aux i.n == 0 && decide (i.imm + segLen aux i.n ≤ max32)
      | 0x2B => aux == 0 && decide (1 ≤ i.imm) && decide (i.imm ≤ 256)
      | 0x30 => !i.bf
      | 0x38 => decide (aux < 4) && (match p.descs[aux]? with
          | some d => !d.isZero && d.ok false false false && d.innerOk i.n
          | none => false)
      | 0x39 => decide (aux < 4) && (match p.descs[aux]? with
          | some d => !d.isZero && d.ok false false false && d.innerOk i.n
          | none => false)
      | 0x3A => i.count == 0 && (specKind i.dst == 3 || (specKind i.dst == 1 && specLow i.dst % 4096 == 0))
      | _ => true)

/-- R46, R225 to R227: the static checks of VEC_RUN; each of its descriptors keeps R127, also one that no LD or ST names. -/
def vecRunOk (p : VecRun) : Bool :=
  p.rsvZero && decide (1 ≤ p.tqLimit) && decide (p.tqLimit ≤ 65535) && p.instrs.all (VInstr.ok p) &&
    p.descs.all (fun d => d.ok false false false) && decide ((p.instrs.filter (fun i => i.op == 0x3A)).length ≤ 8)

/-! ### Operands -/

/-- The byte of the store at which an operand begins. -/
def opndBase (s : Nat) : Nat :=
  if specKind s = 0 then 2048 * specLow s else 32768 + 262144 * (specLow s / 4096) + 64 * (specLow s % 4096)

/-- The codes of n elements of an operand and their format code: the lane's for a V register, the window's for a window. -/
def opndCodes (st : List Host.Cell) (i : VInstr) (s n : Nat) : Nat × List Nat :=
  match specKind s with
  | 0 => (i.laneCode, rowCodes i.laneCode n (getBytes st (opndBase s) (rowBytes i.laneCode n)))
  | 1 => (i.winCode, rowCodes i.winCode n (getBytes st (opndBase s) (rowBytes i.winCode n)))
  | _ => (i.laneCode, List.replicate n i.imm)

/-- A code in another format: the bits unchanged in the same format (R55), converted otherwise (R57). -/
def recode (f g c : Nat) : Nat := if f = g then c else convCode g (decodeFp (elemFmt f) c)

/-- R198: the lane codes of a source. -/
def srcCodes (st : List Host.Cell) (i : VInstr) (s n : Nat) : List Nat :=
  let p := opndCodes st i s n
  p.2.map (recode p.1 i.laneCode)

/-- The 32-bit integers of an index source. -/
def idxCodes (st : List Host.Cell) (i : VInstr) (s n : Nat) : List Nat :=
  if specKind s = 2 then List.replicate n i.imm else rowCodes 0 n (getBytes st (opndBase s) (4 * n))

/-- R198, R202: lane codes written to a destination. -/
def putLane (st : List Host.Cell) (i : VInstr) (s : Nat) (cs : List Nat) : List Host.Cell :=
  let f := if specKind s = 0 then i.laneCode else i.winCode
  putBytes st (opndBase s) (codeBytes f (cs.map (recode i.laneCode f)))

def putIdx (st : List Host.Cell) (s : Nat) (cs : List Nat) : List Host.Cell :=
  putBytes st (opndBase s) (cs.flatMap (leBytes 4))

/-! ### Lane arithmetic (R199, R208, R209) -/

def lane2 (f : FpFmt) (g : FVal → FVal → FVal) (a b : Nat) : Nat := codeNE f (g (decodeFp f a) (decodeFp f b))

def laneFma (f : FpFmt) (a b c : Nat) : Nat :=
  codeNE f (addExact (mulExact (decodeFp f a) (decodeFp f b)) (decodeFp f c))

/-- R208: the winner's bits; s1 wins a tie. -/
def laneMax (f : FpFmt) (isMax : Bool) (a b : Nat) : Nat :=
  let x := decodeFp f a
  let y := decodeFp f b
  if x.isNan then a else if y.isNan then b else if (if isMax then fvLt x y else fvLt y x) then b else a

def laneCmp (f : FpFmt) (t : Bool) : Nat := if t then codeNE f fpOne else 0

/-- R209: a transcendental, computed in FP32 and rounded to the lane format. -/
def laneFn (i : VInstr) (g : Word → Word) (c : Nat) : Nat :=
  recode 0 i.laneCode (g (BitVec.ofNat 32 (recode i.laneCode 0 c))).toNat

def chunks {α : Type} (n : Nat) : Nat → List α → List (List α)
  | 0, _ => []
  | k + 1, l => l.take n :: chunks n k (l.drop n)

/-- R213: the segments of a reduction. -/
def segments (aux : Nat) (l : List Nat) : List (List Nat) :=
  let g := segLen aux l.length
  chunks g (l.length / g) l

/-- R214: the sum of a segment; R54: a NaN of a segment of one element is delivered as the canonical NaN too. -/
def segSum (i : VInstr) (l : List Nat) : Nat :=
  codeNE i.lane (v32 (treeSum (l.map (fun c => BitVec.ofNat 32 (recode i.laneCode 0 c)))))

/-- R215: the winner of a segment, positions offset by imm. -/
def segBest (i : VInstr) (isMax : Bool) (l : List Nat) : Nat × Nat := bestOf i.lane isMax (withIdx i.imm l)

/-- R216: TOPK, padded with −infinity and index 0xFFFF_FFFF. -/
def laneTopK (i : VInstr) (l : List Nat) : List (Nat × Nat) :=
  let t := topK i.lane i.imm (withIdx 0 l)
  t ++ List.replicate (i.imm - t.length) (emptyBest i.lane true)

/-- R211: PERM, and whether an index was out of range. -/
def lanePerm (n : Nat) (src idx : List Nat) : List Nat × Bool :=
  (idx.map (fun x => if x < n then src.getD x 0 else 0), idx.any (fun x => decide (n ≤ x)))

/-- R217: the draws of TAPER. -/
def laneTaper (p : VecRun) (i : VInstr) : List Nat :=
  (List.range i.n).map (fun k => taper p.taperSeed p.taperStream i.imm 0 k)

/-- R218: the row of LD. A conversion is made once, from the descriptor's format to the destination's. -/
def vecLoad (p : VecRun) (st : List Host.Cell) (i : VInstr) : Run (List Host.Cell) := do
  match p.descs[specLow i.s2 % 16]? with
  | none => return st
  | some d => do
    let r ← d.readRow accVector i.imm i.n
    let f := if specKind i.dst = 0 then i.laneCode else i.winCode
    let cs := if d.fmt = f then r.1 else (rowVals d.fmt r.2 r.1).map (convCode f)
    return putBytes st (opndBase i.dst) (codeBytes f cs)

/-- R218, R219: the row of ST. -/
def vecStore (p : VecRun) (st : List Host.Cell) (i : VInstr) : Run Unit := do
  match p.descs[specLow i.s2 % 16]? with
  | none => return ()
  | some d => do
    let s := opndCodes st i i.s1 i.n
    if s.1 = d.fmt then
      noteVals (rowVals d.fmt [] s.2)
      d.writeCodes accVector i.imm (s.2, [])
    else d.writeVals accVector i.imm (rowVals s.1 [] s.2)

/-- R207: one instruction other than TQ_POP. -/
def vecStep (p : VecRun) (st : List Host.Cell) (i : VInstr) : Run (List Host.Cell) := do
  let n := i.n
  let f := i.lane
  let a := srcCodes st i i.s1 n
  let b := srcCodes st i i.s2 n
  let c := srcCodes st i i.s3 n
  let aux := specLow i.s2 % 16
  match i.op with
  | 0x01 => return putLane st i i.dst a
  | 0x02 => return putLane st i i.dst (a.zipWith (lane2 f addExact) b)
  | 0x03 => return putLane st i i.dst (a.zipWith (lane2 f (fun x y => addExact x y.neg)) b)
  | 0x04 => return putLane st i i.dst (a.zipWith (lane2 f mulExact) b)
  | 0x05 => return putLane st i i.dst (a.zipWith (fun x yz => laneFma f x yz.1 yz.2) (b.zip c))
  | 0x06 => return putLane st i i.dst (a.zipWith (laneMax f true) b)
  | 0x07 => return putLane st i i.dst (a.zipWith (laneMax f false) b)
  | 0x08 => return putLane st i i.dst (a.zipWith (fun x y => laneCmp f (fvLt (decodeFp f y) (decodeFp f x) && !(decodeFp f x).isNan && !(decodeFp f y).isNan)) b)
  | 0x09 => return putLane st i i.dst (a.zipWith (fun x y => laneCmp f (fvEq (decodeFp f x) (decodeFp f y))) b)
  | 0x0A => return putLane st i i.dst (a.zipWith (fun x yz => if (decodeFp f x).isZero then yz.2 else yz.1) (b.zip c))
  | 0x10 => return putLane st i i.dst (a.map (laneFn i exp2))
  | 0x11 => return putLane st i i.dst (a.map (laneFn i log2))
  | 0x12 => return putLane st i i.dst (a.map (laneFn i rcp32))
  | 0x13 => return putLane st i i.dst (a.map (laneFn i rsq32))
  | 0x18 => return putIdx st i.dst ((List.range n).map (fun k => (i.imm + k) % 2 ^ 32))
  | 0x19 => return putIdx st i.dst ((idxCodes st i i.s1 n).zipWith (fun x y => (x + y) % 2 ^ 32) (idxCodes st i i.s2 n))
  | 0x1A => return putLane st i i.dst ((idxCodes st i i.s1 n).map (fun x => codeNE f (.fin false x 0)))
  | 0x20 => do
    let r := lanePerm n a (idxCodes st i i.s2 n)
    modify (fun x => { x with perm := x.perm || r.2 })
    return putLane st i i.dst r.1
  | 0x28 => return putLane st i i.dst ((segments aux a).map (segSum i))
  | 0x29 =>
    let w := (segments aux a).map (segBest i true)
    return putIdx (putLane st i i.dst (w.map (·.1))) i.s3 (w.map (·.2))
  | 0x2A =>
    let w := (segments aux a).map (segBest i false)
    return putIdx (putLane st i i.dst (w.map (·.1))) i.s3 (w.map (·.2))
  | 0x2B =>
    let w := laneTopK i a
    return putIdx (putLane st i i.dst (w.map (·.1))) i.s3 (w.map (·.2))
  | 0x30 => return putIdx st i.dst (laneTaper p i)
  | 0x38 => vecLoad p st i
  | 0x39 => do
    vecStore p st i
    return st
  | _ => return st

/-- R203: instructions in order, up to a TQ_POP or the end. -/
def vecGo (p : VecRun) : List VInstr → VecCtx → Run VecCtx
  | [], v => return v
  | i :: t, v => do
    if i.op = 0x3A then return v
    else
      let st ← vecStep p v.store i
      vecGo p t { v with store := st, pc := v.pc + 1 }

/-- R232: the instructions that retire before one fails. -/
def vecRetired (p : VecRun) : List VInstr → List Host.Cell → Ctx → Nat
  | [], _, _ => 0
  | i :: t, st, x =>
    if i.op = 0x3A then 0
    else
      match vecStep p st i x with
      | .ok st x => 1 + vecRetired p t st x
      | .error _ _ => 0

/-- R222: a tile's committed image as cells of a tile buffer. -/
def tileCells (s : Spindle) (t : TqEntry) : List Host.Cell :=
  let cells (h e off : Nat) : List Host.Cell :=
    (tget HalfTile.empty s.acc h).img.flatMap (fun kv => cellsOf (kv.1 / 256 * 1024 + off + e * (kv.1 % 256)) (leBytes e kv.2))
  if t.fp16 then
    sortBy (fun a b => decide (a.1 < b.1)) (cells (2 * t.tile) 2 0 ++ cells (2 * t.tile + 1) 2 512)
  else cells (2 * t.tile) 4 0

/-- R221: the buffer after a pop. -/
def popInto (st : List Host.Cell) (s : Spindle) (i : VInstr) (t : TqEntry) : List Host.Cell :=
  if specKind i.dst = 1 then
    let base := 32768 + 262144 * (specLow i.dst / 4096)
    splice st base 262144 ((tileCells s t).map (fun kv => (base + kv.1, kv.2)))
  else st

/-! ### The commands (R196, R203, R221 to R224, R228) -/

/-- R197: whether an earlier vector command of the Spindle has been dispatched and has not ended. -/
def vecBusy (d : Dev) (e : Entry) : Bool :=
  d.live.any (fun x => [0x40, 0x41, 0x51, 0x52, 0x83].contains x.2.hdr.opcode && x.2.inFlight && decide (x.2.order < e.order) &&
    d.spindleOf x.2 == d.spindleOf e)

def vecStart : VecCtx := ⟨0, [], 0, 0⟩

/-- A vector program runs from its pc to the next TQ_POP, where it waits, or to its end. -/
def vecContinue (d : Dev) (c : CmdRef) (e : Entry) (p : VecRun) (v : VecCtx) (x : Ctx) : Dev :=
  let retire (d : Dev) (n : Nat) : Dev := d.modSpin (d.spindleOf e) (fun s => { s with vecInstr := (s.vecInstr + n) % 2 ^ 64 })
  match vecGo p (p.instrs.drop v.pc) v x with
  | .error f y => (retire d (vecRetired p (p.instrs.drop v.pc) v.store x)).ranFail c e f y
  | .ok v' x =>
    let d := retire d (v'.pc - v.pc)
    if v'.pc < p.instrs.length then
      let (e', n, d) := d.issuedRun c e x
      (d.countRun e 0 0 n).setPhase c (.running (.vec v' (runResult (okCounts 0 0 0) n e'.ce x)))
    else
      let sp := d.spindleOf e
      let eff := (if x.perm then [Effect.permRange sp] else []) ++ (if v'.taken = 0 then [] else [.tqRemove sp v'.taken])
      let k := okCounts v'.pc (if v'.taken = 0 then 0 else sat max32 (Config.waitCycles d.free)) v'.taken
      d.ranOk c e k { x with eff := eff.reverse ++ x.eff }

def doVecRun (d : Dev) (c : CmdRef) : Dev :=
  d.onPacket c (fun e =>
    match e.payload with
    | .vecRun p => if vecBusy d e then d else vecContinue d c e p vecStart (.start d c e)
    | _ => d)

/-- The context in which a waiting program goes on. -/
def resumeCtx (d : Dev) (c : CmdRef) (e : Entry) (r : Result) : Ctx :=
  ⟨d, c, e, r.effects.reverse, [], r.outInf, r.outNan, r.permRange⟩

/-- The number of the oldest entry that is not taken (R221). -/
def untaken (tq : List TqEntry) : Option (TqEntry × Nat) := (withIdx 0 tq).find? (fun t => !t.1.taken)

/-- R221, R223: a program that waits takes the oldest entry that it has not taken, and goes on. -/
def doTqPop (d : Dev) (c : CmdRef) : Dev :=
  match d.entry c with
  | none => d
  | some e =>
    match e.phase, e.payload with
    | .running (.vec v r), .vecRun p =>
      let sp := d.spindleOf e
      let s := d.spin sp
      (match p.instrs[v.pc]?, untaken s.tq with
        | some i, some (t, k) =>
          let s' := { s with tq := s.tq.modify k (fun t => { t with taken := true }), vecInstr := (s.vecInstr + 1) % 2 ^ 64 }
          let d := d.setSpin sp s'
          vecContinue d c e p { v with pc := v.pc + 1, store := popInto v.store s i t, taken := v.taken + 1 }
            (resumeCtx d c e r)
        | _, _ => d)
    | _, _ => d

/-- R224: the wait limit passes with no entry to take. -/
def doTqPopTimeout (d : Dev) (c : CmdRef) : Dev :=
  match d.entry c with
  | none => d
  | some e =>
    match e.phase with
    | .running (.vec _ r) =>
      if (untaken (d.spin (d.spindleOf e)).tq).isSome then d
      else d.ranFail c e ⟨stTqEmpty, none, none⟩ (resumeCtx d c e r)
    | _ => d

def vecTqFlushOk (count : Nat) (rsv : Bool) : Bool := rsv && decide (1 ≤ count) && decide (count ≤ 8)

/-- R228: how many entries the flush removes is decided at its commit point; a vector command that runs holds every taken
entry, and none runs beside it (R197). -/
def runTqFlush (sp count : Nat) : Run Counts := do
  hold (.tqRemove sp count)
  return okCounts count 0 0

def doVecTqFlush (d : Dev) (c : CmdRef) : Dev :=
  d.onPacket c (fun e =>
    match e.payload with
    | .vecTqFlush count _ => if vecBusy d e then d else d.run c e (runTqFlush (d.spindleOf e) count)
    | _ => d)

end Sys2Proof
end

