-- ==== Sys2Proof/Machine/Scoreboard.lean ====
section
/-! DEFINITION. What array commands name (R129 to R137), the accumulator tile scoreboard and the accumulation chains
(R119 to R122), and the space of the tile queue. -/

namespace Sys2Proof.Machine

/-- A product on the array, whatever command it came from: m rows, n columns, sums of k. `np` is N_pass, `u` the tiles per
output tile, `mt` the row tiles (R130); `tiles` is false for a command that names no tile. -/
structure ArrJob where
  mode : Nat
  m : Nat
  n : Nat
  k : Nat
  acc : Bool
  base : Nat
  foldEn : Bool
  foldBase : Nat
  drain : Nat
  seed : Nat
  wickId : Nat
  tiles : Bool
  shallow : Bool
  d : Desc
  deriving DecidableEq, Repr

def ArrJob.np (j : ArrJob) : Nat := 256 * 2 ^ j.mode
def ArrJob.u (j : ArrJob) : Nat := if j.mode = 0 then 1 else 2
def ArrJob.mt (j : ArrJob) : Nat := ceilDiv j.m 256

/-- R96, R130, R115: the half-tile that holds element (r, c) of the result; an FP32 image stands in an even half. -/
def ArrJob.half (j : ArrJob) (r c : Nat) : Nat :=
  if j.shallow then 2 * (j.base + c / 1024)
  else
    let h := 2 * (j.base + (c / j.np * j.mt + r / 256) * j.u)
    let blk := c % j.np / 256
    if j.mode = 2 then h + blk else h + 2 * blk

/-- The place of element (r, c) in its image. -/
def ArrJob.cell (j : ArrJob) (r c : Nat) : Nat :=
  if j.shallow then c % 1024 / 4 * 256 + c % 4 * 64 + r else r % 256 * 256 + c % 256

/-- R130: the half-tiles that a command names, each once. -/
def ArrJob.named (j : ArrJob) : List Nat :=
  if !j.tiles then []
  else if j.shallow then (List.range (ceilDiv j.n 1024)).map (fun t => 2 * (j.base + t))
  else sortNat ((List.range j.mt).flatMap (fun i => (List.range (ceilDiv j.n 256)).map (fun b => j.half (256 * i) (256 * b))))

/-- R130: the fold target of a half-tile. -/
def ArrJob.foldOf (j : ArrJob) (h : Nat) : Nat := j.foldBase + h - 2 * j.base

/-- Whether the images of a job are FP16 partials. -/
def ArrJob.isF16 (j : ArrJob) : Bool := j.mode == 2 && !j.shallow

/-- The tiles that a TQ drain posts, in ascending order (R131). DESIGN CHOICE (log entry 160): a command that folds posts its
fold targets, which are its result (R71), and not the half-tiles that it leaves at +0. -/
def ArrJob.posts (j : ArrJob) : List Nat :=
  sortNat (if j.foldEn then j.named.map j.foldOf else j.named.map (· / 2))

/-- What a command does to a half-tile (R121); `fold` is that of a fold target, which a command that accumulates adds to and
one that writes overwrites (R70). -/
inductive AccRole where
  | write | over | accumulate | read
  | fold (acc : Bool)
  deriving DecidableEq, Repr

def ArrJob.uses (j : ArrJob) : List (Nat × AccRole) :=
  let role := if j.acc then AccRole.accumulate else .write
  (j.named.flatMap (fun h => if j.isF16 then [(h, role)] else [(h, role), (h + 1, role)])) ++
    (if j.foldEn then j.named.flatMap (fun h => [(2 * j.foldOf h, AccRole.fold j.acc), (2 * j.foldOf h + 1, AccRole.fold j.acc)]) else [])

/-- R129: the product of ARR_MATMUL or ARR_STREAM. -/
def matmulJob (p : Matmul) (stream : Bool) : ArrJob :=
  { mode := p.ctl % 4, m := p.m, n := p.n, k := p.k, acc := bit p.ctl 3, base := p.accBase, foldEn := bit p.fold 7,
    foldBase := p.fold % 16, drain := p.drain % 4, seed := p.roundSeed, wickId := p.wickId, tiles := !stream,
    shallow := false, d := p.d }

/-- R133: the product of ARR_SHALLOW, with t tokens as rows and n features as columns. -/
def shallowJob (p : Matmul) : ArrJob :=
  { mode := p.ctl % 4, m := p.m, n := p.n, k := p.k, acc := bit p.ctl 3, base := p.accBase, foldEn := false,
    foldBase := 0, drain := p.drain % 4, seed := p.roundSeed, wickId := p.wickId, tiles := decide (p.n ≤ 16384),
    shallow := true, d := p.d }

/-- R109: the output height or width of a convolution. -/
def convOut (size padA padB dil win stride : Nat) : Nat := (size + padA + padB - dil * (win - 1) - 1) / stride + 1

def ConvP (g : ConvGeom) : Nat := convOut g.inH g.padT g.padB g.dilH g.winR g.strideH
def ConvQ (g : ConvGeom) : Nat := convOut g.inW g.padL g.padR g.dilW g.winS g.strideW

/-- R109, R132: the product of ARR_CONV. -/
def convJob (g : ConvGeom) (ctl accBase fold drain seed wickId : Nat) (d : Desc) : ArrJob :=
  { mode := ctl % 4, m := g.mCount, n := g.n, k := g.winR * g.winS * g.inC, acc := bit ctl 3, base := accBase,
    foldEn := bit fold 7, foldBase := fold % 16, drain := drain % 4, seed := seed, wickId := wickId,
    tiles := decide (g.mCount ≤ 4096), shallow := false, d := d }

/-- R110, R111: the product of one quadrant. -/
def quadJob (mode seed : Nat) (b : QuadBlock) : ArrJob :=
  { mode := mode, m := b.m, n := b.n, k := b.k, acc := bit b.acc 0, base := b.tile, foldEn := false, foldBase := 0,
    drain := 0, seed := seed, wickId := 0, tiles := true, shallow := false, d := b.a }

/-- The products of ARR_QUAD that are present, in quadrant order. -/
def quadJobs (mode mask seed : Nat) (blocks : List QuadBlock) : List (QuadBlock × ArrJob) :=
  (withIdx 0 blocks).filterMap (fun p => if bit mask p.2 then some (p.1, quadJob mode seed p.1) else none)

/-- R111: the half-tiles of a quadrant: N_pass is 128 × L, so mode 1 never reaches a second tile. -/
def quadNamed (j : ArrJob) : List Nat := if j.mode = 2 ∧ 256 < j.n then [2 * j.base, 2 * j.base + 1] else [2 * j.base]

/-- R135: the half-tiles of an ARR_ACC command, an FP32 image standing in its tile's even half. -/
def accHalves (tile count half : Nat) : List Nat :=
  if half = 1 then List.range' tile count else (List.range' tile count).map (2 * ·)

/-- R135: the tiles that POST posts. -/
def accPosts (tile count half : Nat) : List Nat :=
  if half = 1 then sortNat ((List.range' tile count).map (· / 2)) else List.range' tile count

/-- What an array command does to the half-tiles it names. DESIGN CHOICE (log entry 153): R121 has no row for POST; it reads
the tiles that it posts. -/
def accUses : Payload → List (Nat × AccRole)
  | .arrMatmul p => (matmulJob p false).uses
  | .arrStream p => (matmulJob p true).uses
  | .arrShallow p => (shallowJob p).uses
  | .arrConv _ _ g ctl ab fo dr seed wid d _ => (convJob g ctl ab fo dr seed wid d).uses
  | .arrQuad mode mask seed blocks _ =>
    (quadJobs mode mask seed blocks).flatMap (fun p =>
      let role := if p.2.acc then AccRole.accumulate else .write
      (quadNamed p.2).flatMap (fun h => if mode = 2 then [(h, role)] else [(h, role), (h + 1, role)]))
  | .arrAcc op tile count half _ _ =>
    let role := if op < 2 then AccRole.over else .read
    (accHalves tile count half).flatMap (fun h => if half = 1 then [(h, role)] else [(h, role), (h + 1, role)])
  | _ => []

/-- The tile-queue entries that an array command posts at its commit. -/
def accPostsOf : Payload → List Nat
  | .arrMatmul p => if p.drain % 4 = 2 then (matmulJob p false).posts else []
  | .arrConv _ _ g ctl ab fo dr seed wid d _ => if dr % 4 = 2 then (convJob g ctl ab fo dr seed wid d).posts else []
  | .arrAcc 3 tile count half _ _ => accPosts tile count half
  | _ => []

def AccRole.writes : AccRole → Bool
  | .read => false
  | _ => true

/-- R121: whether a later use of a tile waits for every earlier command that names it: an overwrite, or the fold of a command
that writes. -/
def AccRole.overwrites : AccRole → Bool
  | .write => true
  | .over => true
  | .fold acc => !acc
  | _ => false

/-- R121: whether any later use of a tile waits for a use of it: a fold target's. -/
def AccRole.folds : AccRole → Bool
  | .fold _ => true
  | _ => false

def isArrOpcode (op : Nat) : Bool := decide (0x20 ≤ op) && decide (op ≤ 0x25)

/-- The array commands of a Spindle that have been dispatched and have not ended, in order of issue. One that is held for
re-run has given its position up (R272). -/
def Dev.arrFlight (d : Dev) (sp : Nat) : List Entry :=
  sortBy (fun a b => decide (a.order < b.order))
    ((d.live.map (·.2)).filter (fun e => isArrOpcode e.hdr.opcode && e.inFlight && !e.isHeld && d.spindleOf e == sp))

/-- The tiles with an entry in the tile queue, or with one that a finished command will post. -/
def Dev.postedTiles (d : Dev) (sp : Nat) : List Nat :=
  (d.spin sp).tq.map (·.tile) ++ (d.arrFlight sp).flatMap (fun e => if e.isRan then accPostsOf e.payload else [])

/-- The images that the commands in flight on a Spindle have made, in order of issue. -/
def Dev.madeHalves (d : Dev) (sp : Nat) : List (Nat × HalfTile) :=
  (d.arrFlight sp).flatMap (fun e => match e.phase with
    | .ran r => r.effects.filterMap (fun x => match x with
      | .half s i v => if s = sp then some (i, v) else none
      | .work s i v => if s = sp then some (i, v) else none
      | _ => none)
    | _ => [])

/-- R119: the images that a command finds: those of the earlier commands in flight over the committed ones. -/
def Dev.workingAcc (d : Dev) (sp : Nat) : Tbl HalfTile :=
  (d.madeHalves sp).foldl (fun t p => putHalf t p.1 p.2) (d.spin sp).acc

/-- R119: the half-tile that a command reads. -/
def Dev.workingHalf (d : Dev) (sp h : Nat) : HalfTile := tget HalfTile.empty (d.workingAcc sp) h

/-- R120, R121: whether an array command may issue now, and then the finished commands whose chain it joins. -/
def Dev.accIssue (d : Dev) (sp : Nat) (e : Entry) : Option (List Entry) :=
  let uses := accUses e.payload
  let flight := (d.arrFlight sp).filter (fun x => x.ref != e.ref && (decide (x.order < e.order) || x.isRan))
  let posted := d.postedTiles sp
  if flight.any (fun x => decide (x.order < e.order) && !x.isRan) then none
  else if uses.any (fun u => flight.any (fun x => (accUses x.payload).any (fun v =>
      v.1 == u.1 && (v.2.folds || u.2.overwrites)))) then none
  else if uses.any (fun u => u.2.writes && posted.contains (u.1 / 2)) then none
  else if 8 < posted.length + (accPostsOf e.payload).length then none
  else
    let joined := flight.filter (fun x => (accUses x.payload).any (fun v => v.2.writes && uses.any (fun u => u.1 == v.1)))
    let chains := joined.filterMap (·.chain)
    let members := flight.filter (fun x => joined.any (fun y => y.ref == x.ref) || (match x.chain with
      | some n => chains.contains n
      | none => false))
    if 4 ≤ members.length then none else some members

/-- R120: the command and the members that it meets become one chain. -/
def Dev.joinChain (d : Dev) (c : CmdRef) (members : List Entry) : Dev :=
  if members.isEmpty then d
  else
    let n := d.qs.nextChain
    let d := { d with qs := { d.qs with nextChain := n + 1 } }
    d.mapEntries (fun e => if e.ref == c || members.any (fun m => m.ref == e.ref) then { e with chain := some n } else e)

/-- R68: the product count that an accumulating command finds (R663: zero in another form). -/
def Dev.startCount (d : Dev) (sp h : Nat) (f16 : Bool) : Nat :=
  let v := d.workingHalf sp h
  if f16 then (if v.fp16 then v.count else 0)
  else if v.fp16 || (d.workingHalf sp (h + 1)).fp16 then 0 else v.count

/-- R663: the image that an accumulating command finds, +0 everywhere in another form. -/
def Dev.startImg (d : Dev) (sp h : Nat) (f16 : Bool) : Tbl Nat :=
  let v := d.workingHalf sp h
  if f16 then (if v.fp16 then v.img else [])
  else if v.fp16 || (d.workingHalf sp (h + 1)).fp16 then [] else v.img

/-- R68: a job without a fold target that would raise a half-tile's count above 4,096. -/
def Dev.segmentBreach (d : Dev) (sp : Nat) (j : ArrJob) (named : List Nat) : Bool :=
  j.isF16 && !j.foldEn &&
    (if j.acc then named.any (fun h => decide (4096 < d.startCount sp h true + j.k)) else decide (4096 < j.k))

end Sys2Proof.Machine
end

