-- ==== Sys2Proof/Machine/Array.lean ====
section
/-! DEFINITION. The matrix array: its sums of products (R63 to R71), the operands of its commands (R108, R109, R113), its
drains (R131) and ARR_ACC (R135). -/

namespace Sys2Proof.Machine

/-! ### Checks at submission (R129 to R137) -/

/-- R61, R62. -/
def pairOk (mode fa fb : Nat) : Bool :=
  match mode with
  | 0 => fa == fb && (fa == 1 || fa == 2)
  | 1 => is8bit fa && is8bit fb
  | 2 => is8bit fa && is8bit fb
  | _ => false

/-- R67, R130, R137: the named tiles and the fold tiles lie in 0 to 15 and do not meet. -/
def ArrJob.tilesOk (j : ArrJob) : Bool :=
  let named := j.named
  let folds := if j.foldEn then named.map j.foldOf else []
  named.all (fun h => decide (h / 2 < 16)) && folds.all (fun t => decide (t < 16)) &&
    !named.any (fun h => folds.contains (h / 2)) && decide (nodupNat folds = folds)

/-- R129, R131, R137: what the drain asks of a job. -/
def ArrJob.drainOk (j : ArrJob) : Bool :=
  match j.drain with
  | 1 => j.d.ok false false false && j.d.innerOk j.n
  | 2 => j.d.isZero && decide (j.posts.length ≤ 8)
  | _ => j.d.isZero

/-- R68, R129: the field checks that every array product shares; ctl, acc_base and fold keep their reserved bits. DEDUCED (log
entry 154): the first fold tile, which is of mode 2 only, is looked at with fold_en alone. -/
def ArrJob.fieldsOk (j : ArrJob) (ctl accBase fold drain : Nat) : Bool :=
  ctl / 16 == 0 && !bit ctl 2 && decide (accBase < 16) && bits fold 6 4 == 0 && decide (drain < 4) && decide (j.mode < 3) &&
    decide (1 ≤ j.n) && decide (1 ≤ j.m) && decide (1 ≤ j.k) && (j.mode == 2 || !j.foldEn) && j.tilesOk && j.drainOk &&
    (!j.isF16 || j.foldEn || j.acc || decide (j.k ≤ 4096))

def Desc.operandOk (d : Desc) (k : Nat) : Bool := Desc.ok d false false true && Desc.innerOk d k

/-- R129, R137. -/
def matmulOk (p : Matmul) (stream : Bool) : Bool :=
  let j := matmulJob p stream
  j.fieldsOk p.ctl p.accBase p.fold p.drain && p.rsv == 0 && Desc.operandOk p.a p.k && Desc.operandOk p.b p.k &&
    pairOk j.mode p.a.fmt p.b.fmt &&
    (if stream then decide (p.m ≤ 16777216) && decide (p.k ≤ 256) && !j.acc && p.accBase == 0 && !j.foldEn &&
        (j.drain == 1 || j.drain == 3)
      else decide (p.m ≤ 4096) && decide (p.k ≤ 16777216))

/-- R132, R137: the ranges of the geometry and of the operands of a convolution; the input's row_stride is ignored. DESIGN
CHOICE (log entry 155): the manual bounds neither m_start + m_count nor the dilated window; output rows past the last one, and
a window larger than the padded input, are fields out of range. -/
def convOk (x f : Desc) (g : ConvGeom) (ctl accBase fold drain seed wickId : Nat) (d : Desc) : Bool :=
  let j := convJob g ctl accBase fold drain seed wickId d
  j.fieldsOk ctl accBase fold drain && Desc.ok { x with rowStride := 0 } false false false && Desc.innerOk x g.inC &&
    Desc.ok f false false true && Desc.innerOk f g.inC && pairOk j.mode x.fmt f.fmt && g.rsv == 0 &&
    [g.batch, g.inH, g.inW, g.inC].all (fun v => decide (1 ≤ v)) &&
    [g.winR, g.winS].all (fun v => decide (1 ≤ v) && decide (v ≤ 7)) &&
    [g.strideH, g.strideW, g.dilH, g.dilW].all (fun v => decide (1 ≤ v) && decide (v ≤ 8)) &&
    [g.padT, g.padB, g.padL, g.padR].all (fun v => decide (v ≤ 15)) &&
    decide (g.dilH * (g.winR - 1) + 1 ≤ g.inH + g.padT + g.padB) &&
    decide (g.dilW * (g.winS - 1) + 1 ≤ g.inW + g.padL + g.padR) &&
    decide (g.mStart + g.mCount ≤ g.batch * ConvP g * ConvQ g) &&
    (decide (g.mCount ≤ 4096) || (decide (g.mCount ≤ 16777216) && decide (j.k ≤ 256) && (j.drain == 1 || j.drain == 3)))

/-- R133, R137. -/
def shallowOk (p : Matmul) : Bool :=
  let j := shallowJob p
  j.fieldsOk p.ctl p.accBase 0 p.drain && p.fold == 0 && p.rsv == 0 && Desc.operandOk p.a p.k && Desc.operandOk p.b p.k &&
    pairOk j.mode p.a.fmt p.b.fmt && decide (p.m ≤ 64) && decide (p.k ≤ 16777216) && j.drain != 2 &&
    (decide (p.n ≤ 16384) || (decide (p.n ≤ 16777216) && decide (p.k ≤ 1024 * 2 ^ j.mode) && (j.drain == 1 || j.drain == 3)))

/-- R111, R134, R137: a quadrant's own fields. -/
def quadBlockOk (b : QuadBlock) (j : ArrJob) : Bool :=
  decide (1 ≤ b.m) && decide (b.m ≤ 256) && decide (1 ≤ b.n) && decide (b.n ≤ 128 * 2 ^ j.mode) && decide (1 ≤ b.k) &&
    decide (b.k ≤ 16777216) && b.acc / 2 == 0 && decide (b.tile < 16) && b.rsv == 0 && Desc.operandOk b.a b.k &&
    Desc.operandOk b.b b.k && pairOk j.mode b.a.fmt b.b.fmt && (j.mode != 2 || j.acc || decide (b.k ≤ 4096))

/-- R134, R137. DESIGN CHOICE (log entry 156): a mask that names no quadrant is a field out of range. -/
def quadOk (mode mask seed : Nat) (blocks : List QuadBlock) : Bool :=
  let js := quadJobs mode mask seed blocks
  decide (mode < 3) && decide (1 ≤ mask) && js.all (fun p => quadBlockOk p.1 p.2) &&
    decide (nodupNat (js.map (·.2.base)) = js.map (·.2.base))

/-- R135, R137. -/
def accOk (op tile count half : Nat) (d : Desc) : Bool :=
  decide (op ≤ 3) && decide (1 ≤ count) && decide (count ≤ 16) && decide (tile + count ≤ if half = 1 then 32 else 16) &&
    (op != 3 || decide ((accPosts tile count half).length ≤ 8)) &&
    (match op with
      | 1 => Desc.ok d false false true
      | 2 => Desc.ok d false false false
      | _ => true)

/-! ### Sums of products (R59, R60, R63, R64, R69 to R71) -/

/-- R64 with rounding to FP32. -/
def sum32 : Word → List (FVal × FVal) → Word
  | s, [] => s
  | s, (a, b) :: t => sum32 (rne32 (addExact (v32 s) (productTerm a b))) t

/-- An FP16 sum: its value, its product count, its fold target's value, the folds so far. -/
structure Sum16 where
  s : FVal
  count : Nat
  f : Word
  folds : Nat
  deriving DecidableEq, Repr

/-- R69: one fold. -/
def Sum16.fold (x : Sum16) : Sum16 :=
  { s := fpZero, count := 0, f := rne32 (addExact (v32 x.f) x.s), folds := x.folds + 1 }

/-- R59, R60, R64: one product of an FP16 sum, after the fold of a full segment (R69). -/
def Sum16.add (seed elem : Nat) (foldEn : Bool) (x : Sum16) (k : Nat) (p : FVal × FVal) : Sum16 :=
  let x := if foldEn = true ∧ 4096 ≤ x.count then x.fold else x
  { x with s := roundStochastic fp16 (taper seed 1 0 k elem % 4096) (addExact x.s (productTerm p.1 p.2)), count := x.count + 1 }

/-- The products of an FP16 sum in ascending order, and the fold of the remainder. -/
def sum16 (seed elem : Nat) (foldEn : Bool) : Nat → Sum16 → List (FVal × FVal) → Sum16
  | _, x, [] => if foldEn = true ∧ 0 < x.count then x.fold else x
  | k, x, p :: t => sum16 seed elem foldEn (k + 1) (Sum16.add seed elem foldEn x k p) t

/-- The result element (r, c) of a job: its code, and the folds of its half-tile. `img` and `fimg` give the values that the
half-tile and the fold target hold, `count` the half-tile's product count. -/
def ArrJob.element (j : ArrJob) (r c count : Nat) (img fimg : Tbl Nat) (ps : List (FVal × FVal)) : Nat × Nat :=
  let x := j.cell r c
  if j.shallow = true ∧ j.mode = 2 then
    let z := sum16 j.seed (r * 256 + c) true 0
      { s := fpZero, count := 0, f := if j.acc then BitVec.ofNat 32 (tget 0 img x) else 0, folds := 0 } ps
    (z.f.toNat, z.folds)
  else if j.mode = 2 then
    let s := if j.acc then v16 (tget 0 img x) else fpZero
    let f : Word := if j.acc = true ∧ j.foldEn = true then BitVec.ofNat 32 (tget 0 fimg x) else 0
    let z := sum16 j.seed (r * 256 + c) j.foldEn 0 { s := s, count := count, f := f, folds := 0 } ps
    if j.foldEn then (z.f.toNat, z.folds) else (encodeFp fp16 z.s, 0)
  else ((sum32 (if j.acc then BitVec.ofNat 32 (tget 0 img x) else 0) ps).toNat, 0)

/-! ### The images and the results of a job -/

/-- The format of a job's result rows. -/
def ArrJob.resFmt (j : ArrJob) : FpFmt := if j.isF16 && !j.foldEn then fp16 else fp32

/-- What a job finds in the accumulator: by half-tile, the count, the image and the fold target's image. -/
def ArrJob.found (j : ArrJob) (d : Dev) (sp : Nat) (named : List Nat) : Tbl (Nat × Tbl Nat × Tbl Nat) :=
  named.map (fun h =>
    (h, if j.acc then d.startCount sp h j.isF16 else 0, if j.acc then d.startImg sp h j.isF16 else [],
      if j.acc && j.foldEn then d.startImg sp (2 * j.foldOf h) false else []))

/-- The result rows: the codes of row r in column order. -/
def ArrJob.compute (j : ArrJob) (found : Tbl (Nat × Tbl Nat × Tbl Nat)) (half : Nat → Nat → Nat) (a b : List (List FVal)) :
    List (List Nat) :=
  (withIdx 0 a).map (fun ra =>
    (withIdx 0 b).map (fun cb =>
      let z := tget (0, [], []) found (half ra.2 cb.2)
      (j.element ra.2 cb.2 z.1 z.2.1 z.2.2 (ra.1.zip cb.1)).1))

/-- The cells of a half-tile that the result rows give. -/
def ArrJob.cellsIn (j : ArrJob) (half : Nat → Nat → Nat) (h : Nat) (rows : List (List Nat)) : List (Nat × Nat) :=
  (withIdx 0 rows).flatMap (fun rr =>
    (withIdx 0 rr.1).filterMap (fun cc => if half rr.2 cc.2 = h then some (j.cell rr.2 cc.2, cc.1) else none))

def imgWith (img : Tbl Nat) (cells : List (Nat × Nat)) : Tbl Nat := cells.foldl (fun t kv => tput 0 t kv.1 kv.2) img

/-- The image that a job writes over: a write keeps the other elements of a half-tile of the same form (R71, R663). -/
def ArrJob.under (j : ArrJob) (d : Dev) (sp h : Nat) : Tbl Nat := d.startImg sp h j.isF16

/-- R74: a product count saturates. -/
def countMax : Nat := 0x3FFFFFFF

/-- R66, R71: the images that a job leaves, by half-tile; what becomes of the rest of their tiles is the commit's (R663). -/
def ArrJob.images (j : ArrJob) (d : Dev) (sp : Nat) (named : List Nat) (half : Nat → Nat → Nat) (rows : List (List Nat)) :
    List (Nat × HalfTile) :=
  named.flatMap (fun h =>
    let count := if j.acc then d.startCount sp h j.isF16 else 0
    let cells := j.cellsIn half h rows
    if j.foldEn then
      let t := 2 * j.foldOf h
      let old := if j.acc then d.startCount sp t false else 0
      [(h, ⟨true, 0, []⟩), (t, ⟨false, sat countMax (old + count + j.k), imgWith (d.startImg sp t false) cells⟩)]
    else [(h, ⟨j.isF16, sat countMax (count + j.k), imgWith (j.under d sp h) cells⟩)])

/-- R72: whether a job leaves a count above 2^20 on an FP32 tile or a fold target. -/
def longSum (imgs : List (Nat × HalfTile)) : Bool := imgs.any (fun p => !p.2.fp16 && decide (2 ^ 20 < p.2.count))

/-- The folds of a job (R240). DESIGN CHOICE (log entry 157): a mode-2 ARR_SHALLOW folds every segment of its sums together, so
its folds are counted once for the command. -/
def ArrJob.folds (j : ArrJob) (d : Dev) (sp : Nat) (named : List Nat) : Nat :=
  if j.foldEn then (named.map (fun h => ceilDiv ((if j.acc then d.startCount sp h true else 0) + j.k) 4096)).sum
  else if j.shallow = true ∧ j.mode = 2 then ceilDiv j.k 4096
  else 0

/-- R100: the product indices at which passes end, for a job whose half-tiles start at the given counts. DESIGN CHOICE (log
entry 158): a segment boundary adds an end and leaves the others at the multiples of K_pass. -/
def ArrJob.passEnds (j : ArrJob) (counts : List Nat) : Nat :=
  let kp := if j.shallow then 1024 * 2 ^ j.mode else 256
  let plain := ceilDiv j.k kp
  let segs :=
    if j.foldEn then
      nodupNat (counts.flatMap (fun c => (List.range (ceilDiv (c + j.k) 4096)).filterMap (fun i =>
        let at' := 4096 * (i + 1) - c
        if c ≤ 4096 * (i + 1) ∧ 0 < at' ∧ at' < j.k ∧ at' % kp ≠ 0 then some at' else none)))
    else []
  plain + segs.length

/-- The passes of a job: K outer, column tiles inner (R100, R130). -/
def ArrJob.passes (j : ArrJob) (d : Dev) (sp : Nat) (named : List Nat) : Nat :=
  j.passEnds (named.map (fun h => if j.acc then d.startCount sp h j.isF16 else 0)) *
    if j.shallow then 1 else ceilDiv j.n j.np

/-! ### Operands (R109) -/

/-- R109: the moving operand of a convolution, row m_start + r. DESIGN CHOICE (log entry 155): the scales of an MX input lie
packed in NHWC order from scale_va, and scale_stride is ignored with row_stride. -/
def convRowAt (x : Desc) (g : ConvGeom) (r : Nat) : Run (List FVal) := do
  let m := g.mStart + r
  let q := ConvQ g
  let p := ConvP g
  let rows ← (List.range g.winR).mapM (fun i => (List.range g.winS).mapM (fun s =>
    let h : Int := ((m / q % p * g.strideH + i * g.dilH : Nat) : Int) - (g.padT : Int)
    let w : Int := ((m % q * g.strideW + s * g.dilW : Nat) : Int) - (g.padL : Int)
    if 0 ≤ h ∧ h < (g.inH : Int) ∧ 0 ≤ w ∧ w < (g.inW : Int) then do
      let e := ((m / (p * q) * g.inH + h.toNat) * g.inW + w.toNat) * g.inC
      let bs ← readVa accFeeder (x.va + e * elemBits x.fmt / 8) (rowBytes x.fmt g.inC)
      let sc ← if isMx x.fmt then readVa accFeeder (x.scaleVa + e / 32) (ceilDiv g.inC 32) else pure []
      return rowVals x.fmt sc (rowCodes x.fmt g.inC bs)
    else pure (List.replicate g.inC fpZero)))
  return rows.flatten.flatten

/-! ### Drains (R131, R291 to R293) -/

/-- R293: bytes of a Wick element of a role, the slice width of a role, the padded rows. -/
def WickLive.eT (w : WickLive) : Nat := elemBits w.desc.fmtT / 8
def WickLive.eS (w : WickLive) : Nat := elemBits w.desc.fmtS / 8
def WickLive.vT (w : WickLive) : Nat := w.desc.vocabT / w.members
def WickLive.vS (w : WickLive) : Nat := w.desc.vocabS / w.members
def WickLive.rPad (w : WickLive) : Nat := 256 * ceilDiv w.desc.rows 256
def WickLive.frameVa (w : WickLive) (mb : Nat) : Nat := w.desc.va + mb % w.desc.depth * w.f * pageBytes

/-- R293: the virtual address of element (i, col) of a role's logit area in the frame of a micro-batch. -/
def WickLive.logitVa (w : WickLive) (mb role i col : Nat) : Nat :=
  if role = 0 then w.frameVa mb + (i * w.vT + col) * w.eT
  else w.frameVa mb + w.rPad * w.vT * w.eT + (i * w.vS + col) * w.eS

/-- R291: the fields of wick_id. -/
def wickCb (id : Nat) : Nat := bits id 31 22
def wickMb (id : Nat) : Nat := bits id 21 10
def wickRole (id : Nat) : Nat := bits id 9 8
def wickIdx (id : Nat) : Nat := bits id 3 0

def Dev.wickLive (d : Dev) (part idx : Nat) : Option WickLive := tfind d.wick.descs (16 * part + idx)

/-- R291: result rows written into a frame, converted to the role's tile format. -/
def drainWick (part id : Nat) (fmt : FpFmt) (rows : List (List Nat)) : Run Unit := do
  match (← getDev).wickLive part (wickIdx id) with
  | none => failWith stBadParam
  | some w => do
    let role := wickRole id
    let f := if role = 0 then w.desc.fmtT else w.desc.fmtS
    let _ ← (withIdx 0 rows).mapM (fun rr => do
      let cs := rr.1.map (fun c => convCode f (decodeFp fmt c))
      noteVals (cs.map (decodeFp (elemFmt f)))
      writeVa { accDrain with wickOk := true } (w.logitVa (wickMb id) role rr.2 (256 * wickCb id)) (codeBytes f cs))
    let n := (rows.headD []).length
    hold (.wickBlocks part (wickIdx id) (wickMb id) role (List.range' (wickCb id) (n / 256)))

/-- R131: what becomes of the result rows. -/
def ArrJob.drainRows (j : ArrJob) (e : Entry) (rows : List (List Nat)) : Run Unit :=
  let f := j.resFmt
  match j.drain with
  | 1 => do
    let _ ← (withIdx 0 rows).mapM (fun rr => j.d.writeVals accDrain rr.2 (rr.1.map (decodeFp f)))
    pure ()
  | 3 => drainWick e.hdr.part j.wickId f rows
  | _ => noteVals (rows.flatten.map (decodeFp f))

/-- The images, held as committed images where the drain leaves them in the tiles, as working images elsewhere, and the
posts of a TQ drain. -/
def ArrJob.holdImages (j : ArrJob) (sp : Nat) (imgs : List (Nat × HalfTile)) : Run Unit := do
  if j.drain = 1 ∨ j.drain = 3 then holdAll (imgs.map (fun p => .work sp p.1 p.2))
  else holdAll (imgs.map (fun p => .half sp p.1 p.2))
  if j.drain = 2 then holdAll (j.posts.map (fun t => .tqPost sp t (j.isF16 && !j.foldEn))) else pure ()

/-- The run of one product: its operands read, its sums formed, its drain held. -/
def ArrJob.run (j : ArrJob) (sp : Nat) (named : List Nat) (half : Nat → Nat → Nat) (a b : List (List FVal)) : Run Bool := do
  let d ← getDev
  let rows := j.compute (j.found d sp named) half a b
  let imgs := j.images d sp named half rows
  j.drainRows (← get).entry rows
  j.holdImages sp imgs
  return (j.drain = 0 || j.drain = 2) && longSum imgs

/-- R240: the counters of an array command; of the frozen cycles only those that its folds take are fixed. -/
def ArrJob.counts (j : ArrJob) (d : Dev) (sp : Nat) (named : List Nat) (long : Bool) : Counts :=
  let folds := j.folds d sp named
  let frozen := (if j.shallow then 0 else folds * ceilDiv j.m 2) + Config.waitCycles d.free
  { status := if long then stLongSum else stOk, c0 := sat max32 frozen, c1 := j.passes d sp named, c2 := folds }

def runJob (j : ArrJob) (sp : Nat) (a b : Run (List (List FVal))) : Run Counts := do
  let d ← getDev
  let av ← a
  let bv ← b
  let long ← j.run sp j.named j.half av bv
  return j.counts d sp j.named long

def runMatmul (sp : Nat) (p : Matmul) (stream : Bool) : Run Counts :=
  runJob (matmulJob p stream) sp (p.a.readMat accFeeder p.m p.k) (p.b.readMat accFeeder p.n p.k)

def runConv (sp : Nat) (x f : Desc) (g : ConvGeom) (j : ArrJob) : Run Counts :=
  runJob j sp ((List.range g.mCount).mapM (convRowAt x g)) (f.readMat accFeeder g.n j.k)

def runShallow (sp : Nat) (p : Matmul) : Run Counts :=
  runJob (shallowJob p) sp (p.a.readMat accFeeder p.m p.k) (p.b.readMat accFeeder p.n p.k)

/-- R110: quadrants run one after the other on what each finds; they name distinct tiles. -/
def runQuad (sp mode mask seed : Nat) (blocks : List QuadBlock) : Run Counts := do
  let d ← getDev
  let rs ← (quadJobs mode mask seed blocks).mapM (fun p => do
    let a ← p.1.a.readMat accFeeder p.1.m p.1.k
    let b ← p.1.b.readMat accFeeder p.1.n p.1.k
    let half := fun (_ c : Nat) => 2 * p.2.base + if mode = 2 then c / 256 else 0
    let long ← p.2.run sp (quadNamed p.2) half a b
    return (long, ceilDiv p.1.k 128))
  return { status := if rs.any (·.1) then stLongSum else stOk, c0 := sat max32 (Config.waitCycles d.free), c1 := (rs.map (·.2)).sum,
           c2 := 0 }

/-! ### ARR_ACC (R135) -/

/-- The image that a ZERO or LOAD writes, its product count zero. -/
def accWrite (sp h half : Nat) (img : Tbl Nat) : Effect := .half sp h ⟨half == 1, 0, img⟩

def runAccZero (sp tile count half : Nat) : Run Counts := do
  holdAll ((accHalves tile count half).map (fun h => accWrite sp h half []))
  return okCounts count 0 0

/-- The format of the images that ARR_ACC names. -/
def accFmt (half : Nat) : Nat := if half = 1 then 1 else 0

/-- LOAD: tile i takes rows 256 i to 256 i + 255 of the descriptor's matrix. -/
def runAccLoad (sp tile count half : Nat) (m : Desc) : Run Counts := do
  let _ ← (withIdx 0 (accHalves tile count half)).mapM (fun hi => do
    let rows ← (List.range 256).mapM (fun r => m.readAs { accDrain with write := false } (256 * hi.2 + r) 256 (accFmt half))
    let codes := rows.flatten
    noteVals (codes.map (decodeFp (elemFmt (accFmt half))))
    let img := (withIdx 0 codes).filterMap (fun p => if p.1 = 0 then none else some (p.2, p.1))
    hold (accWrite sp hi.1 half img))
  return okCounts count 0 0

/-- Whether a half-tile holds what ARR_ACC reads: an FP32 image; an FP16 partial, or, unused or never written, +0 in every
element (R663). -/
def accForm (d : Dev) (sp h half : Nat) : Bool :=
  let halves := inHalves (d.workingAcc sp) h
  if half = 1 then halves || (d.workingHalf sp (h - h % 2)).img.isEmpty else !halves

/-- The codes of row r of a half-tile. The manual gives no value for a half-tile that is not in the form that `half` names: its
elements are free values. -/
def accRow (d : Dev) (sp h half r : Nat) : List Nat :=
  let img := (d.workingHalf sp h).img
  let ok := accForm d sp h half
  (List.range 256).map (fun c =>
    if ok then tget 0 img (256 * r + c)
    else (Config.freeWord (d.free + 65536 * h + 256 * r + c)).toNat % if half = 1 then 2 ^ 16 else 2 ^ 32)

def runAccStore (sp tile count half : Nat) (m : Desc) : Run Counts := do
  let d ← getDev
  let _ ← (withIdx 0 (accHalves tile count half)).mapM (fun hi =>
    (List.range 256).forM (fun r => m.writeFrom accDrain (256 * hi.2 + r) (accFmt half) (accRow d sp hi.1 half r)))
  return okCounts count 0 0

def runAccPost (sp tile count half : Nat) : Run Counts := do
  let ts := accPosts tile count half
  holdAll (ts.map (fun t => .tqPost sp t (half == 1)))
  return okCounts ts.length 0 0

end Sys2Proof.Machine
end

