-- ==== Sys2Proof/Machine/WickNum.lean ====
section
/-! DEFINITION. The Wick's numerics (R305 to R318): records, their combination, what a rank forms for a row, the targets of
the top-k mode, the losses and the gradient. -/

namespace Sys2Proof.Machine

/-! ### Records (R308) -/

structure WickRec where
  cT : Int
  sT : Word
  cS : Int
  sS : Word
  cH : Int
  sH : Word
  zLab : Word
  wU : Word
  g : Word
  nonfinite : Bool
  seen : Bool
  range : Bool
  kl : Word
  ce : Word
  qTail : Word
  hq : Word
  qk : Word
  deriving DecidableEq, Repr

/-- R308: the reference 0x8000_0000 of an empty share. -/
def emptyRef : Int := -2147483648

/-- An empty record; c_h is zero where there is no hard-label term. -/
def emptyRec (hard : Bool) : WickRec :=
  { cT := emptyRef, sT := 0, cS := emptyRef, sS := 0, cH := if hard then emptyRef else 0, sH := 0, zLab := 0, wU := 0,
    g := 0, nonfinite := false, seen := false, range := false, kl := 0, ce := 0, qTail := 0, hq := 0, qk := 0 }

def refBytes (c : Int) : List Byte := leBytes 4 (c % 2 ^ 32).toNat
def refOf (n : Nat) : Int := if n < 2 ^ 31 then n else (n : Int) - 2 ^ 32
def wordBytes (w : Word) : List Byte := leBytes 4 w.toNat

def WickRec.bytes (r : WickRec) : List Byte :=
  refBytes r.cT ++ wordBytes r.sT ++ refBytes r.cS ++ wordBytes r.sS ++ refBytes r.cH ++ wordBytes r.sH ++
    wordBytes r.zLab ++ wordBytes r.wU ++ wordBytes r.g ++
    leBytes 2 (setBit r.nonfinite 0 + setBit r.seen 1 + setBit r.range 2) ++ zeros 2 ++
    wordBytes r.kl ++ wordBytes r.ce ++ wordBytes r.qTail ++ wordBytes r.hq ++ wordBytes r.qk ++ zeros 4

def parseRec (b : List Byte) : WickRec :=
  { cT := refOf (leAt b 0 4), sT := word32 b 4, cS := refOf (leAt b 8 4), sS := word32 b 12, cH := refOf (leAt b 16 4),
    sH := word32 b 20, zLab := word32 b 24, wU := word32 b 28, g := word32 b 32, nonfinite := bit (byteAt b 36) 0,
    seen := bit (byteAt b 36) 1, range := bit (byteAt b 36) 2, kl := word32 b 40, ce := word32 b 44,
    qTail := word32 b 48, hq := word32 b 52, qk := word32 b 56 }

/-- R309: x × 2ⁿ rounded, +0 when n < −300. -/
def scale2 (x : Word) (n : Int) : Word :=
  if n < -300 then 0
  else match v32 x with
    | .fin neg mag e => rne32 (.fin neg mag (e + n))
    | v => rne32 v

/-- Two sums at two references, brought to the larger one and added. -/
def rescaleAdd (c ca cb : Int) (a b : Word) : Word := add32 (scale2 a (ca - c)) (scale2 b (cb - c))

/-- R309. -/
def combineRec (full : Bool) (a b : WickRec) : WickRec :=
  let cT := max a.cT b.cT
  let cS := max a.cS b.cS
  let cH := max a.cH b.cH
  { a with
    cT := cT, sT := rescaleAdd cT a.cT b.cT a.sT b.sT
    wU := if full then rescaleAdd cT a.cT b.cT a.wU b.wU else add32 a.wU b.wU
    cS := cS, sS := rescaleAdd cS a.cS b.cS a.sS b.sS, g := rescaleAdd cS a.cS b.cS a.g b.g
    cH := cH, sH := rescaleAdd cH a.cH b.cH a.sH b.sH
    zLab := add32 a.zLab b.zLab
    nonfinite := a.nonfinite || b.nonfinite, seen := a.seen || b.seen, range := a.range || b.range }

/-! ### Scale constants and base-2 values (R305, R306) -/

def log2e : Word := 0x3FB8AA3B
def ln2 : Word := 0x3F317218

def scaleT (d : WickDesc) : Word := mul32 d.invTau log2e
def scaleSoft (d : WickDesc) : Word := mul32 d.wSoft d.invTau

/-- R305: y = rne32(z × a), z exact. -/
def baseTwo (a : Word) (z : FVal) : Word := rne32 (mulExact z (v32 a))

/-- R306: a value that makes its row non-finite. -/
def badY (y : Word) : Bool := !isFinite32 y || !fvLt (v32 y).abs (.fin false 1 24)

/-- R307: the reference, the terms and the sum of one block. -/
def blockSum (ys : List Word) : Int × List Word × Word :=
  let c := ceil32 (ys.foldl (fun m y => if lt32 m y then y else m) negInf32)
  let es := ys.map (fun y => exp2 (sub32 y (ofInt32 c)))
  (c, es, treeSum es)

/-- The greater of two values (R82, steps 1 and 3). -/
def max32w (a b : Word) : Word := if isNan32 a then a else if isNan32 b then b else if lt32 a b then b else a

/-! ### A rank's share of a row (R307, R314, R316) -/

/-- The student's fields of a block: y at τ, the reference, the terms, the sum; with the hard-label fields. `label` is
the label's column in the member's slice. -/
def studentBlock (d : WickDesc) (label : Option Nat) (col0 : Nat) (zs : List FVal) (r : WickRec) :
    WickRec × List Word × List Word × Bool :=
  let ys := zs.map (baseTwo (scaleT d))
  let b := blockSum ys
  let r := { r with cS := b.1, sS := b.2.2 }
  if d.hard then
    let yh := zs.map (baseTwo log2e)
    let h := blockSum yh
    let r := { r with cH := h.1, sH := h.2.2 }
    let r := match label with
      | some l => if col0 ≤ l ∧ l < col0 + 256 then { r with zLab := yh.getD (l - col0) 0, seen := true } else r
      | none => r
    (r, ys, b.2.1, ys.any badY || yh.any badY)
  else (r, ys, b.2.1, ys.any badY)

/-- R307: the block record of the full mode. -/
def fullBlock (d : WickDesc) (label : Option Nat) (col0 : Nat) (zt zs : List FVal) : WickRec × Bool :=
  let yt := zt.map (baseTwo (scaleT d))
  let bt := blockSum yt
  let (r, ys, _, bad) := studentBlock d label col0 zs (emptyRec d.hard)
  let w := treeSum ((bt.2.1.zip (yt.zip ys)).map (fun p => mul32 p.1 (sub32 p.2.1 p.2.2)))
  ({ r with cT := bt.1, sT := bt.2.2, wU := w }, bad || yt.any badY)

/-- R314: the teacher's block record and its pairs of value and token id. -/
def teacherBlock (d : WickDesc) (id0 : Nat) (zt : List FVal) : WickRec × List (Nat × Nat) × Bool :=
  let yt := zt.map (baseTwo (scaleT d))
  let b := blockSum yt
  ({ emptyRec d.hard with cT := b.1, sT := b.2.2 }, withIdx id0 (yt.map BitVec.toNat), yt.any badY)

/-- R316: the student's block record with the sums over target columns; targets are (student id, q). -/
def targetBlock (d : WickDesc) (label : Option Nat) (col0 id0 : Nat) (targets : List (Nat × Word)) (zs : List FVal) :
    WickRec × Bool :=
  let (r, ys, es, bad) := studentBlock d label col0 zs (emptyRec d.hard)
  let qOf (j : Nat) : Option Word := (targets.find? (fun t => t.1 == id0 + j)).map (·.2)
  let gs := (withIdx 0 es).map (fun p => if (qOf p.2).isSome then p.1 else 0)
  let us := (withIdx 0 ys).map (fun p => match qOf p.2 with
    | some q => mul32 q p.1
    | none => 0)
  ({ r with g := treeSum gs, wU := treeSum us }, bad)

/-- R306, R310: a rank's record from its block records in ascending order. -/
def shareRec (full hard : Bool) (blocks : List (WickRec × Bool)) : WickRec :=
  match blocks with
  | [] => emptyRec hard
  | b :: t =>
    let r := t.foldl (fun run x => combineRec full run x.1) b.1
    if blocks.any (·.2) then
      { emptyRec hard with nonfinite := true, zLab := r.zLab, seen := r.seen, range := r.range }
    else r

/-! ### Finishing a row (R311, R315, R317) -/

def logSum (c : Int) (s : Word) : Word := add32 (ofInt32 c) (log2 s)

/-- R311: ce. -/
def ceOf (d : WickDesc) (r : WickRec) : Word :=
  if d.hard && r.seen then mul32 (sub32 (logSum r.cH r.sH) r.zLab) ln2 else 0

/-- R306: the losses of a non-finite row. -/
def nanRow (r : WickRec) : WickRec := { r with kl := nan32, ce := nan32 }

def finishFull (d : WickDesc) (r : WickRec) : WickRec :=
  if r.nonfinite then nanRow r
  else
    let lt := logSum r.cT r.sT
    let ls := logSum r.cS r.sS
    { r with kl := mul32 (add32 (mul32 r.wU (rcp32 r.sT)) (sub32 ls lt)) ln2, ce := ceOf d r }

/-- R317; old is the record that the teacher merge left. -/
def finishTopk (d : WickDesc) (old r : WickRec) : WickRec :=
  let r := { r with qTail := old.qTail, hq := old.hq, qk := old.qk }
  let pTail := max32w 0x00800000 (sub32 one32 (mul32 r.g (rcp32 r.sS)))
  let ls := logSum r.cS r.sS
  let kl := mul32 (sub32 (sub32 r.hq (sub32 r.wU (mul32 r.qk ls))) (mul32 r.qTail (log2 pTail))) ln2
  let r' := { r with g := pTail }
  if r.nonfinite then nanRow r' else { r' with kl := kl, ce := ceOf d r }

def noId : Nat := 0xFFFFFFFF

/-- R315, step 1: the student id of a token id. -/
def studentId (map : Option (List Nat)) (id : Nat) : Nat :=
  match map with
  | none => id
  | some m => if id = noId then noId else m.getD id noId

/-- R315, step 2. -/
def mergeTargets : List (Nat × Word) → List Nat → List (Nat × Word)
  | [], _ => []
  | (i, q) :: t, seen =>
    if i = noId then (i, q) :: mergeTargets t seen
    else if seen.contains i then (noId, 0) :: mergeTargets t seen
    else (i, chainSum (q :: (t.filter (fun x => x.1 == i)).map (·.2))) :: mergeTargets t (i :: seen)

/-- R315: the targets of a row and the record after the teacher merge. -/
def rowTargets (map : Option (List Nat)) (r : WickRec) (list : List (Nat × Nat)) : List (Nat × Word) × WickRec :=
  let lt := logSum r.cT r.sT
  let raw := list.map (fun p => (studentId map p.2, exp2 (sub32 (BitVec.ofNat 32 p.1) lt)))
  let ts := mergeTargets raw []
  let qs := (ts.filter (fun t => t.1 != noId)).map (·.2)
  let qk := chainSum qs
  let qTail := max32w 0 (sub32 one32 qk)
  let h := chainSum ((qs.filter (fun q => lt32 0 q)).map (fun q => mul32 q (log2 q)))
  let hq := if lt32 0 qTail then add32 h (mul32 qTail (log2 qTail)) else h
  (ts, { r with qk := qk, qTail := qTail, hq := hq })

/-! ### The gradient (R312, R318) -/

/-- R306: whether a value that GRAD forms for a row makes the row non-finite: the student's, in full mode the teacher's, and with a
hard label the student's at temperature 1. -/
def gradBad (d : WickDesc) (r : WickRec) (zs zt : List FVal) : Bool :=
  (zs ++ zt).any (fun z => badY (baseTwo (scaleT d) z)) || (d.hard && r.seen && zs.any (fun z => badY (baseTwo log2e z)))

/-- R312: the gradient of one element. `pt` gives the target, from the student's probability. -/
def gradElem (d : WickDesc) (r : WickRec) (isLabel : Bool) (pt : Word → Word) (z : FVal) : Word :=
  if r.nonfinite then nan32
  else
    let ps := exp2 (sub32 (baseTwo (scaleT d) z) (logSum r.cS r.sS))
    let g := mul32 (sub32 ps (pt ps)) (scaleSoft d)
    if d.hard && r.seen then
      let ph := exp2 (sub32 (baseTwo log2e z) (logSum r.cH r.sH))
      fma32 (sub32 ph (if isLabel then one32 else 0)) d.wHard g
    else g

/-- R312: the target of the full mode. -/
def fullTarget (d : WickDesc) (r : WickRec) (zt : FVal) : Word := exp2 (sub32 (baseTwo (scaleT d) zt) (logSum r.cT r.sT))

/-- R318: the target of the top-k mode; the record's g field holds p_tail. -/
def topkTarget (r : WickRec) (targets : List (Nat × Word)) (id : Nat) (ps : Word) : Word :=
  match targets.find? (fun t => t.1 == id) with
  | some t => t.2
  | none => mul32 ps (mul32 r.qTail (rcp32 r.g))

end Sys2Proof.Machine
end

