-- ==== Sys2Proof/Machine/Wick.lean ====
section
/-! DEFINITION. The Wick's commands (chapter 07): descriptors, steps and token maps; the local part and the end of a
merge. -/

namespace Sys2Proof.Machine

/-! ### Layout (R293, R294) -/

def wickStudentVa (w : WickLive) (mb : Nat) : Nat := w.frameVa mb + w.rPad * w.vT * w.eT
def wickRecVa (w : WickLive) (mb slot i : Nat) : Nat :=
  wickStudentVa w mb + w.rPad * w.vS * w.eS + (slot * w.rPad + i) * 64
def wickListVa (w : WickLive) (mb slot i : Nat) : Nat :=
  wickStudentVa w mb + w.rPad * w.vS * w.eS + w.rPad * 64 * (w.desc.spindles + 1) + (slot * w.rPad + i) * 8 * w.desc.k

/-- F of R293, from the descriptor and G. -/
def wickFramePages (d : WickDesc) (members : Nat) : Nat :=
  let rp := 256 * ceilDiv d.rows 256
  ceilDiv (rp * (d.vocabT / members) * (elemBits d.fmtT / 8) + rp * (d.vocabS / members) * (elemBits d.fmtS / 8) +
    (rp * 64 + rp * 8 * d.k) * (d.spindles + 1)) pageBytes

/-- The accesses of a Wick command to its frame, and to labels and losses in ordinary pages. -/
def accWick : Access := ⟨2, false, false, true, false⟩
def accWickPlain : Access := ⟨2, false, false, false, false⟩

/-- R293: a row of a logit area, from a column on. -/
def wickRow (w : WickLive) (mb role i col n : Nat) : Run (List FVal) := do
  let f := if role = 0 then w.desc.fmtT else w.desc.fmtS
  let bs ← readVa accWick (w.logitVa mb role i col) (rowBytes f n)
  return rowVals f [] (rowCodes f n bs)

/-- R323: the column blocks of a rank's share. -/
def shareBlocks (v w rank : Nat) : List Nat :=
  let c := v / 256
  let lo := c / w
  let big := c % w
  if rank < big then List.range' (rank * (lo + 1)) (lo + 1) else List.range' (big * (lo + 1) + (rank - big) * lo) lo

/-- The labels of a micro-batch, one for each row (R320). -/
def wickLabels (w : WickLive) (mb : Nat) : Run (List Nat) := do
  if w.desc.hard then
    let bs ← readVa accWickPlain (w.desc.labelVa + mb % w.desc.depth * 4 * w.rPad) (4 * w.desc.rows)
    return rowCodes 0 w.desc.rows bs
  else return List.replicate w.desc.rows noId

/-- R321: whether a label sets LABEL_RANGE; the label's column in this member's slice, where it lies in it. -/
def labelBad (w : WickLive) (l : Nat) : Bool := l != noId && decide (w.desc.vocabS ≤ l)
def labelCol (w : WickLive) (l : Nat) : Option Nat :=
  if l ≠ noId ∧ w.pos * w.vS ≤ l ∧ l < (w.pos + 1) * w.vS then some (l - w.pos * w.vS) else none

/-! ### Checks (R302 to R304, R322) -/

def wickStepFieldsOk (desc op mb : Nat) (rsv : Bool) : Bool :=
  rsv && decide (desc < 16) && decide (op ≤ 4) && decide (mb < 4096)

def wickMergeFieldsOk (desc op mb : Nat) (rsv : Bool) : Bool :=
  rsv && decide (desc < 16) && decide (op ≤ 2) && decide (mb < 4096)

/-- The descriptor and the frame of a micro-batch in a phase that the command accepts. -/
def wickFrame (part idx mb phase : Nat) : Run (WickLive × Frame) := do
  match (← getDev).wickLive part idx with
  | none => failWith stBadParam
  | some w =>
    match w.frames[mb % w.desc.depth]? with
    | none => failWith stBadParam
    | some f => do
      require (decide ((mb + (4096 - w.r % 4096)) % 4096 < w.desc.depth)) stBadParam
      require (f.phase == phase && f.mb == mb) stBadParam
      return (w, f)

def blocksPresent (have_ want : List Nat) : Bool := want.all have_.contains

/-- A rank's record written for a row, and counted. -/
def putRec (w : WickLive) (mb slot i : Nat) (r : WickRec) : Run Unit :=
  writeVa accWick (wickRecVa w mb slot i) r.bytes

/-- The counters of a step (R327). -/
def stepCounts (w : WickLive) (blocks : List Nat) (rs : List WickRec) : Counts :=
  okCounts (w.rPad / 256 * blocks.length) (rs.filter (·.nonfinite)).length (rs.filter (·.seen)).length

/-! ### Steps -/

/-- R307: the record of a row's share in full mode, written in its rank's slot. -/
def statsRow (w : WickLive) (mb rank : Nat) (li : Nat × Nat) : Run WickRec := do
  let bs ← (shareBlocks w.vT w.desc.spindles rank).mapM (fun b => do
    let zt ← wickRow w mb 0 li.2 (256 * b) 256
    let zs ← wickRow w mb 1 li.2 (256 * b) 256
    return fullBlock w.desc (labelCol w li.1) (256 * b) zt zs)
  let r := { shareRec true w.desc.hard bs with range := labelBad w li.1 }
  putRec w mb rank li.2 r
  return r

/-- R307: STATS. -/
def runStats (part idx mb rank : Nat) : Run Counts := do
  let (w, f) ← wickFrame part idx mb 1
  require (!w.desc.topk && decide (rank < w.desc.spindles)) stBadParam
  let blocks := shareBlocks w.vT w.desc.spindles rank
  require (blocksPresent f.tBlocks blocks && blocksPresent f.sBlocks blocks) stBadParam
  let labels ← wickLabels w mb
  let rs ← (withIdx 0 labels).mapM (statsRow w mb rank)
  hold (.wickRank part idx mb rank 4)
  return stepCounts w blocks rs

def listBytes (l : List (Nat × Nat)) : List Byte := l.flatMap (fun p => leBytes 4 p.1 ++ leBytes 4 p.2)
def parseList (k : Nat) (b : List Byte) : List (Nat × Nat) := (List.range k).map (fun i => (leAt b (8 * i) 4, leAt b (8 * i + 4) 4))

/-- R314: the k best pairs, padded as R216 pads. -/
def kBest (k : Nat) (l : List (Nat × Nat)) : List (Nat × Nat) :=
  let t := topK fp32 k l
  t ++ List.replicate (k - t.length) (emptyBest fp32 true)

/-- R314: the teacher's record and top-k list of row i of a rank's share. -/
def statsTRow (w : WickLive) (mb rank i : Nat) : Run WickRec := do
  let bs ← (shareBlocks w.vT w.desc.spindles rank).mapM (fun b => do
    return teacherBlock w.desc (w.pos * w.vT + 256 * b) (← wickRow w mb 0 i (256 * b) 256))
  let r := shareRec false w.desc.hard (bs.map (fun b => (b.1, b.2.2)))
  putRec w mb rank i r
  writeVa accWick (wickListVa w mb rank i) (listBytes (kBest w.desc.k (bs.flatMap (·.2.1))))
  return r

/-- R314: STATS_T. -/
def runStatsT (part idx mb rank : Nat) : Run Counts := do
  let (w, f) ← wickFrame part idx mb 1
  require (w.desc.topk && decide (rank < w.desc.spindles)) stBadParam
  let blocks := shareBlocks w.vT w.desc.spindles rank
  require (blocksPresent f.tBlocks blocks) stBadParam
  let rs ← (List.range w.desc.rows).mapM (statsTRow w mb rank)
  hold (.wickRank part idx mb rank 2)
  return stepCounts w blocks rs

/-- The targets of a row, as slot w holds them (R315). -/
def readTargets (w : WickLive) (mb i : Nat) : Run (List (Nat × Word)) := do
  let bs ← readVa accWick (wickListVa w mb w.desc.spindles i) (8 * w.desc.k)
  return (parseList w.desc.k bs).map (fun p => (p.1, BitVec.ofNat 32 p.2))

/-- R316: the student's record of a row's share in top-k mode. The teacher's fields of the rank's record stay. -/
def statsSRow (w : WickLive) (mb rank : Nat) (li : Nat × Nat) : Run WickRec := do
  let old := parseRec (← readVa accWick (wickRecVa w mb rank li.2) 64)
  let ts ← readTargets w mb li.2
  let bs ← (shareBlocks w.vS w.desc.spindles rank).mapM (fun b => do
    return targetBlock w.desc (labelCol w li.1) (256 * b) (w.pos * w.vS + 256 * b) ts (← wickRow w mb 1 li.2 (256 * b) 256))
  let r := shareRec false w.desc.hard bs
  let r := { r with cT := old.cT, sT := old.sT, nonfinite := r.nonfinite || old.nonfinite, range := labelBad w li.1 }
  putRec w mb rank li.2 r
  return r

/-- R316: STATS_S. -/
def runStatsS (part idx mb rank : Nat) : Run Counts := do
  let (w, f) ← wickFrame part idx mb 3
  require (w.desc.topk && decide (rank < w.desc.spindles)) stBadParam
  let blocks := shareBlocks w.vS w.desc.spindles rank
  require (blocksPresent f.sBlocks blocks) stBadParam
  let labels ← wickLabels w mb
  let rs ← (withIdx 0 labels).mapM (statsSRow w mb rank)
  hold (.wickRank part idx mb rank 4)
  return stepCounts w blocks rs

/-- R312, R318: a row's gradient, written over the student's logits of the share; the row's record. -/
def gradRow (w : WickLive) (mb rank : Nat) (li : Nat × Nat) : Run WickRec := do
  let blocks := shareBlocks w.vS w.desc.spindles rank
  let r := parseRec (← readVa accWick (wickRecVa w mb w.desc.spindles li.2) 64)
  let ts ← if w.desc.topk then readTargets w mb li.2 else pure []
  let zs ← blocks.mapM (fun b => do
    let zs ← wickRow w mb 1 li.2 (256 * b) 256
    let zt ← if w.desc.topk then pure [] else wickRow w mb 0 li.2 (256 * b) 256
    return (b, zs, zt))
  let r := { r with nonfinite := r.nonfinite || zs.any (fun z => gradBad w.desc r z.2.1 z.2.2) }
  let _ ← zs.mapM (fun x => do
    let b := x.1
    let gs := (withIdx 0 x.2.1).map (fun z =>
      let pt := fun ps => if w.desc.topk then topkTarget r ts (w.pos * w.vS + 256 * b + z.2) ps
        else fullTarget w.desc r (x.2.2.getD z.2 fpZero)
      gradElem w.desc r (labelCol w li.1 == some (256 * b + z.2)) pt z.1)
    let cs := gs.map (fun g => convCode w.desc.fmtS (v32 g))
    noteVals (cs.map (decodeFp (elemFmt w.desc.fmtS)))
    writeVa accWick (w.logitVa mb 1 li.2 (256 * b)) (codeBytes w.desc.fmtS cs))
  return { r with seen := r.seen && (labelCol w li.1).any (fun l => blocks.contains (l / 256)) }

/-- R312, R318: GRAD overwrites the student's logits of the share. -/
def runGrad (part idx mb rank : Nat) : Run Counts := do
  let (w, f) ← wickFrame part idx mb 5
  require (decide (rank < w.desc.spindles)) stBadParam
  let blocks := shareBlocks w.vS w.desc.spindles rank
  require (blocksPresent f.sBlocks blocks && (w.desc.topk || blocksPresent f.tBlocks blocks)) stBadParam
  let labels ← wickLabels w mb
  let rs ← (withIdx 0 labels).mapM (gradRow w mb rank)
  hold (.wickRank part idx mb rank 6)
  return stepCounts w blocks rs

/-- R301, R302: RELEASE. -/
def runRelease (part idx mb : Nat) : Run Counts := do
  match (← getDev).wickLive part idx with
  | none => failWith stBadParam
  | some w => do
    require (mb == w.r % 4096) stBadParam
    hold (.wickRelease part idx)
    return okCounts 0 0 0

/-! ### Descriptors (R289, R295, R296, R320) -/

/-- R295, row 1: the checks at submission. A removal keeps them too: the table excepts it from one check alone (DEDUCED, log entry
166). -/
def wickDescOk (d : WickDesc) (spindles : Nat) : Bool :=
  d.indexRsv == 0 && d.ctlRsv == 0 && d.rsvZero &&
      ((d.depth == 1 || d.depth == 2 || d.depth == 4) && decide (1 ≤ d.spindles) && decide (d.spindles ≤ spindles) &&
        decide (d.fmtT ≤ 2) && decide (d.fmtS ≤ 2) && decide (d.mapSlot < 4) && decide (d.relTok < 64) &&
        (if d.topk then decide (1 ≤ d.k) && decide (d.k ≤ 256) else d.k == 0 && !d.map) &&
        decide (1 ≤ d.rows) && decide (d.rows ≤ 4096) && decide (1 ≤ d.vocabT) && decide (d.vocabT ≤ 262144) &&
        decide (1 ≤ d.vocabS) && decide (d.vocabS ≤ 262144) &&
        le32 0x3C800000 d.invTau && le32 d.invTau 0x40800000 && isFinite32 d.wSoft && (!d.hard || isFinite32 d.wHard) &&
        d.va % pageBytes == 0 && decide (d.va + d.pages * pageBytes ≤ 2 ^ 48) && vaOk d.labelVa && vaOk d.lossVa &&
        (d.hard || d.labelVa == 0) && (d.map || d.vocabT == d.vocabS) && d.vocabT % 256 == 0 && d.vocabS % 256 == 0)

/-- R289: G and the position of this device in the descriptor's group. -/
def Dev.wickGroup (d : Dev) (part group : Nat) : Option (Nat × Nat) :=
  if group = 0xFFFF then some (1, 0)
  else match tfind d.links.groups group with
    | some g => if g.part = part then some (g.members.length, g.pos) else none
    | none => none

/-- R304: an empty frame. -/
def Frame.empty : Frame := ⟨0, 0, [], [], [], false, false⟩

/-- The checks of R295 after those of submission, in its order: the group's size, the device's position in it, and F. A removal may
name an index that is live, and the range that stands under it. -/
def wickDescCheck (part : Nat) (x : WickDesc) : Run (Nat × Nat × Nat) := do
  let d ← getDev
  match d.wickGroup part x.group with
  | none => failWith stBadParam
  | some (g, pos) => do
    require (x.vocabT % (256 * g) == 0 && x.vocabS % (256 * g) == 0) stBadParam
    let p := d.part part
    require ((rangeKeys x.va x.pages false).all (fun k => (p.pteAt k).any (fun e => e.kind == .wick))) stBadParam
    let others := d.wick.descs.filter (fun kv => kv.1 / 16 == part && kv.1 % 16 != x.index)
    require (!others.any (fun kv =>
      decide (kv.2.desc.va < x.va + x.pages * pageBytes) && decide (x.va < kv.2.desc.va + kv.2.desc.pages * pageBytes))) stInUse
    require (x.remove || (d.wickLive part x.index).isNone) stInUse
    let f := wickFramePages x g
    require (decide (x.depth * f ≤ x.pages)) stQuota
    let map := tget [] d.wick.maps (4 * part + x.mapSlot)
    require (!x.map || (decide (x.vocabT ≤ map.length) && map.all (fun e => e == noId || decide (e < x.vocabS)))) stBadParam
    require (!d.live.any (fun qe => qe.2.hdr.part == part && qe.2.order != 0 && qe.2.hdr.sig == x.relTok)) stInUse
    return (g, pos, f)

/-- WICK_DESC: a descriptor's creation. -/
def runWickDesc (part : Nat) (x : WickDesc) : Run Counts := do
  let (g, pos, f) ← wickDescCheck part x
  hold (.wickNew part x.index
    { desc := x, p := x.depth * f, f := f, b := (← getDev).token part x.relTok, r := 0, members := g, pos := pos,
      frames := List.replicate x.depth Frame.empty })
  return okCounts (x.depth * f) f 0

/-- R296: a descriptor's removal. -/
def runWickRemove (part : Nat) (x : WickDesc) : Run Counts := do
  let _ ← wickDescCheck part x
  match (← getDev).wickLive part x.index with
  | none => failWith stBadParam
  | some w => do
    require (w.frames.all (fun f => f.phase == 0)) stInUse
    hold (.wickGone part x.index)
    return okCounts w.p w.f 0

/-! ### Token maps (R319, R326) -/

def wickTokmapOk (slot n : Nat) (src : Desc) (rsv : Bool) : Bool :=
  rsv && decide (slot < 4) && decide (1 ≤ n) && decide (n ≤ 262144) && src.ok true false false

def runTokmap (part slot n : Nat) (src : Desc) : Run Counts := do
  let d ← getDev
  require (!d.wick.descs.any (fun kv => kv.1 / 16 == part && kv.2.desc.map && kv.2.desc.mapSlot == slot)) stInUse
  let es := rowCodes 0 n (← readVa accPlain src.va (4 * n))
  require (es.all (fun e => e == noId || decide (e < 262144))) stBadParam
  hold (.wickMap part slot es)
  return okCounts n (es.filter (· != noId)).length 0

/-! ### Merges (R290, R310, R315, R324) -/

/-- R290: what a contribution carries beside its records, in 36 bytes. -/
def wickHeader (d : WickDesc) (mb : Nat) : List Byte :=
  leBytes 2 (setBit d.topk 0 + setBit d.hard 1) ++ leBytes 2 d.k ++ leBytes 4 d.rows ++ leBytes 4 d.vocabT ++ leBytes 4 d.vocabS ++
    wordBytes d.invTau ++ wordBytes d.wSoft ++ wordBytes d.wHard ++ leBytes 8 mb

/-- The phase in which a merge is accepted, and the phase after it. -/
def mergePhases (op : Nat) : Nat × Nat := if op = 1 then (2, 3) else (4, 5)

/-- The checks of a merge. -/
def wickMergeCheck (part idx op mb : Nat) : Run (WickLive × Frame) := do
  let wf ← wickFrame part idx mb (mergePhases op).1
  require (if op = 0 then !wf.1.desc.topk else wf.1.desc.topk) stBadParam
  return wf

/-- R310, R314: one row's rank records, and its lists in op 1, combined over the ranks. -/
def wickLocalRow (w : WickLive) (op mb i : Nat) : Run (List Byte) := do
  let rs ← (List.range w.desc.spindles).mapM (fun s => do return parseRec (← readVa accWick (wickRecVa w mb s i) 64))
  let r := treeFold (combineRec (!w.desc.topk)) (emptyRec w.desc.hard) rs
  if op = 1 then
    let ls ← (List.range w.desc.spindles).mapM (fun s => do
      return parseList w.desc.k (← readVa accWick (wickListVa w mb s i) (8 * w.desc.k)))
    return r.bytes ++ listBytes (treeFold (fun a b => kBest w.desc.k (a ++ b)) [] ls)
  else return r.bytes

/-- The device's contribution to a merge. -/
def wickLocal (part idx op mb : Nat) : Run (List Byte) := do
  let (w, _) ← wickMergeCheck part idx op mb
  let rows ← (List.range w.desc.rows).mapM (wickLocalRow w op mb)
  return wickHeader w.desc mb ++ rows.flatten

/-- Bytes of one row of a contribution. -/
def wickRowLen (k op : Nat) : Nat := if op = 1 then 64 + 8 * k else 64

/-- R310: two contributions combined row by row; none where their fields differ (R290). -/
def wickCombine (op : Nat) (a b : List Byte) : Option (List Byte) :=
  if a.take 36 ≠ b.take 36 then none
  else
    let full := !bit (leAt a 0 2) 0
    let k := leAt a 2 2
    let n := wickRowLen k op
    some (a.take 36 ++ (List.range (leAt a 4 4)).flatMap (fun i =>
      let x := slice a (36 + n * i) n
      let y := slice b (36 + n * i) n
      (combineRec full (parseRec x) (parseRec y)).bytes ++
        (if op = 1 then listBytes (kBest k (parseList k (x.drop 64) ++ parseList k (y.drop 64))) else [])))

/-- R311, R315, R317: the end of a merge: merged records, targets or losses, and the phase. -/
def wickFinish (part idx op mb : Nat) (v : List Byte) : Run Counts := do
  let (w, _) ← wickMergeCheck part idx op mb
  let d ← getDev
  let n := wickRowLen w.desc.k op
  let map := if w.desc.map then some (tget [] d.wick.maps (4 * part + w.desc.mapSlot)) else none
  let rs ← (List.range w.desc.rows).mapM (fun i => do
    let b := slice v (36 + n * i) n
    let r := parseRec b
    let slot := w.desc.spindles
    if op = 1 then
      let (ts, r) := rowTargets map r (parseList w.desc.k (b.drop 64))
      writeVa accWick (wickListVa w mb slot i) (listBytes (ts.map (fun t => (t.1, t.2.toNat))))
      putRec w mb slot i r
      return r
    else
      let old := parseRec (← readVa accWick (wickRecVa w mb slot i) 64)
      let r := if op = 0 then finishFull w.desc r else finishTopk w.desc old r
      putRec w mb slot i r
      noteVals [v32 r.kl, v32 r.ce]
      writeVa accWickPlain (w.desc.lossVa + mb % w.desc.depth * 8 * w.rPad + 8 * i) (wordBytes r.kl ++ wordBytes r.ce)
      return r)
  let bad := (rs.filter (·.nonfinite)).length
  hold (.wickPhase part idx mb (mergePhases op).2 (decide (0 < bad)) (rs.any (·.range)))
  if op = 1 then pure () else hold (.wickNonfinite bad)
  return okCounts w.desc.rows bad w.members

/-! ### The commands -/

/-- A Wick command that runs on the vector engine, one at a time with the vector commands (R197). -/
def Dev.onWickStep (d : Dev) (c : CmdRef) (want : Nat) (f : Entry → Nat → Nat → Run Counts) : Dev :=
  d.onPacket c (fun e =>
    match e.payload with
    | .wickStep desc op mb _ => if op ≠ want ∨ vecBusy d e then d else d.run c e (f e desc mb)
    | _ => d)

def doStats (d : Dev) (c : CmdRef) : Dev := d.onWickStep c 0 (fun e idx mb => runStats e.hdr.part idx mb e.hdr.unit)
def doStatsT (d : Dev) (c : CmdRef) : Dev := d.onWickStep c 1 (fun e idx mb => runStatsT e.hdr.part idx mb e.hdr.unit)
def doStatsS (d : Dev) (c : CmdRef) : Dev := d.onWickStep c 2 (fun e idx mb => runStatsS e.hdr.part idx mb e.hdr.unit)
def doGrad (d : Dev) (c : CmdRef) : Dev := d.onWickStep c 3 (fun e idx mb => runGrad e.hdr.part idx mb e.hdr.unit)
def doRelease (d : Dev) (c : CmdRef) : Dev := d.onWickStep c 4 (fun e idx mb => runRelease e.hdr.part idx mb)

end Sys2Proof.Machine
end

