-- ==== Sys2Proof/Machine/Engines.lean ====
section
/-! DEFINITION. The engine rows of the array (chapter 03), the data movers (chapter 04) and the Wick's tables: when a
dispatched command may run, and what its run does. -/

namespace Sys2Proof.Machine

/-! ### Commands that change the device's tables -/

/-- The opcodes whose effects change tables that other such commands read: queues, partitions, mappings, descriptors,
requests, contexts, stores, routes and groups. -/
def isControl (op : Nat) : Bool :=
  (decide (0x02 ≤ op) && decide (op ≤ 0x16)) || (decide (0x32 ≤ op) && decide (op ≤ 0x35)) || op == 0x50 || op == 0x53 ||
    (decide (0x60 ≤ op) && decide (op ≤ 0x68) && op != 0x64) || op == 0x70 || op == 0x90 || op == 0x93 || op == 0x94 || op == 0xA0 || op == 0xA1

/-- What a held effect takes for its command: the pages, the Spindles, the names and the places of tables that no other
command may take meanwhile. What an effect gives back is not free before its commit point. -/
def Dev.claim (d : Dev) (x : Effect) : Dev :=
  match x with
  | .map part key pte => d.modPart part (fun p => { p with pt := tins p.pt key pte })
  | .pageUse t n u => if u = .zeroing then d else d.modMem (fun m => m.setUse t n u)
  | .kvFrames part frames => d.modPart part (fun p => p.addFrames frames)
  | .region r pages digest => d.modMem (fun m => { m with regions := tins m.regions r ⟨pages, digest, false, false⟩ })
  | .regionZero r => d.modMem (fun m => m.startZero r)
  | .sealMap part r va => d.modPart part (fun p => { p with maps := p.maps ++ [(r, va)] })
  | .queueNew q part _ _ _ _ _ _ _ _ _ _ => d.modQueue q (fun k => { k with state := .running, part := part })
  | .partNew p share _ _ _ _ sps => d.modPart p (fun x => { x with state := .active, share := share, spindles := sps })
  | .partRegrow p sps => d.modPart p (fun x => { x with state := .active, spindles := sps })
  | .ctxActive p sps => d.modPart p (fun x => { x with state := .active, spindles := sps })
  | .partFree p => d.modPart p (fun x => { x with state := .free, pt := [], level2Held := x.level2 })
  | .wickNew part i w => { d with wick := { d.wick with descs := tins d.wick.descs (16 * part + i) w } }
  | .reqAdmit part id a => { d with reqs := { d.reqs with r := tins d.reqs.r id (.admitted part a) } }
  | .train (.xchNew ctx x) => { d with xch := tins d.xch ctx x }
  | .train (.store i s) => { d with train := { d.train with stores := tins d.train.stores i s } }
  | .train (.recoveryOpen r) => { d with train := { d.train with recovery := some r } }
  | .link (.group g v) => { d with links := { d.links with groups := tins d.links.groups g v } }
  | _ => d

/-- DESIGN CHOICE (log entry 18): the block as a table-changing command finds it while others wait for their commit points:
what they take is taken. No command waits for one of another queue (R254). -/
def Dev.claimed (d : Dev) : Dev :=
  ((d.live.map (·.2)).filter (fun e => isControl e.hdr.opcode)).foldl (fun d e => match e.phase with
    | .ran r => r.effects.foldl Dev.claim d
    | _ => d) d

/-- A table-changing command runs on the block as it finds it. -/
def Dev.runClaimed (d : Dev) (c : CmdRef) (e : Entry) (m : Run Counts) : Dev :=
  match m (.start d.claimed c e) with
  | .ok k x => d.ranOk c e k x
  | .error f x => d.ranFail c e f x

/-! ### Array commands (R68, R119 to R122) -/

/-- The products of an array command with the half-tiles that each names. -/
def arrJobs : Payload → List (ArrJob × List Nat)
  | .arrMatmul p => [(matmulJob p false, (matmulJob p false).named)]
  | .arrStream p => [(matmulJob p true, [])]
  | .arrShallow p => [(shallowJob p, (shallowJob p).named)]
  | .arrConv _ _ g ctl ab fo dr seed wid d _ =>
    [(convJob g ctl ab fo dr seed wid d, (convJob g ctl ab fo dr seed wid d).named)]
  | .arrQuad mode mask seed blocks _ => (quadJobs mode mask seed blocks).map (fun p => (p.2, quadNamed p.2))
  | _ => []

/-- An array command issues when the scoreboard lets it, joins the chain of the commands whose images it takes up, and
runs. -/
def Dev.onArray (d : Dev) (c : CmdRef) (f : Entry → Nat → Option (Run Counts)) : Dev :=
  d.onPacket c (fun e =>
    let sp := d.spindleOf e
    match f e sp, d.accIssue sp e with
    | some m, some members =>
      if (arrJobs e.payload).any (fun j => d.segmentBreach sp j.1 j.2) then d.refuse c e stBadParam
      else
        let d := d.joinChain c members
        (match d.entry c with
          | some e' => d.run c e' m
          | none => d)
    | _, _ => d)

def doArrMatmul (d : Dev) (c : CmdRef) : Dev :=
  d.onArray c (fun e sp => match e.payload with
    | .arrMatmul p => some (runMatmul sp p false)
    | _ => none)

def doArrStream (d : Dev) (c : CmdRef) : Dev :=
  d.onArray c (fun e sp => match e.payload with
    | .arrStream p => some (runMatmul sp p true)
    | _ => none)

def doArrConv (d : Dev) (c : CmdRef) : Dev :=
  d.onArray c (fun e sp => match e.payload with
    | .arrConv x f g ctl ab fo dr seed wid o _ => some (runConv sp x f g (convJob g ctl ab fo dr seed wid o))
    | _ => none)

def doArrShallow (d : Dev) (c : CmdRef) : Dev :=
  d.onArray c (fun e sp => match e.payload with
    | .arrShallow p => some (runShallow sp p)
    | _ => none)

def doArrQuad (d : Dev) (c : CmdRef) : Dev :=
  d.onArray c (fun e sp => match e.payload with
    | .arrQuad mode mask seed blocks _ => some (runQuad sp mode mask seed blocks)
    | _ => none)

def doArrAccZero (d : Dev) (c : CmdRef) : Dev :=
  d.onArray c (fun e sp => match e.payload with
    | .arrAcc 0 tile count half _ _ => some (runAccZero sp tile count half)
    | _ => none)

def doArrAccLoad (d : Dev) (c : CmdRef) : Dev :=
  d.onArray c (fun e sp => match e.payload with
    | .arrAcc 1 tile count half m _ => some (runAccLoad sp tile count half m)
    | _ => none)

def doArrAccStore (d : Dev) (c : CmdRef) : Dev :=
  d.onArray c (fun e sp => match e.payload with
    | .arrAcc 2 tile count half m _ => some (runAccStore sp tile count half m)
    | _ => none)

def doArrAccPost (d : Dev) (c : CmdRef) : Dev :=
  d.onArray c (fun e sp => match e.payload with
    | .arrAcc 3 tile count half _ _ => some (runAccPost sp tile count half)
    | _ => none)

/-! ### Data movement (chapter 04) -/

def doMemCopy (d : Dev) (c : CmdRef) : Dev :=
  d.onPacket c (fun e => match e.payload with
    | .memCopy src dst rows cols _ => d.run c e (runCopy src dst rows cols)
    | _ => d)

def doMemFill (d : Dev) (c : CmdRef) : Dev :=
  d.onPacket c (fun e => match e.payload with
    | .memFill dst rows rowB pattern _ => d.run c e (runFill dst rows rowB pattern)
    | _ => d)

/-- R166: an allocation waits while Skein pages are being zeroed. -/
def doMemAlloc (d : Dev) (c : CmdRef) : Dev :=
  d.onPacket c (fun e => match e.payload with
    | .memAlloc va pages tier flags _ =>
      if d.skeinZeroing then d else d.runClaimed c e (runAlloc e.hdr.part va pages tier flags)
    | _ => d)

def doMemFree (d : Dev) (c : CmdRef) : Dev :=
  d.onPacket c (fun e => match e.payload with
    | .memFree va pages _ flags _ => d.runClaimed c e (runFree e.hdr.part va pages flags)
    | _ => d)

def doMemMigrate (d : Dev) (c : CmdRef) : Dev :=
  d.onPacket c (fun e => match e.payload with
    | .memMigrate va pages tier flags _ => d.runClaimed c e (runMigrate e.hdr.part va pages tier flags)
    | _ => d)

def doSeal (d : Dev) (c : CmdRef) : Dev :=
  d.onPacket c (fun e => match e.payload with
    | .memSealed 0 region _ pages va _ => d.runClaimed c e (runSeal e.hdr.part region pages va)
    | _ => d)

def doMap (d : Dev) (c : CmdRef) : Dev :=
  d.onPacket c (fun e => match e.payload with
    | .memSealed 1 region part _ va _ => d.runClaimed c e (runMap region part va)
    | _ => d)

def doUnmap (d : Dev) (c : CmdRef) : Dev :=
  d.onPacket c (fun e => match e.payload with
    | .memSealed 2 region part _ va _ => d.runClaimed c e (runUnmap region part va)
    | _ => d)

def doUnseal (d : Dev) (c : CmdRef) : Dev :=
  d.onPacket c (fun e => match e.payload with
    | .memSealed 3 region _ _ _ _ => d.runClaimed c e (runUnseal region)
    | _ => d)

/-! ### Descriptors and token maps (chapter 07) -/

def doWickDesc (d : Dev) (c : CmdRef) : Dev :=
  d.onPacket c (fun e => match e.payload with
    | .wickDesc x => if x.remove then d else d.runClaimed c e (runWickDesc e.hdr.part x)
    | _ => d)

def doWickDescRemove (d : Dev) (c : CmdRef) : Dev :=
  d.onPacket c (fun e => match e.payload with
    | .wickDesc x => if x.remove then d.runClaimed c e (runWickRemove e.hdr.part x) else d
    | _ => d)

def doWickTokmap (d : Dev) (c : CmdRef) : Dev :=
  d.onPacket c (fun e => match e.payload with
    | .wickTokmap slot n src _ => d.runClaimed c e (runTokmap e.hdr.part slot n src)
    | _ => d)

end Sys2Proof.Machine
end

