-- ==== Sys2Proof/Machine/Sampler.lean ====
section
/-! DEFINITION. The sampler (R375 to R385), the acceptance rule (R393, R394) and the access of request commands to plain
pages. -/

namespace Sys2Proof.Machine

/-! ### Plain pages -/

/-- A sealed page is no plain page: R372, R408 and R379 answer ST_BAD_PARAM for it. -/
def plainFail (f : Fail) : Fail := if f.status = stSealedAccess then ⟨stBadParam, none, none⟩ else f

/-- Reads and held writes in pages that must be neither sealed, Wick nor KV pages. -/
def readOrd (va n : Nat) : Run (List Byte) := tryCatch (readVa accPlain va n) (fun f => throw (plainFail f))
def writeOrd (va : Nat) (data : List Byte) : Run Unit := tryCatch (writeVa accPlain va data) (fun f => throw (plainFail f))

/-! ### Distributions (R381) -/

/-- A distribution: the kept tokens with their probabilities, in list order. -/
abbrev Dist := List (Nat × Word)

/-- The sampler parameters of a request (R377). -/
structure SampleCtl where
  seed : Nat
  temperature : Word
  topK : Nat
  topP : Word
  rep : Word
  freq : Word
  presence : Word
  deriving DecidableEq, Repr

def ctlOf (a : Admission) : SampleCtl := ⟨a.seed, a.temperature, a.topK, a.topP, a.rep, a.freq, a.presence⟩

/-- R381, step 2: the penalties of a token that was counted n times. -/
def penalise (s : SampleCtl) (n : Nat) (z : Word) : Word :=
  if n = 0 then z
  else
    let z1 := if lt32 0 z then mul32 z (rcp32 s.rep) else mul32 z s.rep
    sub32 (sub32 z1 (mul32 (ofInt32 n) s.freq)) s.presence

/-- The running chained sums of a list. -/
def runSums : List Word → List Word
  | [] => []
  | a :: t => t.foldl (fun acc x => acc ++ [add32 (acc.getLast?.getD a) x]) [a]

/-- R381, step 7: the shortest prefix whose chained sum reaches a bound, at least one entry; all of it where none does. -/
def prefixLen (bound : Word) (sums : List Word) : Nat :=
  match sums.findIdx? (fun s => le32 bound s) with
  | some i => i + 1
  | none => sums.length

/-- R381: a distribution from a row of logits, and whether a NaN gave it (R382). -/
def distOf (s : SampleCtl) (count : Nat → Nat) (zs : List FVal) : Dist × Bool :=
  let z := (withIdx 0 zs).map (fun p => (penalise s (count p.2) (rne32 p.1), p.2))
  let nan := z.any (fun p => isNan32 p.1)
  if (v32 s.temperature).isZero || nan || z.any (fun p => p.1 == inf32) then
    ([((bestOf fp32 true (z.map (fun p => (p.1.toNat, p.2)))).2, one32)], nan)
  else
    let ys := z.map (fun p => ((mul32 p.1 (rcp32 s.temperature)).toNat, p.2))
    let k := if s.topK = 0 then 256 else s.topK
    let best := topK fp32 k ys
    let best := best ++ List.replicate (k - best.length) (emptyBest fp32 true)
    let y0 := BitVec.ofNat 32 (best.headD (0, 0)).1
    let es := best.map (fun p => (p.2, exp2 (mul32 (sub32 (BitVec.ofNat 32 p.1) y0) 0x3FB8AA3B)))
    let sums := runSums (es.map (·.2))
    let kept := es.take (prefixLen (mul32 s.topP (sums.getLast?.getD 0)) sums)
    let t := chainSum (kept.map (·.2))
    (kept.map (fun e => (e.1, mul32 e.2 (rcp32 t))), false)

/-- The probability of a token. -/
def probOf (p : Dist) (tok : Nat) : Word := ((p.find? (fun e => e.1 == tok)).map (·.2)).getD 0

/-- R383: the token that a draw chooses; `none` where the manual names no token. -/
def chooseBy (u : Word) (p : Dist) : Option Nat :=
  match p with
  | [] => none
  | [e] => some e.1
  | _ =>
    match ((p.map (·.1)).zip (runSums (p.map (·.2)))).find? (fun e => lt32 u e.2) with
    | some e => some e.1
    | none => ((p.filter (fun e => lt32 0 e.2)).getLast?).map (·.1)

/-- R375, R376. -/
def chooseAt (seed stream pos mb : Nat) (spare : Nat) (p : Dist) : Nat :=
  (chooseBy (unif (taper seed stream pos mb 0)) p).getD spare

/-- R394. -/
def residual (p q : Dist) : Dist :=
  let r := p.map (fun e => (e.1, let x := sub32 e.2 (probOf q e.1); if lt32 0 x || isNan32 x then x else 0))
  let s := chainSum (r.map (·.2))
  if lt32 0 s then r.map (fun e => (e.1, mul32 e.2 (rcp32 s))) else p

/-! ### Acceptance (R393) -/

/-- A drafted node as its record holds it (R388). -/
structure NodeRec where
  node : DraftNode
  token : Nat
  qTok : Word
  cand : Dist
  deriving DecidableEq, Repr

/-- R393: the children of a node in ascending order. -/
def tryChildren (greedy : Bool) (seed pos spare : Nat) : Nat → Dist → List NodeRec → Dist × Option NodeRec
  | _, p, [] => (p, none)
  | i, p, k :: t =>
    if greedy then
      if k.token = chooseAt seed 0x0010 pos 0 spare p then (p, some k) else tryChildren greedy seed pos spare (i + 1) p t
    else
      let u := unif (taper seed 0x0011 pos i 0)
      if lt32 (mul32 u k.qTok) (probOf p k.token) then (p, some k)
      else tryChildren greedy seed pos spare (i + 1) (residual p k.cand) t

/-- R393: the tokens emitted and the nodes accepted. `dist` gives the distribution at a node (0xFF for the root), after a
path of tokens; its flag tells of a NaN. -/
def acceptWalk (greedy : Bool) (seed eos c spare : Nat) (nodes : List NodeRec) (dist : Nat → List Nat → Dist × Bool) :
    Nat → Nat → List Nat → List NodeRec → Bool → List Nat × List NodeRec × Bool
  | 0, _, path, acc, nan => (path, acc, nan)
  | fuel + 1, at_, path, acc, nan =>
    let pos := c + path.length + 1
    let (p, bad) := dist at_ path
    let (p', chosen) := tryChildren greedy seed pos spare 0 p (nodes.filter (fun k => k.node.parent == at_))
    match chosen with
    | none => (path ++ [chooseAt seed 0x0010 pos 0 spare p'], acc, nan || bad)
    | some k =>
      if k.token = eos then (path ++ [k.token], acc ++ [k], nan || bad)
      else acceptWalk greedy seed eos c spare nodes dist fuel k.node.node (path ++ [k.token]) (acc ++ [k]) (nan || bad)

/-! ### The repetition table (R379, R380) -/

/-- A table of tokens and counts in order of first emission. -/
abbrev RepTable := List (Nat × Nat)

def parseRep (n : Nat) (b : List Byte) : RepTable := (List.range n).map (fun i => (leAt b (8 * i) 4, leAt b (8 * i + 4) 4))

def repCount (t : RepTable) (tok : Nat) : Nat := ((t.find? (fun e => e.1 == tok)).map (·.2)).getD 0

def repAdd (t : RepTable) (tok : Nat) : RepTable :=
  if t.any (fun e => e.1 == tok) then t.map (fun e => if e.1 = tok then (e.1, min max32 (e.2 + 1)) else e)
  else if t.length < 2048 then t ++ [(tok, 1)] else t

def repBytes (t : RepTable) : List Byte := t.flatMap (fun e => leBytes 4 e.1 ++ leBytes 4 e.2)

/-- R384: the count of a token, with its occurrences on the path. -/
def pathCount (t : RepTable) (path : List Nat) (tok : Nat) : Nat := repCount t tok + path.count tok

end Sys2Proof.Machine
end

