-- ==== Sys2Proof/Machine/Requests.lean ====
section
/-! DEFINITION. The request table, KV pools, serving periods, tenants and drafts (chapters 08 and 09): the checks and the
runs of the request commands. -/

namespace Sys2Proof.Machine

/-! ### Lookups -/

def Dev.pool (d : Dev) (part : Nat) : Tbl PoolPage := tget [] d.reqs.pools part
def Dev.period (d : Dev) (part slot : Nat) : Option Period := tfind d.reqs.periods (4 * part + slot)
def Dev.tenant (d : Dev) (t : Nat) : Tenant := tget Tenant.reset d.reqs.tenants t
def Dev.liveIn (d : Dev) (part : Nat) : Nat := (d.reqs.r.filter (fun kv => kv.2.part == part)).length

/-- R336. -/
def Request.isLive (r : Request) : Bool := r.state == 1 || r.state == 2

/-- R372, R408: a command reads a request's entry; an uncorrectable error in its sectors fails the command. The entry's fields
stand in the request table. -/
def readEntry (id : Nat) : Run Unit := do
  let _ ← readPhys (entryPa id) 128
  pure ()

/-- R332: the entry of a request of the partition. -/
def reqOf (part id : Nat) : Run Request := do
  readEntry id
  match (← getDev).request id with
  | some r => if r.part = part then return r else failWith stBadParam
  | none => failWith stBadParam

/-- R30: the tick copy of an island. -/
def Dev.tickAt (d : Dev) (island : Nat) : Nat := d.clk.copies.getD island d.clk.tick

/-- R360: a deadline of all ones never passes. -/
def deadlinePassed (t deadline : Nat) : Bool := decide (deadline < t) && deadline != 2 ^ 64 - 1

/-- R386. -/
def draftMax (ctl : Nat) : Nat := bits ctl 4 0
def draftTree (ctl : Nat) : Bool := bit ctl 6
def draftGreedy (ctl : Nat) : Bool := bit ctl 7

def draftCtlOk (ctl : Nat) : Bool := !bit ctl 5 && decide (draftMax ctl ≤ if draftTree ctl then 16 else 8)

/-- R400: whether a request has too little room for its next period. -/
def Request.crowded (r : Request) : Bool := decide (64 < r.held.length + 1 + draftMax r.draftCtl)

/-- R333: whether an earlier-dispatched request command of the partition is still to commit. -/
def isReqOpcode (op : Nat) : Bool := op == 0x60 || op == 0x61 || op == 0x62 || op == 0x63 || op == 0x68

def Dev.reqBusy (d : Dev) (e : Entry) : Bool :=
  d.live.any (fun x => isReqOpcode x.2.hdr.opcode && x.2.hdr.part == e.hdr.part && x.2.inFlight && decide (x.2.order < e.order))

def Dev.onRequest (d : Dev) (c : CmdRef) (f : Entry → Dev) : Dev :=
  d.onPacket c (fun e => if d.reqBusy e then d else f e)

/-! ### Admission and pools (R334, R342, R347, R367, R377, R378) -/

def samplerOk (a : Admission) : Bool :=
  (a.temperature == 0 || (le32 0x3C000000 a.temperature && le32 a.temperature 0x43000000)) && decide (a.topK ≤ 256) &&
    lt32 0 a.topP && le32 a.topP one32 && le32 0x3D800000 a.rep && le32 a.rep 0x41800000 &&
    fvLe (v32 a.freq).abs (.fin false 256 0) && fvLe (v32 a.presence).abs (.fin false 256 0)

def admissionOk (a : Admission) : Bool :=
  a.restZero && decide (a.tenant < 4096) && decide (1 ≤ a.promptLen) && decide (a.promptLen ≤ 1048575) &&
    decide (a.promptLen + 1 ≤ a.maxLen) && decide (a.maxLen ≤ 1048576) && vaOk a.pageListVa && a.pageListVa % 64 == 0 &&
    decide (1 ≤ a.kvStreams) && decide (a.kvStreams ≤ 256) && decide (1 ≤ a.ppp) && decide (a.ppp ≤ 1023) &&
    a.slotBytes % 64 == 0 && decide (a.ppp * a.slotBytes ≤ 65472) && samplerOk a && vaOk a.countsVa && a.countsVa % 64 == 0 &&
    decide (12 ≤ a.ringLog2) && decide (a.ringLog2 ≤ 20) && a.ringIova % 2 ^ a.ringLog2 == 0

def runAdmit (part : Nat) (a : Admission) : Run Counts := do
  let d ← getDev
  require (decide (d.liveIn part < tget 0 d.reqs.maxReq part)) stQuota
  match lowest (fun i => !thas d.reqs.r i) 0 16384 with
  | none => failWith stQuota
  | some id => do
    readEntry id
    hold (.reqAdmit part id a)
    return okCounts id ((d.genOf id + 1) % 2 ^ 32) 0

/-- R340 to R342: the check of a tenant at the instant of the commit point. -/
def Dev.admitStatus (d : Dev) (part : Nat) (a : Admission) : Nat :=
  let t := d.tenant a.tenant
  if t.bound ≠ some part then stBadParam
  else if t.balance - t.reserved < a.maxLen ∨ t.maxLive ≤ t.live then stBudget
  else stOk

def poolFieldsOk (va pages : Nat) (rsv : Bool) : Bool :=
  rsv && va % 65536 == 0 && decide (1 ≤ pages) && decide (pages ≤ 65535) && decide (va + pages * 65536 ≤ 2 ^ 48)

/-- Free pages of a pool. -/
def freePool (t : Tbl PoolPage) : List Nat := (t.filter (fun kv => kv.2.holder.isNone && !kv.2.zeroing)).map (·.1)

def runPoolAdd (part va pages : Nat) : Run Counts := do
  let d ← getDev
  let p := d.part part
  let es := (rangeKeys va pages true).filterMap (fun k => match p.pteAt k with
    | some e => if e.kind = .kv then some (e.pa / 65536, 65536 * k) else none
    | none => none)
  let pool := d.pool part
  require (es.length == pages && !es.any (fun x => thas pool x.1)) stBadParam
  require (decide (pool.length + pages ≤ 65535)) stQuota
  hold (.poolAdd part es)
  return okCounts pages ((freePool pool).length + pages) 0

def runPoolRemove (part va pages : Nat) : Run Counts := do
  let d ← getDev
  let p := d.part part
  let pool := d.pool part
  let ks := (rangeKeys va pages true).filterMap (fun k => match p.pteAt k with
    | some e => if thas pool (e.pa / 65536) then some (e.pa / 65536) else none
    | none => none)
  require (ks.length == pages) stBadParam
  require (ks.all (fun k => match tfind pool k with
    | some g => g.holder.isNone && !g.zeroing
    | none => false)) stInUse
  hold (.poolRemove part ks)
  return okCounts pages ((freePool pool).length - pages) 0

/-! ### Pages of a request (R348 to R354) -/

/-- The address of an entry of the page list. -/
def pageListAt (a : Admission) (index : Nat) : Nat := a.pageListVa + 8 * index

/-- The page-list entries of returned pages read zero (R349). -/
def clearList (a : Admission) (idxs : List Nat) : Run Unit := idxs.forM (fun i => writeVa accPlain (pageListAt a i) (zeros 8))

/-- R350: the header of page index (x, stream) of a request with given lengths. -/
def kvHeader (id : Nat) (r : Request) (gen index committed tentative : Nat) : List Byte :=
  let a := r.adm
  let x := index / a.kvStreams
  let slots (n : Nat) : Nat := min a.ppp (n - x * a.ppp)
  let c := slots committed
  let t := slots tentative - c
  leBytes 2 id ++ leBytes 1 (index % a.kvStreams) ++ leBytes 1 (setBit (c == 0 && decide (0 < t)) 0) ++ leBytes 4 x ++
    leBytes 4 (x * a.ppp) ++ leBytes 2 a.ppp ++ leBytes 2 a.slotBytes ++ leBytes 2 c ++ leBytes 2 t ++ leBytes 4 gen ++
    leBytes 8 r.periodSeq ++ zeros 32

/-- Headers rewritten of held pages whose counts change between two pairs of lengths, and of pages just placed. A page that was held
before has its header read (DEDUCED, log entry 167: R372 names a header read); a fresh one has none. -/
def putHeaders (id : Nat) (r : Request) (gen : Nat) (pages : Tbl Nat) (fresh : List Nat) (old new : Nat × Nat) : Run Unit :=
  (pages.filter (fun kv => fresh.contains kv.1 ||
      kvHeader id r gen kv.1 old.1 old.2 != kvHeader id r gen kv.1 new.1 new.2)).forM (fun kv => do
    let _ ← if fresh.contains kv.1 then pure [] else readPhys (65536 * kv.2) 64
    hold (.mem (65536 * kv.2) (kvHeader id r gen kv.1 new.1 new.2)))

/-- R354: the pages that begin at or beyond a length. -/
def pagesBeyond (r : Request) (len : Nat) : List Nat :=
  (r.pages.filter (fun kv => decide (len ≤ kv.1 / r.adm.kvStreams * r.adm.ppp))).map (·.1)

/-! ### Openers (R355 to R362, R391) -/

def openFieldsOk (slot n batch step : Nat) (rsv : Bool) : Bool :=
  rsv && decide (slot < 4) && decide (1 ≤ n) && decide (n ≤ 4096) && vaOk batch && vaOk step

/-- R391: the draft length of a decode row and the new probe counter. -/
def draftLen (r : Request) : Nat × Nat :=
  let m := draftMax r.draftCtl
  if m = 0 then (0, r.probeCtr)
  else if r.zeroRun < 8 then (m, r.probeCtr)
  else if r.probeCtr + 1 = 64 then (1, 0)
  else (0, r.probeCtr + 1)

/-- A named request with what the opener finds for it. -/
structure OpenRow where
  id : Nat
  req : Request
  status : Nat
  count : Nat
  placed : List (Nat × Nat)
  deriving DecidableEq, Repr

/-- R356, R360, R361, R355: status and count before pages are placed. -/
def openRow (t : Nat) (prefill : Bool) (id chunk : Nat) (r : Request) : OpenRow :=
  let st := if r.state = 3 then 3 else if r.isLive && deadlinePassed t r.adm.deadline then 3
    else if r.state = 4 || r.promptDone == prefill then 4 else if r.state = 2 then 1 else 0
  let n := if prefill then min chunk (r.adm.promptLen - r.committed)
    else min (1 + (draftLen r).1) (r.adm.maxLen - 1 - r.committed)
  ⟨id, r, st, if st = 0 then n else 0, []⟩

/-- R351: the page indices that a row needs and does not hold. -/
def missingPages (o : OpenRow) : List Nat :=
  let a := o.req.adm
  if o.count = 0 then []
  else
    let lo := o.req.committed / a.ppp
    let hi := (o.req.committed + o.count - 1) / a.ppp
    ((List.range' lo (hi + 1 - lo)).flatMap (fun x => (List.range a.kvStreams).map (fun s => x * a.kvStreams + s))).filter
      (fun i => !thas o.req.pages i)

/-- R352: pages for one row from the free pages, or none of them. -/
def placeRow (free : List Nat) (o : OpenRow) : OpenRow × List Nat :=
  let need := missingPages o
  if o.status ≠ 0 then (o, free)
  else if free.length < need.length then ({ o with status := 2, count := 0 }, free)
  else ({ o with placed := need.zip free }, free.drop need.length)

/-- R352: rows served in descending priority, then in batch order; the result in batch order. -/
def placeRows (free : List Nat) (rows : List OpenRow) : List OpenRow :=
  let order := sortBy (fun (a b : OpenRow × Nat) => decide (b.1.req.adm.priority < a.1.req.adm.priority)) (withIdx 0 rows)
  let done := order.foldl (fun (acc : List (OpenRow × Nat) × List Nat) o =>
    let r := placeRow acc.2 o.1
    (acc.1 ++ [(r.1, o.2)], r.2)) ([], free)
  (sortBy (fun (a b : OpenRow × Nat) => decide (a.2 < b.2)) done.1).map (·.1)

/-- R357: a step-table row. -/
def stepRow (o : OpenRow) (prefill : Bool) (base gen : Nat) : List Byte :=
  leBytes 2 o.id ++ leBytes 1 o.status ++ leBytes 1 (if prefill then 1 else 0) ++ leBytes 4 o.req.committed ++
    leBytes 4 o.count ++ leBytes 4 base ++ leBytes 4 (if prefill then 0 else o.req.nextToken) ++ leBytes 4 gen ++
    leBytes 8 o.req.adm.pageListVa

/-- The row bases of a batch. -/
def rowBases : Nat → List OpenRow → List Nat
  | _, [] => []
  | b, o :: t => b :: rowBases (b + o.count) t

/-- R361: the further requests of the partition that expire. -/
def furtherExpired (d : Dev) (part t : Nat) (named : List Nat) : List Nat :=
  let late := d.reqs.r.filter (fun kv => kv.2.part == part && kv.2.isLive && !kv.2.inPeriod && !named.contains kv.1 &&
    deadlinePassed t kv.2.adm.deadline)
  ((sortBy (fun (a b : Nat × Request) => decide (a.2.adm.deadline < b.2.adm.deadline)) late).take 64).map (·.1)

/-- R337, R361: an expiry, with its page list cleared. -/
def expire (d : Dev) (id : Nat) : Run Unit := do
  readEntry id
  match d.request id with
  | none => pure ()
  | some r => do
    clearList r.adm (r.pages.map (·.1))
    hold (.reqExpire id)

def isDdr (pa : Nat) : Bool := (tierOf pa).any (fun t => decide (t.1 = .ddr))

/-- R369: the batch list and the step table lie in Skein or HBM pages; one in DDR5 is a field out of range (DEDUCED, log entry
168). -/
def notDdr (part va n : Nat) : Run Unit :=
  (piecesOf va n).forM (fun p => do
    let pa ← tryCatch (xlate accPlain part p.1) (fun f => throw (plainFail f))
    require (!isDdr pa) stBadParam)

/-- The batch list: ids with their chunks. -/
def readBatch (prefill : Bool) (batch n : Nat) : Run (List (Nat × Nat)) := do
  let w := if prefill then 8 else 2
  let b ← readOrd batch (w * n)
  return (List.range n).map (fun i => (leAt b (w * i) 2, if prefill then leAt b (8 * i + 4) 4 else 0))

/-- R350, R351, R357: what an opener writes and holds for a row: its step-table row; for a RUN row also its new pages, their
headers and page-list entries. -/
def openOne (d : Dev) (part : Nat) (prefill : Bool) (step : Nat) (ob : OpenRow × Nat × Nat) : Run Unit := do
  let o := ob.1
  let gen := d.genOf o.id
  writeOrd (step + 32 * ob.2.2) (stepRow o prefill ob.2.1 gen)
  if o.status = 0 then
    let r := { o.req with periodSeq := o.req.periodSeq + 1 }
    let pages := o.placed.foldl (fun acc p => tins acc p.1 p.2) r.pages
    putHeaders o.id r gen pages (o.placed.map (·.1)) (r.committed, r.committed) (r.committed, r.committed + o.count)
    o.placed.forM (fun p => do
      let va := ((tfind (d.pool part) p.2).map (·.va)).getD 0
      writeVa accPlain (pageListAt r.adm p.1) (leBytes 8 va)
      hold (.pagePlace part o.id p.1 p.2))
  else pure ()

/-- The period that an opener opens with its rows. -/
def openedPeriod (d : Dev) (prefill : Bool) (opcode : Nat) (rows : List OpenRow) : Period :=
  { opcode := opcode
    rows := (rows.zip (rowBases 0 rows)).map (fun ob =>
      { req := ob.1.id, status := ob.1.status, kind := if prefill then 1 else 0, start := ob.1.req.committed,
        count := ob.1.count, rowBase := ob.2, generation := d.genOf ob.1.id, nodes := [] }) }

/-- R360, R361: the requests that expire with an opener. -/
def lateWith (d : Dev) (part t : Nat) (rows : List OpenRow) : List Nat :=
  (rows.filter (fun o => o.status == 3 && o.req.isLive)).map (·.id) ++ furtherExpired d part t (rows.map (·.id))

/-- The counters of an opener: rows that run, rows skipped, requests that expire. -/
def openCounts (rows : List OpenRow) (late : List Nat) : Counts :=
  okCounts (rows.filter (fun o => o.status == 0)).length (rows.filter (fun o => o.status != 0 && o.status != 3)).length late.length

def runOpen (prefill : Bool) (e : Entry) (slot n batch step : Nat) : Run Counts := do
  let d ← getDev
  let part := e.hdr.part
  let t := d.tickAt (d.spindleOf e)
  let items ← readBatch prefill batch n
  notDdr part batch ((if prefill then 8 else 2) * n)
  notDdr part step (32 * n)
  let reqs ← items.mapM (fun i => do return (i, ← reqOf part i.1))
  require (decide (nodupNat (items.map (·.1)) = items.map (·.1))) stBadParam
  require ((d.period part slot).isNone && !reqs.any (fun x => x.2.inPeriod)) stInUse
  let rows := placeRows (freePool (d.pool part)) (reqs.map (fun x => openRow t prefill x.1.1 x.1.2 x.2))
  require (decide ((rows.map (·.count)).sum ≤ 1048576)) stBadParam
  (rows.zip (withIdx 0 (rowBases 0 rows))).forM (openOne d part prefill step)
  let late := lateWith d part t rows
  late.forM (expire d)
  hold (.periodOpen part slot (openedPeriod d prefill e.hdr.opcode rows))
  return openCounts rows late

/-! ### Closers (R359, R363, R385, R392 to R396) -/

def logitsOk (x : Desc) (vocab : Nat) : Bool :=
  x.ok false false false && decide (x.fmt ≤ 2) && decide (1 ≤ vocab) && decide (vocab ≤ 262144)

def closeFieldsOk (slot : Nat) (x : Desc) (vocab draft : Nat) (rsv : Bool) : Bool :=
  rsv && decide (slot < 4) && logitsOk x vocab && vaOk draft

/-- The access of the sampler to logits: no Wick page (R298), no host memory. -/
def accLogits : Access := ⟨3, false, false, false, true⟩

/-- A row of logits. -/
def logitRow (x : Desc) (row vocab : Nat) : Run (List FVal) := x.readVals accLogits row vocab

/-- R388: a node's record in the draft area, as it stands. -/
def readNode (draft k : Nat) (n : DraftNode) : Run NodeRec := do
  let b ← readOrd (draft + 33024 * k + 2064 * n.node) 2064
  let cand := (List.range (min 256 (leAt b 6 2))).map (fun i => (leAt b (16 + 8 * i) 4, word32 b (20 + 8 * i)))
  return ⟨n, leAt b 0 4, word32 b 8, cand⟩

/-- R379: a request's repetition table. -/
def readRep (r : Request) : Run RepTable := do return parseRep r.countUsed (← readOrd r.adm.countsVa (8 * r.countUsed))

/-- A spare token where R383 names none. -/
def spareToken : Run Nat := do return (Config.freeWord (← getDev).free).toNat

/-- The physical address of a KV slot of a request. -/
def kvSlotPa (r : Request) (stream pos : Nat) : Option Nat :=
  (tfind r.pages (pos / r.adm.ppp * r.adm.kvStreams + stream)).map (fun k =>
    65536 * k + 64 + pos % r.adm.ppp * r.adm.slotBytes)

/-- R396: accepted nodes' slots moved to their positions. -/
def moveSlots (r : Request) (c : Nat) (acc : List NodeRec) : Run Unit :=
  (withIdx 1 acc).forM (fun kt =>
    if 1 + kt.1.node.node = kt.2 then pure ()
    else (List.range r.adm.kvStreams).forM (fun s => do
      match kvSlotPa r s (c + 1 + kt.1.node.node), kvSlotPa r s (c + kt.2) with
      | some src, some dst => do
        let b ← readPhys src r.adm.slotBytes
        hold (.mem dst b)
      | _, _ => pure ()))

/-- R380: the emitted tokens counted in the repetition table. -/
def countTokens (r : Request) (t : RepTable) (toks : List Nat) : Run Nat := do
  let t' := toks.foldl repAdd t
  if t' = t then pure () else writeOrd r.adm.countsVa (repBytes t')
  return t'.length

/-- R336: whether a request is done after emitting tokens. -/
def doneAfter (r : Request) (toks : List Nat) : Bool :=
  (r.adm.eosId != 0xFFFFFFFF && toks.contains r.adm.eosId) || r.emitted + toks.length == r.adm.maxLen - r.adm.promptLen

/-- What a closer decides for a prefill row. -/
def closePrefill (x : Desc) (vocab : Nat) (row : PeriodRow) (r : Request) : Run CloseRow := do
  let full := r.committed + row.count == r.adm.promptLen
  if full then
    let t ← readRep r
    let (p, nan) := distOf (ctlOf r.adm) (repCount t) (← logitRow x (row.rowBase + row.count - 1) vocab)
    if nan then modify (fun c => { c with nan := true }) else pure ()
    let tok := chooseAt r.adm.seed 0x0010 r.adm.promptLen 0 (← spareToken) p
    let used ← countTokens r t [tok]
    return { req := row.req, tokens := [tok], accepted := 0, nodes := 0, commit := row.count, promptDone := true,
             last := doneAfter r [tok], countUsed := used, charge := row.count + 1 }
  else
    return { req := row.req, tokens := [], accepted := 0, nodes := 0, commit := row.count, promptDone := false,
             last := false, countUsed := r.countUsed, charge := row.count }

/-- R393: what a closer decides for a decode row, its nodes taken in ascending node index; k is the row's place in the step table. -/
def closeDecode (x : Desc) (vocab draft k : Nat) (row : PeriodRow) (r : Request) : Run CloseRow := do
  let t ← readRep r
  let nodes ← (sortBy (fun (a b : DraftNode) => decide (a.node < b.node)) row.nodes).mapM (readNode draft k)
  let logits ← (List.range row.count).mapM (fun i => logitRow x (row.rowBase + i) vocab)
  let dist := fun (n : Nat) (path : List Nat) =>
    distOf (ctlOf r.adm) (pathCount t path) (logits.getD (if n = 0xFF then 0 else 1 + n) [])
  let (toks, acc, nan) := acceptWalk (draftGreedy r.draftCtl) r.adm.seed r.adm.eosId row.start (← spareToken) nodes dist
    (nodes.length + 1) 0xFF [] [] false
  if nan then modify (fun c => { c with nan := true }) else pure ()
  moveSlots r row.start acc
  let used ← countTokens r t toks
  return { req := row.req, tokens := toks, accepted := acc.length, nodes := nodes.length, commit := toks.length,
           promptDone := true, last := doneAfter r toks, countUsed := used, charge := toks.length }

/-- The pages that a closer returns for a row. -/
def returnedPages (r : Request) (len : Nat) (last : Bool) : List Nat :=
  if last then r.pages.map (·.1) else pagesBeyond r len

/-- Headers and page list after a row closes at a new length; the number of pages returned. -/
def settleRow (d : Dev) (id : Nat) (r : Request) (len : Nat) (last : Bool) : Run Nat := do
  let back := returnedPages r len last
  clearList r.adm back
  putHeaders id r (d.genOf id) (r.pages.filter (fun kv => !back.contains kv.1)) [] (r.committed, r.tentative) (len, len)
  return back.length

/-- What a closer decides for a RUN row, and the pages that the row returns; with the row's place in the step table. -/
def closeOne (d : Dev) (x : Desc) (vocab draft : Nat) (rk : PeriodRow × Nat) : Run (CloseRow × Nat) := do
  readEntry rk.1.req
  match d.request rk.1.req with
  | none => failWith stBadParam
  | some r => do
    let c ← if rk.1.kind = 1 then closePrefill x vocab rk.1 r else closeDecode x vocab draft rk.2 rk.1 r
    let n ← settleRow d rk.1.req r (r.committed + c.commit) c.last
    return (c, n)

def runClose (part slot : Nat) (x : Desc) (vocab draft : Nat) : Run Counts := do
  let d ← getDev
  match d.period part slot with
  | none => failWith stBadParam
  | some p => do
    let rows := (withIdx 0 p.rows).filter (fun rk => rk.1.status == 0)
    require (!(draft == 0 && rows.any (fun rk => rk.1.kind == 0 && decide (1 < rk.1.count)))) stBadParam
    let cs ← rows.mapM (closeOne d x vocab draft)
    hold (.periodClose part slot (cs.map (·.1)))
    return okCounts (cs.map (fun c => c.1.tokens.length)).sum (cs.map (·.2)).sum (cs.filter (fun c => c.1.last)).length

/-- A RUN row of an aborted period: its request goes back to its committed length; the pages that it returns. -/
def abortOne (d : Dev) (row : PeriodRow) : Run Nat := do
  readEntry row.req
  match d.request row.req with
  | none => return 0
  | some r => settleRow d row.req r r.committed false

def runAbort (part slot : Nat) : Run Counts := do
  let d ← getDev
  match d.period part slot with
  | none => failWith stBadParam
  | some p => do
    let ns ← (p.rows.filter (fun r => r.status == 0)).mapM (abortOne d)
    hold (.periodAbort part slot)
    return okCounts 0 ns.sum 0

/-! ### Release (R368) -/

def runReqRelease (part id gen : Nat) : Run Counts := do
  let d ← getDev
  let r ← reqOf part id
  require (d.genOf id == gen) stBadParam
  require (!r.inPeriod) stInUse
  clearList r.adm (r.pages.map (·.1))
  hold (.reqRelease id)
  return okCounts id r.pages.length (if r.isLive then r.reserveLeft else 0)

/-! ### Drafts (R386 to R390, R404 to R406) -/

def runDraftConfig (part id gen ctl : Nat) : Run Counts := do
  let d ← getDev
  let r ← reqOf part id
  require (d.genOf id == gen) stBadParam
  require (!r.inPeriod) stInUse
  hold (.draftCtl id ctl)
  return okCounts id gen 0

/-- A DRAW item (R405). -/
structure DrawItem where
  row : Nat
  node : Nat
  parent : Nat
  mode : Nat
  rank : Nat
  lrow : Nat
  rsvZero : Bool
  deriving DecidableEq, Repr

def parseItem (b : List Byte) (i : Nat) : DrawItem :=
  let o := 16 * i
  ⟨leAt b o 2, byteAt b (o + 2), byteAt b (o + 3), byteAt b (o + 4), byteAt b (o + 5), leAt b (o + 8) 4,
    zeroAt b (o + 6) 2 && zeroAt b (o + 12) 4⟩

def drawFieldsOk (slot n vocab items draft : Nat) (x : Desc) (rsv : Bool) : Bool :=
  rsv && decide (slot < 4) && decide (1 ≤ n) && decide (n ≤ 1024) && logitsOk x vocab && vaOk items && vaOk draft

/-- R387, R406: whether an item's node and parent fit its row, with the nodes present so far. -/
def itemOk (it : DrawItem) (row : PeriodRow) (r : Request) (here : List DraftNode) : Bool :=
  it.rsvZero && decide (it.node < 16) && decide (it.mode ≤ 1) && decide (it.node + 1 < row.count) &&
    !here.any (fun n => n.node == it.node) && !(it.mode == 1 && !draftGreedy r.draftCtl) &&
    (if draftTree r.draftCtl then it.parent == 0xFF || decide (it.parent < it.node)
      else it.parent == (if it.node = 0 then 0xFF else it.node - 1)) &&
    (it.parent == 0xFF || here.any (fun n => n.node == it.parent))

/-- The ancestors of a node, nearest first. -/
def ancestors (here : List DraftNode) : Nat → Nat → List DraftNode
  | 0, _ => []
  | f + 1, n =>
    match here.find? (fun x => x.node == n) with
    | some x => x :: ancestors here f x.parent
    | none => []

/-- R388: a node's record. -/
def nodeBytes (tok parent depth : Nat) (ranked : Bool) (p : Dist) : List Byte :=
  fitBytes 2064 (leBytes 4 tok ++ leBytes 1 parent ++ leBytes 1 (1 + setBit ranked 1) ++ leBytes 2 p.length ++
    wordBytes (probOf p tok) ++ leBytes 1 depth ++ zeros 3 ++ p.flatMap (fun e => leBytes 4 e.1 ++ wordBytes e.2))

/-- R389: one item; the node where it is present. -/
def drawItem (x : Desc) (vocab draft : Nat) (it : DrawItem) (row : PeriodRow) (r : Request) (here : List DraftNode) :
    Run (Option DraftNode) := do
  let anc := (ancestors here 16 it.parent).reverse
  let recs ← anc.mapM (readNode draft it.row)
  let t ← readRep r
  let (p, nan) := distOf (ctlOf r.adm) (pathCount t (recs.map (·.token))) (← logitRow x it.lrow vocab)
  if nan then modify (fun c => { c with nan := true }) else pure ()
  let depth := anc.length + 1
  let spare ← spareToken
  let tok := if it.mode = 0 then some (chooseAt r.adm.seed 0x0012 (row.start + depth) it.node spare p)
    else (p[it.rank]?).map (·.1)
  match tok with
  | none => return none
  | some k => do
    writeOrd (draft + 33024 * it.row + 2064 * it.node) (nodeBytes k it.parent depth (it.mode == 1) p)
    return some ⟨it.node, it.parent, depth⟩

/-- R387, R406: one item of a DRAW, after the nodes that the earlier items drew. -/
def drawOne (d : Dev) (p : Period) (x : Desc) (vocab draft : Nat) (acc : List (Nat × DraftNode)) (it : DrawItem) :
    Run (List (Nat × DraftNode)) := do
  match p.rows[it.row]? with
  | none => failWith stBadParam
  | some row =>
    readEntry row.req
    match d.request row.req with
    | none => failWith stBadParam
    | some r => do
      let here := row.nodes ++ (acc.filter (fun a => a.1 == it.row)).map (·.2)
      require (row.status == 0 && row.kind == 0 && itemOk it row r here) stBadParam
      match ← drawItem x vocab draft it row r here with
      | some nd => return acc ++ [(it.row, nd)]
      | none => return acc

def runDraw (part slot n vocab items draft : Nat) (x : Desc) : Run Counts := do
  let d ← getDev
  match d.period part slot with
  | none => failWith stBadParam
  | some p => do
    let b ← readOrd items (16 * n)
    let done ← ((List.range n).map (parseItem b)).foldlM (drawOne d p x vocab draft) []
    hold (.draftNodes part slot done)
    return okCounts done.length (n - done.length) 0

/-! ### Tenants (R339 to R341, R370) -/

def tenantFieldsOk (t op part maxLive : Nat) : Bool :=
  decide (t < 4096) && decide (op ≤ 2) && (op != 2 || ((decide (part < 14) || part == 0xF) && decide (maxLive ≤ 16384)))

/-- Two's complement of 64 bits. -/
def signed64 (n : Nat) : Int := if n < 2 ^ 63 then n else (n : Int) - 2 ^ 64
def unsigned64 (z : Int) : Nat := (z % 2 ^ 64).toNat
def clamp64 (z : Int) : Int := max (-(2 ^ 63)) (min (2 ^ 63 - 1) z)

/-- What a TENANT_SET makes of a tenant. -/
def tenantAfter (t : Tenant) (op part maxLive value : Nat) : Tenant :=
  match op with
  | 0 => { t with balance := signed64 value }
  | 1 => { t with balance := clamp64 (t.balance + signed64 value) }
  | _ => { t with bound := if part = 0xF then none else some part, maxLive := maxLive }

/-- R340: whether a BIND would rebind a tenant with live requests. -/
def tenantRefused (t : Tenant) (op part : Nat) : Bool :=
  op == 2 && decide (0 < t.live) && t.bound != (if part = 0xF then none else some part)

def runTenant (t op part maxLive value : Nat) : Run Counts := do
  hold (.tenantSet t op part maxLive value)
  return okCounts t 0 0

/-! ### The commands -/

def doReqAdmit (d : Dev) (c : CmdRef) : Dev :=
  d.onRequest c (fun e => match e.payload with
    | .reqAdmit a => d.runClaimed c e (runAdmit e.hdr.part a)
    | _ => d)

def doPoolAdd (d : Dev) (c : CmdRef) : Dev :=
  d.onRequest c (fun e => match e.payload with
    | .poolAdd va pages _ => d.runClaimed c e (runPoolAdd e.hdr.part va pages)
    | _ => d)

def doPoolRemove (d : Dev) (c : CmdRef) : Dev :=
  d.onRequest c (fun e => match e.payload with
    | .poolRemove va pages _ => d.runClaimed c e (runPoolRemove e.hdr.part va pages)
    | _ => d)

def doReqRelease (d : Dev) (c : CmdRef) : Dev :=
  d.onRequest c (fun e => match e.payload with
    | .reqRelease id gen _ => d.runClaimed c e (runReqRelease e.hdr.part id gen)
    | _ => d)

def doOpen (d : Dev) (c : CmdRef) : Dev :=
  d.onRequest c (fun e => match e.payload with
    | .decodeOpen slot n b s _ => d.runClaimed c e (runOpen false e slot n b s)
    | _ => d)

def doPrefill (d : Dev) (c : CmdRef) : Dev :=
  d.onRequest c (fun e => match e.payload with
    | .prefill slot n b s _ => d.runClaimed c e (runOpen true e slot n b s)
    | _ => d)

def doClose (d : Dev) (c : CmdRef) : Dev :=
  d.onRequest c (fun e => match e.payload with
    | .decodeClose slot x v dr _ => d.runClaimed c e (runClose e.hdr.part slot x v dr)
    | _ => d)

def doAbort (d : Dev) (c : CmdRef) : Dev :=
  d.onRequest c (fun e => match e.payload with
    | .decodeAbort slot _ => d.runClaimed c e (runAbort e.hdr.part slot)
    | _ => d)

def doConfig (d : Dev) (c : CmdRef) : Dev :=
  d.onRequest c (fun e => match e.payload with
    | .draftConfig ctl id gen _ => d.runClaimed c e (runDraftConfig e.hdr.part id gen ctl)
    | _ => d)

def doDraw (d : Dev) (c : CmdRef) : Dev :=
  d.onRequest c (fun e => match e.payload with
    | .draftDraw slot n v items dr x _ => d.runClaimed c e (runDraw e.hdr.part slot n v items dr x)
    | _ => d)

def doSetBalance (d : Dev) (c : CmdRef) : Dev :=
  d.onPacket c (fun e => match e.payload with
    | .tenantSet t 0 p m v _ => d.run c e (runTenant t 0 p m v)
    | _ => d)

def doAddBalance (d : Dev) (c : CmdRef) : Dev :=
  d.onPacket c (fun e => match e.payload with
    | .tenantSet t 1 p m v _ => d.run c e (runTenant t 1 p m v)
    | _ => d)

def doBind (d : Dev) (c : CmdRef) : Dev :=
  d.onPacket c (fun e => match e.payload with
    | .tenantSet t 2 p m v _ => d.run c e (runTenant t 2 p m v)
    | _ => d)

end Sys2Proof.Machine
end

