-- ==== Sys2Proof/Machine/TrdNum.lean ====
section
/-! DEFINITION. The Treadle's numerics (R451, R458 to R475): descriptors, moments, the update of a block and its
statistics; and the arithmetic of ROOT (R476, R477). -/

namespace Sys2Proof.Machine

/-! ### Block descriptors -/

structure TrdDesc where
  n : Nat
  layer : Nat
  kind : Nat
  ctl : Nat
  f : Int
  lrExp : Int
  wdExp : Int
  lrMant : Nat
  wdMant : Nat
  b1 : Nat
  c1 : Nat
  b2 : Nat
  c2 : Nat
  eps : Nat
  gradVa : Nat
  wVa0 : Nat
  wVa1 : Nat
  stVa0 : Nat
  stVa1 : Nat
  maskVa : Nat
  tensorId : Nat
  elemBase : Nat
  rsvZero : Bool
  deriving DecidableEq, Repr

/-- A signed byte. -/
def int8 (n : Nat) : Int := if n < 128 then n else (n : Int) - 256

def parseTrdDesc (b : List Byte) : TrdDesc :=
  { n := leAt b 0 4, layer := leAt b 4 2, kind := byteAt b 6, ctl := byteAt b 7, f := int8 (byteAt b 8),
    lrExp := int8 (byteAt b 9), wdExp := int8 (byteAt b 10), lrMant := leAt b 12 2, wdMant := leAt b 14 2,
    b1 := leAt b 16 2, c1 := leAt b 18 2, b2 := leAt b 20 2, c2 := leAt b 22 2, eps := leAt b 24 2,
    gradVa := leAt b 32 8, wVa0 := leAt b 40 8, wVa1 := leAt b 48 8, stVa0 := leAt b 56 8, stVa1 := leAt b 64 8,
    maskVa := leAt b 72 8, tensorId := leAt b 80 4, elemBase := leAt b 84 4,
    rsvZero := zeroAt b 11 1 && zeroAt b 26 6 && zeroAt b 88 40 }

def TrdDesc.rule (d : TrdDesc) : Nat := d.ctl % 4
def TrdDesc.nesterov (d : TrdDesc) : Bool := bit d.ctl 2
def TrdDesc.priv (d : TrdDesc) : Bool := bit d.ctl 3
def TrdDesc.mask (d : TrdDesc) : Bool := bit d.ctl 4
def TrdDesc.gfmt (d : TrdDesc) : Nat := if bit d.ctl 5 then 2 else 0
def TrdDesc.hasV (d : TrdDesc) : Bool := d.rule == 1
def TrdDesc.moments (d : TrdDesc) : Nat := if d.hasV then 2 else 1

/-- R465: bytes of a state buffer. -/
def TrdDesc.stateLen (d : TrdDesc) : Nat :=
  if d.priv then 4 * d.n * d.moments else d.n * d.moments + d.n / 8

def TrdDesc.wVa (d : TrdDesc) (parity : Nat) : Nat := if parity = 0 then d.wVa0 else d.wVa1
def TrdDesc.stVa (d : TrdDesc) (parity : Nat) : Nat := if parity = 0 then d.stVa0 else d.stVa1

/-- R469: the units of the freeze mask. -/
def TrdDesc.units (d : TrdDesc) : Nat := if d.priv then d.n else d.n / 32

def overlaps (a la b lb : Nat) : Bool := decide (a < b + lb) && decide (b < a + la)

/-- R450: whether the two parities overlap. -/
def TrdDesc.parityClash (d : TrdDesc) : Bool :=
  let w := 2 * d.n
  let s := d.stateLen
  overlaps d.wVa0 w d.wVa1 w || overlaps d.wVa0 w d.stVa1 s || overlaps d.stVa0 s d.wVa1 w || overlaps d.stVa0 s d.stVa1 s

/-- An FP16 code that is positive and normal; in [0, 1); in (0, 1]; positive and finite. -/
def f16Normal (c : Nat) : Bool := decide (0x0400 ≤ c) && decide (c < 0x7C00)
def f16Below1 (c : Nat) : Bool := decide (c < 0x3C00)
def f16Upto1 (c : Nat) : Bool := decide (1 ≤ c) && decide (c ≤ 0x3C00)
def f16Pos (c : Nat) : Bool := decide (1 ≤ c) && decide (c < 0x7C00)

/-- The checks of a descriptor, its layer aside. -/
def TrdDesc.ok (d : TrdDesc) : Bool :=
  d.rsvZero && d.n % 32 == 0 && decide (32 ≤ d.n) && decide (d.n ≤ 2 ^ 31) && decide (d.kind ≤ 4) && d.ctl / 64 == 0 &&
    (d.priv || (d.kind != 2 && d.kind != 3)) &&
    decide (-64 ≤ d.f) && decide (d.f ≤ 63) && decide (-64 ≤ d.lrExp) && decide (d.lrExp ≤ 63) &&
    decide (-64 ≤ d.wdExp) && decide (d.wdExp ≤ 63) && f16Normal d.lrMant && decide (d.wdMant < 0x7C00) &&
    f16Below1 d.b1 && f16Upto1 d.c1 && f16Below1 d.b2 && f16Upto1 d.c2 && (d.rule != 1 || f16Pos d.eps) &&
    [d.gradVa, d.wVa0, d.wVa1, d.stVa0, d.stVa1, d.maskVa].all (fun v => v % 64 == 0 && vaOk v) &&
    (d.mask || d.maskVa == 0) && !d.parityClash

/-! ### Pass 1 (R451 to R455) -/

/-- The sum of the squares of a block, frozen elements as +0 in their places. -/
def blockSquares (vs : List Word) : Word := treeSum (vs.map (fun v => mul32 v v))

def flagNonfinite (g : FVal) : Bool := !g.isFinite

/-- R452: |g| ≥ 2^(f + 8). -/
def flagRange (f : Int) (g : FVal) : Bool := fvLe (.fin false 1 (f + 8)) g.abs

/-- The norm's value on its way through the group tree. -/
structure NormVal where
  sum : Word
  flags : Nat
  deriving DecidableEq, Repr

def NormVal.bytes (v : NormVal) : List Byte := leBytes 4 v.sum.toNat ++ leBytes 2 v.flags
def parseNormVal (b : List Byte) : NormVal := ⟨word32 b 0, leAt b 4 2⟩

/-- R453: sums added, flags ORed. -/
def NormVal.join (a b : NormVal) : NormVal := ⟨add32 a.sum b.sum, a.flags ||| b.flags⟩

/-- R454: the global flags with NORM_INF and SKIP. -/
def globalFlags (v : NormVal) : Nat :=
  let f := v.flags % 4 + (if v.sum = inf32 then 4 else 0)
  if f = 0 then 0 else f + 8

/-- R454: κ. -/
def kappaOf (v : NormVal) (maxNorm : Word) : Word :=
  if globalFlags v ≠ 0 then 0
  else if maxNorm = inf32 ∨ le32 v.sum (mul32 maxNorm maxNorm) then one32
  else mul32 maxNorm (rsq32 v.sum)

/-- R455: the norm record. -/
def normRecord (step : Nat) (v : NormVal) (maxNorm : Word) (members : Nat) (sLocal : Word) : List Byte :=
  leBytes 4 step ++ leBytes 4 v.sum.toNat ++ leBytes 4 (kappaOf v maxNorm).toNat ++ leBytes 2 (globalFlags v) ++
    leBytes 2 members ++ leBytes 4 maxNorm.toNat ++ leBytes 4 sLocal.toNat ++ zeros 8

/-! ### Pass 2 (R459 to R468) -/

/-- One moment format of the recipe: the element code, the largest finite value, the scale limits, h. -/
structure Recipe where
  fmt : Nat
  lo : Nat
  hi : Nat
  h : Nat
  deriving DecidableEq, Repr

/-- R468. -/
def recipeM (kind : Nat) : Recipe :=
  match kind with
  | 1 => ⟨3, 0x70, 0x86, 256⟩
  | 4 => ⟨4, 0x77, 0x7F, 16⟩
  | _ => ⟨3, 0x70, 0x86, 16⟩

def recipeV (kind : Nat) : Recipe := ⟨4, 0x77, 0x7F, if kind = 1 then 256 else 16⟩

/-- R466: the value of a code under a scale. -/
def momentVal (fmt scale code : Nat) : FVal :=
  if scale = 0 then fpZero
  else match decodeFp (elemFmt fmt) code with
    | .fin s m e => .fin s m (e + scale - 127)
    | v => v

/-- A moment of a block as stored: scale, flag nibble, codes. -/
structure MomentBlock where
  scale : Nat
  flags : Nat
  codes : List Nat
  deriving DecidableEq, Repr

/-- One element divided by its scale and rounded; whether it clamped. -/
def storeCode (fmt scale : Nat) (v : FVal) : Nat × Bool :=
  let f := elemFmt fmt
  match v with
  | .nan => (nanCode f, false)
  | .inf s => (encodeFp f (.fin s (maxFinite f).1 (maxFinite f).2), true)
  | .fin s m e =>
    let r := nearestGrid f m (e + 127 - scale)
    if magLt (maxFinite f).1 (maxFinite f).2 r.1 r.2 then (encodeFp f (.fin s (maxFinite f).1 (maxFinite f).2), true)
    else (encodeFp f (.fin s r.1 r.2), false)

/-- R467: the moments of a block stored under the recipe. -/
def storeBlock (r : Recipe) (scale flags : Nat) (vs : List FVal) : MomentBlock :=
  let f := elemFmt r.fmt
  let zero := vs.all FVal.isZero
  let emax : Int := if r.fmt = 3 then 8 else 15
  let fresh : Nat := max r.lo (min r.hi (match blockTop vs with
    | some top => (top - emax + 127).toNat
    | none => 0))
  let use := if scale = 0 then (if zero then 0 else fresh)
    else if bit flags 1 then scale + 1 else if bit flags 2 then scale - 1 else scale
  if use = 0 then ⟨0, 0, vs.map (fun _ => 0)⟩
  else
    let cs := vs.map (storeCode r.fmt use)
    let ovf := cs.any (·.2)
    let small := cs.all (fun c => match decodeFp f c.1 with
      | .fin _ m e => magLt (m * r.h) e (maxFinite f).1 (maxFinite f).2
      | _ => false)
    ⟨use, setBit ovf 0 + setBit (ovf && decide (use < r.hi)) 1 + setBit (!ovf && decide (r.lo < use) && small) 2 +
      setBit (ovf && use == r.hi) 3, cs.map (·.1)⟩

/-- R465: a meta word, and its parts. -/
def metaWord (m v : MomentBlock) : Nat := v.scale * 2 ^ 24 + m.scale * 2 ^ 16 + v.flags * 16 + m.flags

/-- Lane arithmetic in a format: each operation rounds once. -/
def laneMul (f : FpFmt) (a b : FVal) : FVal := roundNE f (mulExact a b)
def laneAdd (f : FpFmt) (a b : FVal) : FVal := roundNE f (addExact a b)
def laneFma3 (f : FpFmt) (a b c : FVal) : FVal := roundNE f (addExact (mulExact a b) c)

def laneSign (a : FVal) : FVal :=
  match a with
  | .nan => .nan
  | .inf s => .fin s 1 0
  | .fin s m _ => if m = 0 then fpZero else .fin s 1 0

/-- sqrt and rcp of the lanes: FP16 correctly rounded, or FP32 for a privileged tensor. -/
def laneSqrt (priv : Bool) (a : FVal) : FVal :=
  if priv then
    match a with
    | .nan => .nan
    | .inf s => if s then .nan else .inf false
    | .fin s m e => if m = 0 then .fin s 0 0 else if s then .nan else
      let r := sqrtSticky m e; roundNE fp32 (.fin false r.1 r.2)
  else v16 (sqrt16 (codeNE fp16 a))

def laneRcp (priv : Bool) (a : FVal) : FVal :=
  if priv then
    match a with
    | .nan => .nan
    | .inf s => .fin s 0 0
    | .fin s m e => if m = 0 then .inf s else let r := recipSticky m e; roundNE fp32 (.fin s r.1 r.2)
  else v16 (rcp16 (codeNE fp16 a))

/-- What a command fixes for its lanes (R460). -/
structure TrdLane where
  lr : Nat
  wd : Nat
  eps : Nat
  deriving DecidableEq, Repr

def laneOf (d : TrdDesc) (sched epsMul : Nat) : TrdLane :=
  ⟨rne16 (mulExact (v16 sched) (v16 d.lrMant)), rne16 (mulExact (v16 sched) (v16 d.wdMant)),
    rne16 (mulExact (v16 d.eps) (v16 epsMul))⟩

/-- R459: the frame gradient. -/
def frameGrad (f : Int) (kappa : Word) (g : FVal) : FVal :=
  match v32 (rne32 (mulExact g (v32 kappa))) with
  | .fin s m e => roundNE fp16 (.fin s m (e - f))
  | v => v

/-- R461, R462: the new moments and u. -/
def trdRule (d : TrdDesc) (l : TrdLane) (gh m v : FVal) : FVal × FVal × FVal :=
  let f := if d.priv then fp32 else fp16
  let b1 := v16 d.b1
  let c1 := v16 d.c1
  let b2 := v16 d.b2
  let c2 := v16 d.c2
  match d.rule with
  | 0 =>
    let m := laneFma3 f b1 m gh
    (m, v, if d.nesterov then laneFma3 f b1 m gh else m)
  | 1 =>
    let m := laneFma3 f b1 m (laneMul f c1 gh)
    let v := laneFma3 f b2 v (laneMul f c2 (laneMul f gh gh))
    (m, v, laneMul f m (laneRcp d.priv (laneAdd f (laneSqrt d.priv v) (v16 l.eps))))
  | 2 =>
    let u := laneSign (laneFma3 f b1 m (laneMul f c1 gh))
    (laneFma3 f b2 m (laneMul f c2 gh), v, u)
  | _ =>
    let m := laneFma3 f b1 m (laneMul f c1 gh)
    (m, v, m)

/-- x × 2ⁿ, exact. -/
def scaleExact (v : FVal) (n : Int) : FVal :=
  match v with
  | .fin s m e => .fin s m (e + n)
  | x => x

/-- R463: the new weight, a BF16 code. -/
def newWeight (d : TrdDesc) (l : TrdLane) (draw : Nat) (w u : FVal) : Nat :=
  let a := laneMul fp16 (v16 l.lr) (roundNE fp16 u)
  let x := addExact (addExact w (scaleExact a d.lrExp).neg) (scaleExact (mulExact (v16 l.wd) w) d.wdExp).neg
  encodeFp bf16 (roundStochastic bf16 (draw % 4096) x)

/-- A block as a parity holds it; `mRsv` is the reserved byte of its meta word, which an update writes as zero (R465). -/
structure TrdBlock where
  w : List Nat
  m : List Nat
  v : List Nat
  mRsv : Nat
  mScale : Nat
  mFlags : Nat
  vScale : Nat
  vFlags : Nat
  deriving DecidableEq, Repr

/-- What a block adds to its layer's statistics (R471, R472). -/
structure BlockStat where
  g : Word
  w : Word
  d : Word
  ovf : Bool
  sat : Bool
  live : Nat
  zeroG : Bool
  deriving DecidableEq, Repr

/-- R461 to R470: one block of 32 elements from index i0 on, and its part of the statistics. -/
def updateBlock (d : TrdDesc) (l : TrdLane) (kappa : Word) (seed step i0 : Nat) (frozen : Nat → Bool) (gs : List FVal)
    (b : TrdBlock) : TrdBlock × BlockStat :=
  let mv (fmt scale c : Nat) : FVal := if d.priv then decodeFp fp32 c else momentVal fmt scale c
  let els := (List.range 32).map (fun i =>
    let w := b.w.getD i 0
    let g := gs.getD i fpZero
    let m0 := mv (recipeM d.kind).fmt b.mScale (b.m.getD i 0)
    let v0 := mv (recipeV d.kind).fmt b.vScale (b.v.getD i 0)
    if frozen (i0 + i) then (w, m0, v0, true)
    else
      let (m, v, u) := trdRule d l (frameGrad d.f kappa g) m0 v0
      (newWeight d l (taper seed 2 step d.tensorId ((d.elemBase + i0 + i) % 2 ^ 32)) (decodeFp bf16 w) u, m, v, false))
  let pick (f : Nat → FVal) : List Word := (List.range 32).map (fun i => if frozen (i0 + i) then 0 else rne32 (f i))
  let oldW (i : Nat) : FVal := decodeFp bf16 (b.w.getD i 0)
  let ws := els.map (·.1)
  let live := (els.filter (fun e => !e.2.2.2)).length
  let stat (ovf sat : Bool) : BlockStat :=
    ⟨blockSquares (pick (fun i => gs.getD i fpZero)), blockSquares (pick oldW),
      blockSquares (pick (fun i => v32 (rne32 (addExact (decodeFp bf16 (ws.getD i 0)) (oldW i).neg)))), ovf, sat, live,
      (List.range 32).all (fun i => frozen (i0 + i) || (gs.getD i fpZero).isZero)⟩
  if live = 0 then (b, stat false false)
  else if d.priv then
    let keep (old : List Nat) (f : FVal × FVal → FVal) : List Nat :=
      (List.range 32).map (fun i => match els[i]? with
        | some e => if e.2.2.2 then old.getD i 0 else codeNE fp32 (f (e.2.1, e.2.2.1))
        | none => 0)
    ({ b with w := ws, m := keep b.m (·.1), v := if d.hasV then keep b.v (·.2) else [] }, stat false false)
  else
    let m := storeBlock (recipeM d.kind) b.mScale b.mFlags (els.map (·.2.1))
    let v := if d.hasV then storeBlock (recipeV d.kind) b.vScale b.vFlags (els.map (·.2.2.1)) else ⟨0, 0, []⟩
    (⟨ws, m.codes, v.codes, 0, m.scale, m.flags, v.scale, v.flags⟩,
      stat (bit m.flags 0 || bit v.flags 0) (bit m.flags 3 || bit v.flags 3))

/-! ### Statistics records (R471 to R475) -/

/-- R474. -/
def ratioEvent (lo hi ssW ssD : Word) : Bool :=
  if lt32 0 ssW then lt32 ssD (mul32 (mul32 lo lo) ssW) || lt32 (mul32 (mul32 hi hi) ssW) ssD
  else (v32 ssW).isZero && lt32 0 ssD && isFinite32 hi

def statRecord (layer flags zeroRun step : Nat) (g w d : Word) (ovf elems : Nat) : List Byte :=
  leBytes 2 layer ++ leBytes 2 flags ++ leBytes 4 zeroRun ++ leBytes 4 step ++ leBytes 4 g.toNat ++ leBytes 4 w.toNat ++
    leBytes 4 d.toNat ++ leBytes 4 ovf ++ leBytes 4 elems

/-! ### ROOT (R476, R477) -/

/-- The BF16 halves of an FP32 value. -/
def hiLo (x : Word) : FVal × FVal :=
  let h := roundNE bf16 (v32 x)
  (h, roundNE bf16 (addExact (v32 x) h.neg))

/-- R477: one element of prod, three sums into one FP32 result, each product added in order of its index. -/
def prodElem (row col : List Word) : Word :=
  let ps := (row.map hiLo).zip (col.map hiLo)
  let add (r : Word) (x y : FVal) : Word := rne32 (addExact (v32 r) (productTerm x y))
  let r := ps.foldl (fun r p => add r p.1.1 p.2.1) 0
  let r := ps.foldl (fun r p => add r p.1.1 p.2.2) r
  ps.foldl (fun r p => add r p.1.2 p.2.1) r

abbrev Matrix32 := List (List Word)

def transpose32 (n : Nat) (m : Matrix32) : Matrix32 := (List.range n).map (fun j => m.map (fun r => r.getD j 0))

def prodMat (n : Nat) (p q : Matrix32) : Matrix32 :=
  let qt := transpose32 n q
  p.map (fun r => qt.map (prodElem r))

def mapMat (m : Matrix32) (f : Nat → Nat → Word → Word) : Matrix32 :=
  (withIdx 0 m).map (fun r => (withIdx 0 r.1).map (fun c => f r.2 c.2 c.1))

def finiteMat (m : Matrix32) : Bool := m.all (fun r => r.all isFinite32)

/-- x × 2ⁿ rounded to FP32. -/
def ldexp32 (x : Word) (n : Int) : Word := rne32 (scaleExact (v32 x) n)

/-- R476: the smallest multiple of p with 4^s ≥ q; none where q is zero. -/
def rootScale (p : Nat) (q : Word) : Option Int :=
  match v32 q with
  | .fin false m e =>
    if m = 0 then none
    else
      let k : Int := (Nat.log2 m : Int) + e
      let top := if m = 2 ^ Nat.log2 m then k else k + 1
      let s := -((-top) / 2)
      some (-((-s) / (p : Int)) * p)
  | _ => none

/-- One iteration: x, m, and whether all stayed finite. -/
def rootStep (n p : Nat) (x m : Matrix32) : Matrix32 × Matrix32 × Bool :=
  let rp : Word := rcp32 (ofInt32 p)
  let t := mapMat m (fun i j v => mul32 (sub32 (if i = j then ofInt32 (p + 1) else 0) v) rp)
  let x' := prodMat n x t
  let t2 := prodMat n t t
  let q := if p = 1 then t else if p = 2 then t2 else prodMat n t2 t2
  let m' := prodMat n q m
  (x', m', finiteMat t && finiteMat x' && finiteMat m' && (p == 1 || finiteMat t2) && finiteMat q)

/-- max |m − I|. -/
def rootGap (m : Matrix32) : Word :=
  ((mapMat m (fun i j v => sub32 v (if i = j then one32 else 0))).flatten).foldl (fun a v =>
    let b : Word := v &&& 0x7FFFFFFF
    if lt32 a b then b else a) 0

/-- R476: the iterations; the result, the iterations run and the last gap, where the test succeeds. -/
def rootIter (n p : Nat) (tol : Word) : Nat → Nat → Matrix32 → Matrix32 → Option (Matrix32 × Nat × Word)
  | 0, _, _, _ => none
  | f + 1, k, x, m =>
    let (x', m', ok) := rootStep n p x m
    if !ok then none
    else
      let g := rootGap m'
      if le32 g tol then some (x', k + 1, g) else rootIter n p tol f (k + 1) x' m'

end Sys2Proof.Machine
end

