-- ==== Sys2Proof/Machine/Treadle.lean ====
section
/-! DEFINITION. The Treadle's commands (chapter 11): the order of a die's units (R422), TRD_NORM's local part, TRD_UPDATE,
TRD_VERIFY, and ROOT. -/

namespace Sys2Proof.Machine

def Dev.modTraining (d : Dev) (f : Training → Training) : Dev := { d with train := f d.train }
def Dev.treadle (d : Dev) (die : Nat) : Treadle := tget Treadle.reset d.train.trd die
def Dev.modTreadle (d : Dev) (die : Nat) (f : Treadle → Treadle) : Dev :=
  d.modTraining (fun t => { t with trd := tmod Treadle.reset t.trd die f })
def Dev.trainOf (d : Dev) (p : Nat) : Train := tget Train.reset d.train.p p
def Dev.modTrain (d : Dev) (p : Nat) (f : Train → Train) : Dev :=
  d.modTraining (fun t => { t with p := tmod Train.reset t.p p f })

/-! ### One die's order (R422, R482) -/

/-- The die on whose exchange datapath or Treadle a command runs; none for the other commands. -/
def dieJob (e : Entry) : Option Nat :=
  match e.payload with
  | .xchConfig x => some (x.ctx / 8)
  | .xchSend ctx _ _ => some (ctx / 8)
  | .xchRemove ctx _ => some (ctx / 8)
  | .stepWait ctx _ _ _ _ => some (ctx / 8)
  | .trdNorm _ _ _ _ _ _ _ _ => some e.hdr.unit
  | .trdUpdate _ => some e.hdr.unit
  | .trdVerify _ _ _ _ _ => some e.hdr.unit
  | _ => none

/-- R430: a STEP_WAIT holds no datapath while it waits for its decision tick. -/
def Dev.undecided (d : Dev) (e : Entry) : Bool :=
  match e.payload, e.phase with
  | .stepWait _ _ _ _ _, .dispatched => true
  | .stepWait ctx _ _ _ _, .running _ => ((tfind d.xch ctx).bind (·.decision)).isNone
  | _, _ => false

/-- Whether a command occupies its die's unit: it runs, or it has run and has not committed. A decided STEP_WAIT that has not begun
its sum does not yet. -/
def Entry.onDatapath (e : Entry) : Bool :=
  match e.payload, e.phase with
  | .stepWait _ _ _ _ _, .running _ => false
  | _, .running _ => true
  | _, .ran _ => true
  | _, _ => false

/-- R271, R422: whether a die's units are free for a command: none is running, and none that was dispatched earlier waits for them.
A command held for its re-run waits for none. -/
def Dev.dieFree (d : Dev) (e : Entry) : Bool :=
  !d.live.any (fun x =>
    dieJob x.2 == dieJob e && x.2.ref != e.ref && (x.2.onDatapath ||
      (x.2.inFlight && !x.2.isHeld && !d.undecided x.2 && decide (x.2.order < e.order))))

/-- A packet row of a die's units. -/
def Dev.onDie (d : Dev) (c : CmdRef) (f : Entry → Dev) : Dev := d.onPacket c (fun e => if d.dieFree e then f e else d)

/-! ### Memory of the Treadle (R446) -/

/-- The physical pieces of a range that a descriptor names. State and masks lie in DDR5 of the die; gradients and weights
may also lie in HBM. -/
def trdPieces (part die : Nat) (hbmOk write : Bool) (va n : Nat) : Run (List (Nat × Nat)) :=
  (piecesOf va n).mapM (fun p => do
    let pa ← xlate { accPlain with write := write } part p.1
    require (match tierOf pa with
      | some (.ddr, k) => k % 2 == die
      | some (.hbm, _) => hbmOk
      | _ => false) stBadParam
    return (pa, p.2))

def trdRead (part die : Nat) (hbmOk : Bool) (va n : Nat) : Run (List Byte) := do
  return (← (← trdPieces part die hbmOk false va n).mapM (fun p => readPhys p.1 p.2)).flatten

def trdWrite (part die : Nat) (hbmOk : Bool) (va : Nat) (data : List Byte) : Run Unit := do
  let _ ← (← trdPieces part die hbmOk true va data.length).foldlM (fun (bs : List Byte) p => do
    hold (.mem p.1 (bs.take p.2))
    return bs.drop p.2) data

/-- Descriptor i of a table. -/
def readTrdDesc (part table layers i : Nat) : Run TrdDesc := do
  let x := parseTrdDesc (← readIn accPlain part (table + 128 * i) 128)
  require (x.ok && decide (x.layer < layers)) stBadParam
  return x

/-- R446: every page that a descriptor names is one it may name. DEDUCED (log entry 169): every command that reads a descriptor makes
this check. -/
def checkTrdPages (part die : Nat) (x : TrdDesc) (wr : Nat) : Run Unit := do
  let _ ← trdPieces part die true false x.gradVa (x.n * (elemBits x.gfmt / 8))
  let _ ← trdPieces part die true false (x.wVa (1 - wr)) (2 * x.n)
  let _ ← trdPieces part die true true (x.wVa wr) (2 * x.n)
  let _ ← trdPieces part die false false (x.stVa (1 - wr)) x.stateLen
  let _ ← trdPieces part die false true (x.stVa wr) x.stateLen
  if x.mask then
    let _ ← trdPieces part die false false x.maskVa (ceilDiv x.units 8)
    pure ()
  else pure ()

/-- R469: which elements of a descriptor are frozen. -/
def frozenOf (part die : Nat) (x : TrdDesc) : Run (Nat → Bool) := do
  if x.mask then
    let m ← trdRead part die false x.maskVa (ceilDiv x.units 8)
    return fun i => bit (byteAt m ((if x.priv then i else i / 32) / 8)) ((if x.priv then i else i / 32) % 8)
  else return fun _ => false

/-- The gradient of a descriptor, each element exact. -/
def readGrad (part die : Nat) (x : TrdDesc) : Run (List FVal) := do
  return rowVals x.gfmt [] (rowCodes x.gfmt x.n (← trdRead part die true x.gradVa (x.n * (elemBits x.gfmt / 8))))

/-! ### TRD_NORM (R451 to R455) -/

/-- A die's part of a norm. -/
structure NormSum where
  v : NormVal
  elems : Nat
  nonfinite : Nat
  deriving DecidableEq, Repr

def normDesc (part die : Nat) (x : TrdDesc) (s : NormSum) : Run NormSum := do
  let frozen ← frozenOf part die x
  let gs ← readGrad part die x
  return (List.range (x.n / 32)).foldl (fun s b =>
    let here := (List.range 32).map (fun i => (32 * b + i, gs.getD (32 * b + i) fpZero))
    let live := here.filter (fun g => !frozen g.1)
    let sq := blockSquares (here.map (fun g => if frozen g.1 then 0 else rne32 g.2))
    { v := ⟨add32 s.v.sum sq, s.v.flags ||| setBit (live.any (fun g => flagNonfinite g.2)) 0 |||
        setBit (live.any (fun g => flagRange x.f g.2)) 1⟩
      elems := s.elems + live.length, nonfinite := s.nonfinite + (live.filter (fun g => flagNonfinite g.2)).length }) s

def runNormLocal (part die step nDesc table : Nat) : Run NormSum :=
  (List.range nDesc).foldlM (fun s i => do
    let x ← readTrdDesc part table 65536 i
    checkTrdPages part die x (step % 2)
    normDesc part die x s) ⟨⟨0, 0⟩, 0, 0⟩

/-- What a TRD_NORM keeps while it waits: its local sum and its counts. -/
def NormSum.bytes (s : NormSum) : List Byte := s.v.bytes ++ leBytes 8 s.elems ++ leBytes 8 s.nonfinite
def parseNormSum (b : List Byte) : NormSum := ⟨parseNormVal b, leAt b 6 8, leAt b 14 8⟩

/-- R454, R455: the end of a TRD_NORM: its record, and the record's entry in the log. -/
def runNormEnd (part die step normVa : Nat) (maxNorm : Word) (members : Nat) (mine : NormSum) (device whole : NormVal) : Run Counts := do
  let r := normRecord step whole maxNorm members device.sum
  writeIn accPlain part normVa r
  hold (.train (.norm part die step r))
  return okCounts mine.elems mine.nonfinite members

/-! ### TRD_UPDATE (R457 to R475) -/

/-- What a layer's statistics have gathered so far. -/
structure LayerStat where
  g : Word
  w : Word
  d : Word
  ovf : Nat
  elems : Nat
  sat : Bool
  allZero : Bool
  deriving DecidableEq, Repr

def LayerStat.zero : LayerStat := ⟨0, 0, 0, 0, 0, false, true⟩

/-- R472, R473. -/
def LayerStat.add (l : LayerStat) (b : BlockStat) : LayerStat :=
  { g := add32 l.g b.g, w := add32 l.w b.w, d := add32 l.d b.d, ovf := l.ovf + (if b.ovf then 1 else 0),
    elems := l.elems + b.live, sat := l.sat || b.sat, allZero := l.allZero && b.zeroG }

/-- R465: block b of a descriptor's buffers. -/
def blockOf (x : TrdDesc) (w st : List Byte) (b : Nat) : TrdBlock :=
  let codes (k at_ : Nat) : List Nat := (List.range 32).map (fun i => leAt st (at_ + k * (32 * b + i)) k)
  let k := if x.priv then 4 else 1
  let meta_ := leAt st (x.n * x.moments + 4 * b) 4
  { w := (List.range 32).map (fun i => leAt w (2 * (32 * b + i)) 2), m := codes k 0
    v := if x.hasV then codes k (k * x.n) else []
    mRsv := if x.priv then 0 else bits meta_ 15 8
    mScale := if x.priv then 0 else bits meta_ 23 16, mFlags := if x.priv then 0 else bits meta_ 3 0
    vScale := if x.priv then 0 else bits meta_ 31 24, vFlags := if x.priv then 0 else bits meta_ 7 4 }

/-- The meta word of a block. -/
def TrdBlock.metaBytes (b : TrdBlock) : List Byte :=
  leBytes 4 (b.vScale * 2 ^ 24 + b.mScale * 2 ^ 16 + b.mRsv * 2 ^ 8 + b.vFlags * 16 + b.mFlags)

/-- The weights and the state of a descriptor from its blocks. -/
def weightBytes (bs : List TrdBlock) : List Byte := bs.flatMap (fun b => b.w.flatMap (leBytes 2))
def stateBytes (x : TrdDesc) (bs : List TrdBlock) : List Byte :=
  let k := if x.priv then 4 else 1
  bs.flatMap (fun b => b.m.flatMap (leBytes k)) ++ bs.flatMap (fun b => b.v.flatMap (leBytes k)) ++
    (if x.priv then [] else bs.flatMap TrdBlock.metaBytes)

/-- The norm record of an update: its step must be the command's (R457). -/
def readNorm (part : Nat) (p : TrdUpdate) : Run (List Byte) := do
  let r ← readIn accPlain part p.normVa 32
  require (leAt r 0 4 == p.step) stBadParam
  return r

def skipOf (norm : List Byte) : Bool := bit (leAt norm 12 2) 3

/-- One block of an update, computed from the parity that it reads. -/
def updateOf (p : TrdUpdate) (norm : List Byte) (x : TrdDesc) (frozen : Nat → Bool) (gs : List FVal) (w st : List Byte) (b : Nat) :
    TrdBlock × BlockStat :=
  updateBlock x (laneOf x p.sched p.epsMul) (word32 norm 8) p.roundSeed p.step (32 * b) frozen
    ((List.range 32).map (fun i => gs.getD (32 * b + i) fpZero)) (blockOf x w st b)

/-- One descriptor of an update. -/
def updateDesc (part die : Nat) (p : TrdUpdate) (norm : List Byte) (x : TrdDesc) (l : Tbl LayerStat) : Run (Tbl LayerStat) := do
  let wr := p.step % 2
  checkTrdPages part die x wr
  let w ← trdRead part die true (x.wVa (1 - wr)) (2 * x.n)
  let st ← trdRead part die false (x.stVa (1 - wr)) x.stateLen
  if skipOf norm then
    noteVals (rowVals 2 [] (rowCodes 2 x.n w))
    trdWrite part die true (x.wVa wr) w
    trdWrite part die false (x.stVa wr) st
    return l
  else
    let frozen ← frozenOf part die x
    let gs ← readGrad part die x
    let bs := (List.range (x.n / 32)).map (updateOf p norm x frozen gs w st)
    let wNew := weightBytes (bs.map (·.1))
    noteVals (rowVals 2 [] (rowCodes 2 x.n wNew))
    trdWrite part die true (x.wVa wr) wNew
    trdWrite part die false (x.stVa wr) (stateBytes x (bs.map (·.1)))
    return tins l x.layer (bs.foldl (fun s b => s.add b.2) (tget LayerStat.zero l x.layer))

/-- R471, R473 to R475: one layer's record; its watch event. -/
def layerRecord (p : TrdUpdate) (skip : Bool) (layer old : Nat) (s : LayerStat) : List Byte × Bool × Bool :=
  if skip then (statRecord layer 1 old p.step 0 0 0 0 0, false, false)
  else
    let zeroStep := decide (0 < s.elems) && s.allZero
    let run := if s.elems = 0 then old else if zeroStep then (old + 1) % 2 ^ 32 else 0
    let zeroEv := run == (if p.zeroThr = 0 then 256 else p.zeroThr) + 1
    let ratioEv := ratioEvent p.ratioLo p.ratioHi s.w s.d
    (statRecord layer (setBit zeroStep 1 + setBit zeroEv 2 + setBit ratioEv 3 + setBit (decide (0 < s.ovf)) 4 + setBit s.sat 5)
      run p.step s.g s.w s.d s.ovf s.elems, zeroEv, ratioEv)

/-- One descriptor of a table, read and updated. -/
def updateRow (part die : Nat) (p : TrdUpdate) (norm : List Byte) (l : Tbl LayerStat) (i : Nat) : Run (Tbl LayerStat) := do
  let x ← readTrdDesc part p.tableVa p.nLayers i
  updateDesc part die p norm x l

/-- R471: one layer's record written; its watch events. -/
def layerRow (part : Nat) (p : TrdUpdate) (skip : Bool) (l : Tbl LayerStat) (layer : Nat) : Run (Nat × Bool × Bool) := do
  let wr := p.step % 2
  let old ← readIn accPlain part (p.statsVa + 32 * (p.nLayers * (1 - wr) + layer) + 4) 4
  let (r, z, q) := layerRecord p skip layer (leAt old 0 4) (tget LayerStat.zero l layer)
  writeIn accPlain part (p.statsVa + 32 * (p.nLayers * wr + layer)) r
  return (layer, z, q)

/-- The layers with a watch event, and how many events there are. -/
def watchEvents (evs : List (Nat × Bool × Bool)) : List (Nat × Bool × Bool) := evs.filter (fun e => e.2.1 || e.2.2)
def countEvents (evs : List (Nat × Bool × Bool)) : Nat :=
  ((watchEvents evs).map (fun e => (if e.2.1 then 1 else 0) + (if e.2.2 then 1 else 0))).sum

/-- R457 to R475: TRD_UPDATE. -/
def runUpdate (part die order : Nat) (p : TrdUpdate) : Run Counts := do
  let norm ← readNorm part p
  let skip := skipOf norm
  let l ← (List.range p.nDesc).foldlM (updateRow part die p norm) []
  let evs ← (List.range p.nLayers).mapM (layerRow part p skip l)
  let ovf := (l.map (·.2.ovf)).sum
  let elems := (l.map (·.2.elems)).sum
  hold (.train (.update die part order p.step skip (leAt norm 12 2) ovf elems (watchEvents evs)))
  if skip then return ⟨stSkipped, 0, 0, 0⟩
  else return okCounts elems ovf (countEvents evs)

/-! ### TRD_VERIFY (R481, R483) -/

/-- Whether one sampled block of the written parity is what the update makes of the read parity. -/
def verifyBlock (part die : Nat) (p : TrdUpdate) (di bi : Nat) : Run Bool := do
  require (decide (di < p.nDesc)) stBadParam
  let norm ← readNorm part p
  let x ← readTrdDesc part p.tableVa p.nLayers di
  require (decide (32 * bi < x.n)) stBadParam
  let wr := p.step % 2
  checkTrdPages part die x wr
  let w ← trdRead part die true (x.wVa (1 - wr)) (2 * x.n)
  let st ← trdRead part die false (x.stVa (1 - wr)) x.stateLen
  let now := blockOf x (← trdRead part die true (x.wVa wr) (2 * x.n)) (← trdRead part die false (x.stVa wr) x.stateLen) bi
  if skipOf norm then return decide (now = blockOf x w st bi)
  else
    let frozen ← frozenOf part die x
    return decide (now = (updateOf p norm x frozen (← readGrad part die x) w st bi).1)

/-- What a TRD_VERIFY has counted: blocks checked, blocks differing, the first that differs. -/
structure Verified where
  n : Nat
  bad : Nat
  first : Nat
  deriving DecidableEq, Repr

/-- The samples one by one; a failure ends the command with what it has counted. -/
def verifyGo (part die : Nat) (p : TrdUpdate) : List (Nat × Nat) → Verified → Ctx → Verified × Option Fail × Ctx
  | [], v, x => (v, none, x)
  | s :: t, v, x =>
    match verifyBlock part die p s.1 s.2 x with
    | .ok true x => verifyGo part die p t { v with n := v.n + 1 } x
    | .ok false x =>
      verifyGo part die p t ⟨v.n + 1, v.bad + 1, if v.bad = 0 then v.n else v.first⟩ x
    | .error f x => (v, some f, x)

/-- R481: its record carries its counters under every status. -/
def Dev.runVerify (d : Dev) (c : CmdRef) (e : Entry) (p : TrdUpdate) (part n sampleVa : Nat) : Dev :=
  let die := e.hdr.unit
  let (v, f, x) :=
    match readIn accPlain part sampleVa (8 * n) (Ctx.start d c e) with
    | .ok b x => verifyGo part die p ((List.range n).map (fun i => (leAt b (8 * i) 4, leAt b (8 * i + 4) 4))) ⟨0, 0, max32⟩ x
    | .error f x => (⟨0, 0, max32⟩, some f, x)
  let counts (st : Nat) : Counts := ⟨st, v.n, v.bad, v.first⟩
  match f with
  | some f =>
    let d := d.ranFail c e f x
    d.modEntry c (fun e => match e.phase with
      | .done r => { e with phase := .done { r with c0 := v.n, c1 := v.bad, c2 := v.first } }
      | _ => e)
  | none =>
    if v.bad = 0 then d.ranOk c e (counts stOk) x
    else
      let (e', k, d) := d.issuedRun c e x
      (d.setPhase c (.done { runResult (counts stVerifyMismatch) k e'.ce x with effects := [] })).due
        ⟨⟨7, die⟩, 16 + die, 0x0C, e.hdr.part, e.hdr.queue, e.hdr.seq, v.first⟩

/-! ### ROOT (R476 to R479, R484) -/

/-- A scratch range in Skein or HBM data pages. -/
def rootScratch (va n : Nat) : Run (List (Nat × Nat)) := do
  let part := (← get).entry.hdr.part
  (piecesOf va n).mapM (fun p => do
    let pa ← xlate { accPlain with write := true } part p.1
    require (match tierOf pa with
      | some (.skein, _) => true
      | some (.hbm, _) => true
      | _ => false) stBadParam
    return (pa, p.2))

/-- What scratch bytes hold afterwards is not given by the manual. -/
def scratchBytes (free pa n : Nat) : List Byte := (List.range n).map (fun i => Config.scratchByte free (pa + i))

def runRoot (a x : Desc) (workVa n p itMax : Nat) (tol eps : Word) : Run Counts := do
  let m ← (List.range n).mapM (fun r => do return (← a.readVals accMover r n).map rne32)
  let scratch ← rootScratch workVa (24 * n * n)
  let free := (← getDev).free
  scratch.forM (fun s => hold (.mem s.1 (scratchBytes free s.1 s.2)))
  let m := mapMat m (fun i j v => if i = j then add32 v eps else v)
  let q := treeSum (m.flatten.map (fun v => mul32 v v))
  match if finiteMat m && isFinite32 q then rootScale p q else none with
  | none => failWith stNoConverge
  | some s => do
    let x0 := (List.range n).map (fun i => (List.range n).map (fun j => if i = j then ldexp32 one32 (-(s / (p : Int))) else 0))
    let m0 := mapMat m (fun _ _ v => ldexp32 v (-s))
    match rootIter n p tol itMax 0 x0 m0 with
    | none => failWith stNoConverge
    | some (r, k, g) => do
      (withIdx 0 r).forM (fun row => x.writeVals accMover row.2 (row.1.map v32))
      return okCounts k g.toNat (s % 2 ^ 32).toNat

/-! ### The checks of submission -/

def positive32 (w : Word) : Bool := lt32 0 w

def trdNormOk (unit : Nat) (maxNorm : Word) (nDesc table norm : Nat) (rsv : Bool) : Bool :=
  rsv && decide (unit < 2) && positive32 maxNorm && decide (1 ≤ nDesc) && decide (nDesc ≤ 65535) && table % 64 == 0 &&
    vaOk table && norm % 32 == 0 && vaOk norm

def trdUpdateOk (unit : Nat) (p : TrdUpdate) : Bool :=
  p.rsvZero && decide (unit < 2) && f16Pos p.sched && f16Pos p.epsMul && le32 0 p.ratioLo && isFinite32 p.ratioLo &&
    p.ratioLo != 0x80000000 && positive32 p.ratioHi && decide (1 ≤ p.nDesc) && decide (p.nDesc ≤ 65535) &&
    decide (1 ≤ p.nLayers) && decide (p.nLayers ≤ 65536) && p.tableVa % 64 == 0 && vaOk p.tableVa && p.normVa % 32 == 0 &&
    vaOk p.normVa && p.statsVa % 64 == 0 && vaOk p.statsVa

def trdVerifyOk (unit : Nat) (p : TrdUpdate) (part n sampleVa : Nat) (rsv : Bool) : Bool :=
  rsv && trdUpdateOk unit p && decide (part < 14) && decide (1 ≤ n) && decide (n ≤ 256) && vaOk sampleVa

def rootOk (a x : Desc) (workVa n p itMax : Nat) (tol eps : Word) (rsv : Bool) : Bool :=
  rsv && a.ok false false false && x.ok false false false && a.fmt == 0 && (x.fmt == 0 || x.fmt == 2) && vaOk workVa &&
    decide (1 ≤ n) && decide (n ≤ 1024) && (p == 1 || p == 2 || p == 4) && decide (1 ≤ itMax) && decide (itMax ≤ 64) &&
    positive32 tol && isFinite32 tol && le32 0 eps && isFinite32 eps && eps != 0x80000000

/-! ### The commands -/

def doTrdUpdate (d : Dev) (c : CmdRef) : Dev :=
  d.onDie c (fun e => match e.payload with
    | .trdUpdate p => d.run c e (runUpdate e.hdr.part e.hdr.unit e.order p)
    | _ => d)

def doTrdVerify (d : Dev) (c : CmdRef) : Dev :=
  d.onDie c (fun e => match e.payload with
    | .trdVerify p part n va _ => d.runVerify c e p part n va
    | _ => d)

/-- R479: whether another command holds the array or the vector engine of a ROOT's Spindle, or was dispatched for one of them
earlier. -/
def rootBlocked (d : Dev) (e : Entry) : Bool :=
  d.live.any (fun x => x.2.ref != e.ref && (x.2.hdr.opcode / 16 == 2 || [0x40, 0x41, 0x51, 0x52].contains x.2.hdr.opcode) &&
    (x.2.begun || (x.2.inFlight && decide (x.2.order < e.order))) && d.spindleOf x.2 == d.spindleOf e)

def doRoot (d : Dev) (c : CmdRef) : Dev :=
  d.onPacket c (fun e => match e.payload with
    | .root a x workVa n p itMax tol eps _ =>
      if rootBlocked d e then d
      else
        let d := d.run c e (runRoot a x workVa n p itMax tol eps)
        { d with free := d.free + 1 }
    | _ => d)

end Sys2Proof.Machine
end

