-- ==== Sys2Proof/Machine/Coll.lean ====
section
/-! DEFINITION. Commands that combine values with other devices (R86 to R91, R586, R587): merges of the Wick, norms, votes
and chain reductions, from their start to their end or loss. -/

namespace Sys2Proof.Machine

/-! ### What a waiting command belongs to -/

/-- Votes of one step belong together whatever their attempt (R516). -/
def sameKey (a b : GroupKey) : Bool :=
  match a, b with
  | .vote s _, .vote t _ => s == t
  | a, b => decide (a = b)

/-- The group and the key of a command that combines over a group. -/
def Dev.collOf (d : Dev) (e : Entry) : Option (Nat × GroupKey) :=
  match e.payload with
  | .wickMerge idx op mb _ => (d.wickLive e.hdr.part idx).map (fun w => (w.desc.group, .wick idx mb op))
  | .trdNorm step _ group _ _ _ _ _ => some (group, .norm step)
  | .chainReduce group _ _ _ tag _ _ _ _ _ _ => some (group, .chain tag)
  | .stepVote attempt _ step group _ _ => some (group, .vote step attempt)
  | _ => none

/-- What a waiting command keeps: whether it has sent its value, and its own value. -/
def Entry.coll (e : Entry) : Option (Bool × List Byte) :=
  match e.phase with
  | .running (.coll sent own _) => some (sent, own)
  | _ => none

def Entry.setColl (e : Entry) (sent : Bool) (own : List Byte) : Entry :=
  match e.phase with
  | .running (.coll _ _ r) => { e with phase := .running (.coll sent own r) }
  | _ => e

/-- The commands of a partition that wait in a group under a key: one, or the two of a pair (R453). -/
def Dev.collWaiting (d : Dev) (part group : Nat) (key : GroupKey) : List Entry :=
  (d.live.map (·.2)).filter (fun e =>
    e.hdr.part == part && e.coll.isSome && (d.collOf e).any (fun gk => gk.1 == group && sameKey gk.2 key))

/-- R453: whether a command is one of a pair, and the bound that both commands of the pair name. -/
def Entry.normPair (e : Entry) : Option Word :=
  match e.payload with
  | .trdNorm _ pair _ maxNorm _ _ _ _ => if pair = 1 then some maxNorm else none
  | _ => none

/-- R453: whether two commands of one key are the two of a pair: on the two dies, with one max_norm. -/
def pairedWith (a b : Entry) : Bool := a.normPair.isSome && a.normPair == b.normPair && a.hdr.unit != b.hdr.unit

/-- A command that combines waits while this device has another of the same group and key at work that is not its partner: a
device enters one partial at a time (DESIGN CHOICE, log entry 163). -/
def Dev.collBusy (d : Dev) (e : Entry) : Bool :=
  match d.collOf e with
  | none => false
  | some (group, key) => (d.collWaiting e.hdr.part group key).any (fun x => x.ref != e.ref && !pairedWith x e)

/-- Starts a command that combines: its own value is formed, and it waits. -/
def Dev.startColl (d : Dev) (c : CmdRef) (e : Entry) (m : Run (List Byte)) : Dev :=
  match m (.start d c e) with
  | .error f x => d.ranFail c e f x
  | .ok own x =>
    let (e', n, d) := d.issuedRun c e x
    d.setPhase c (.running (.coll false own (runResult (okCounts 0 0 0) n e'.ce x)))

/-- Fails waiting commands. -/
def Dev.failAll (d : Dev) (es : List Entry) (status : Nat) : Dev :=
  es.foldl (fun d e => d.failEntry e.ref e ⟨status, none, none⟩ e.runCycles) d

/-! ### Values that arrived -/

def CollVal.isFor (v : CollVal) (group : Nat) (key : GroupKey) : Bool := v.group == group && sameKey v.key key

/-- A stored value of a position. -/
def Dev.collVal (d : Dev) (group : Nat) (key : GroupKey) (pos : Nat) : Option CollVal :=
  d.links.inbox.find? (fun v => v.isFor group key && v.pos == pos)

def Dev.dropVals (d : Dev) (group : Nat) (key : GroupKey) : Dev :=
  d.modLinks (fun l => { l with inbox := l.inbox.filter (fun v => !v.isFor group key) })

/-- A value stored; a value that its sender sends again replaces it. -/
def Dev.storeVal (d : Dev) (v : CollVal) : Dev :=
  d.modLinks (fun l => { l with inbox := l.inbox.filter (fun x => !(x.isFor v.group v.key && x.pos == v.pos)) ++ [v] })

/-! ### Chains (R586, R589) -/

/-- What two members' CHAIN_REDUCE must share: op, element count, formats (R590). -/
def chainHeader (op elements outFmt inFmt : Nat) : List Byte := leBytes 1 op ++ leBytes 4 elements ++ leBytes 1 outFmt ++ leBytes 1 inFmt

/-- Bytes of one element on the wire. -/
def wireLen (op : Nat) : Nat := if op = 0 then 4 else 8

def parsePair (b : List Byte) (i : Nat) : Nat × Nat := (leAt b (8 * i) 4, leAt b (8 * i + 4) 4)
def pairBytes (p : Nat × Nat) : List Byte := leBytes 4 p.1 ++ leBytes 4 p.2

/-- R589: the FP32 value on the wire of a code in FP32 or BF16; a maximum's candidate keeps its own bits (R55, R83). -/
def wireCode (op fmt code : Nat) : Nat :=
  if op = 0 then (rne32 (decodeFp (elemFmt fmt) code)).toNat else if fmt = 0 then code else code * 2 ^ 16

/-- R57, R83: the code in the output format of a value from the wire; a maximum whose formats agree returns the winner's own bits. -/
def wireEnd (op inFmt outFmt w : Nat) : Nat :=
  if op ≠ 0 ∧ inFmt = outFmt then (if outFmt = 0 then w else w / 2 ^ 16) else convCode outFmt (v32 (BitVec.ofNat 32 w))

/-- R87, R91: a member's own partial: the w inputs in rank order; a winner's index is its rank plus the member's offset. -/
def chainLocal (op w elements outFmt inVa inStride inFmt offset : Nat) : Run (List Byte) := do
  let ins ← (List.range w).mapM (fun r => do
    return (rowCodes inFmt elements (← readVa accPlain (inVa + r * inStride) (rowBytes inFmt elements))).map (wireCode op inFmt))
  let vals := (List.range elements).flatMap (fun i =>
    let xs := ins.map (fun v => v.getD i 0)
    if op = 0 then leBytes 4 (treeSum (xs.map (BitVec.ofNat 32))).toNat
    else pairBytes (treeFold (better fp32 (op == 1)) (emptyBest fp32 (op == 1))
      ((withIdx 0 xs).map (fun x => (x.1, (x.2 + offset) % 2 ^ 32)))))
  return chainHeader op elements outFmt inFmt ++ vals

/-- R82, R89: the running value combined with a member's partial; none where their headers differ. -/
def chainCombine (a b : List Byte) : Option (List Byte) :=
  if a.take 7 ≠ b.take 7 then none
  else
    let op := byteAt a 0
    let n := leAt a 1 4
    let x := a.drop 7
    let y := b.drop 7
    some (a.take 7 ++ (List.range n).flatMap (fun i =>
      if op = 0 then wordBytes (add32 (word32 x (4 * i)) (word32 y (4 * i)))
      else pairBytes (better fp32 (op == 1) (parsePair x i) (parsePair y i))))

/-- R589: the final value written by a member. -/
def chainEnd (op elements outFmt inFmt outVa members pos : Nat) (v : List Byte) : Run Counts := do
  let x := v.drop 7
  let cs := (List.range elements).map (fun i =>
    wireEnd op inFmt outFmt (if op = 0 then leAt x (4 * i) 4 else (parsePair x i).1))
  noteVals (cs.map (decodeFp (elemFmt outFmt)))
  writeVa accPlain outVa (codeBytes outFmt cs)
  if op = 0 then pure ()
  else writeVa accPlain (outVa + 4 * elements) ((List.range elements).flatMap (fun i => leBytes 4 (parsePair x i).2))
  return okCounts (ceilDiv (wireLen op * elements) 65536) members pos

/-! ### Ends -/

/-- R510, R511, R516: two votes of a step; a vote of another attempt counts as REVERT. -/
def joinVotes (a b : List Byte) : List Byte :=
  let x := byteAt a 0
  let y := if byteAt b 1 = byteAt a 1 then byteAt b 0 else 2
  leBytes 1 (if x = y then x else 2) ++ a.drop 1

/-- The combining operator of a key. Members that differ (R290, R590) make the empty value, and so does every value combined
with it: it reaches the last position and comes back, and every member's command then ends with ST_BAD_PARAM. -/
def combineFor (key : GroupKey) (a b : List Byte) : List Byte :=
  match key with
  | .wick _ _ op => if a.isEmpty || b.isEmpty then [] else (wickCombine op a b).getD []
  | .chain _ => if a.isEmpty || b.isEmpty then [] else (chainCombine a b).getD []
  | .norm _ => ((parseNormVal a).join (parseNormVal b)).bytes
  | .vote _ _ => joinVotes a b

/-- The value that a device's waiting commands enter: one command's, or the two of a pair, IOD-A first (R453); none while a
partner is missing. -/
def deviceVal (key : GroupKey) (es : List Entry) : Option (List Byte) :=
  let own (e : Entry) : Option (List Byte) := e.coll.map (·.2)
  let norm (e : Entry) : Option NormVal := (own e).map (fun b => (parseNormSum b).v)
  match key with
  | .norm _ =>
    (match es.find? (fun e => e.normPair.isNone) with
      | some e => (norm e).map NormVal.bytes
      | none =>
        match (es.find? (fun e => e.hdr.unit == 0)).bind norm, (es.find? (fun e => e.hdr.unit == 1)).bind norm with
        | some a, some b => some (a.join b).bytes
        | _, _ => none)
  | _ => (es.head?).bind own

/-- One waiting command ends with the whole value. -/
def Dev.endColl (d : Dev) (e : Entry) (device whole : List Byte) (members pos : Nat) : Dev :=
  match e.payload with
  | .wickMerge idx op mb _ => d.run e.ref e (wickFinish e.hdr.part idx op mb whole)
  | .trdNorm step _ _ maxNorm _ _ normVa _ =>
    d.run e.ref e (runNormEnd e.hdr.part e.hdr.unit step normVa maxNorm members
      (parseNormSum ((e.coll.map (·.2)).getD [])) (parseNormVal device) (parseNormVal whole))
  | .chainReduce _ op _ elements _ outFmt _ _ inFmt outVa _ =>
    d.run e.ref e (chainEnd op elements outFmt inFmt outVa members pos whole)
  | .stepVote _ _ _ _ _ _ => d.modEntry e.ref (fun e => e.setColl true (whole ++ [1]))
  | _ => d

/-- A value sent to a position of a group. -/
def Dev.sendVal (d : Dev) (c : CmdRef) (ms : List GroupMember) (group : Nat) (key : GroupKey) (pos dst : Nat) (up : Bool)
    (v : List Byte) : Dev :=
  d.sendMsg (some c) (memberAt ms dst) (.groupVal group ((d.digestOf group).getD 0) key pos up v)

/-- The positions to which the whole value goes on. -/
def onward (key : GroupKey) (pos g : Nat) : List Nat :=
  match key with
  | .chain _ => if pos = 0 then [] else [pos - 1]
  | .vote _ _ => []
  | _ => treeKids pos g

/-- The whole value reaches this device's waiting commands, and goes on to others. -/
def Dev.deliverWhole (d : Dev) (es : List Entry) (ms : List GroupMember) (group pos : Nat) (key : GroupKey) (whole : List Byte) : Dev :=
  match es with
  | [] => d
  | e :: _ =>
    let d := (onward key pos ms.length).foldl (fun d k => d.sendVal e.ref ms group key pos k false whole) d
    let device := (deviceVal key es).getD []
    (if whole.isEmpty then d.failAll es stBadParam
      else es.foldl (fun d e => d.endColl e device whole ms.length pos) d).dropVals group key

/-- The positions whose values a position waits for, and the position to which it then sends; none at the last one. -/
def edges (key : GroupKey) (pos g : Nat) : List Nat × Option Nat :=
  match key with
  | .chain _ => (if pos = 0 then [] else [pos - 1], if pos + 1 < g then some (pos + 1) else none)
  | _ => (treeKids pos g, if pos = 0 then none else some (treeParent pos))

/-- R586, R587: a waiting command goes on when every value that it needs is there. -/
def Dev.advance (d : Dev) (part group : Nat) (key : GroupKey) : Dev :=
  let es := d.collWaiting part group key
  match es, d.groupOf part group, deviceVal key es with
  | e :: _, some (ms, pos), some own =>
    let (srcs, dst) := edges key pos ms.length
    let vals := srcs.map (fun p => d.collVal group key p)
    if es.any (fun e => (e.coll.map (·.1)).getD true) || vals.any Option.isNone then d
    else
      let join (acc : List Byte) (v : CollVal) : List Byte :=
        match key with
        | .chain _ => combineFor key v.data acc
        | _ => combineFor key acc v.data
      let v := (vals.filterMap id).foldl join own
      (match dst with
        | some p =>
          let d := d.sendVal e.ref ms group key pos p true v
          es.foldl (fun d e => d.modEntry e.ref (fun x => x.setColl true ((x.coll.map (·.2)).getD []))) d
        | none => d.deliverWhole es ms group pos key v)
  | _, _, _ => d

/-! ### Loss and withdrawal (R272, R325, R456, R590) -/

/-- What the commands that a loss reaches share: a merge's index and micro-batch (R325), a norm's step (R456), a chain's
tag (R590). -/
def roundKey (k : GroupKey) : GroupKey :=
  match k with
  | .wick idx mb _ => .wick idx mb 0
  | k => k

/-- The die under which a command that combines is owed its end. -/
def Entry.collDie (e : Entry) : Nat :=
  match e.payload with
  | .trdNorm _ _ _ _ _ _ _ _ => e.hdr.unit
  | _ => 0

/-- The record of a loss in a group under a key. -/
def Lost.isFor (l : Lost) (group : Nat) (key : GroupKey) : Bool := l.group == group && decide (l.key = roundKey key)

def Dev.lostOf (d : Dev) (group : Nat) (key : GroupKey) : Option Lost := d.links.lost.find? (fun l => l.isFor group key)

/-- The record replaced; none drops it. -/
def Dev.setLost (d : Dev) (group : Nat) (key : GroupKey) (l : Option Lost) : Dev :=
  d.modLinks (fun k => { k with lost := k.lost.filter (fun x => !x.isFor group key) ++ l.toList })

/-- The dies still owed an end when these commands end on account of a loss: the other one of a pair that waits alone. -/
def owedAfter (es : List Entry) : List Nat :=
  match es with
  | [e] => if e.normPair.isSome then [1 - e.hdr.unit] else []
  | _ => []

/-- R325, R456, R590: the loss of a member's command becomes known: the commands that wait under its key end with ST_PEER_LOST;
where none waits, the next one that begins does. A second member lost before that is the same loss (DESIGN CHOICE, log entry
164: when a loss still counts). -/
def Dev.learnLoss (d : Dev) (src part group : Nat) (key : GroupKey) : Dev :=
  let es := (d.live.map (·.2)).filter (fun e =>
    e.hdr.part == part && e.coll.isSome && (d.collOf e).any (fun gk => gk.1 == group && decide (roundKey gk.2 = roundKey key)))
  match es, d.lostOf (groupSlot part group) key with
  | [], some l =>
    d.setLost (groupSlot part group) key (some (if l.srcs.contains src then ⟨groupSlot part group, roundKey key, [src], [0, 1]⟩ else { l with srcs := l.srcs ++ [src] }))
  | [], none => d.setLost (groupSlot part group) key (some ⟨groupSlot part group, roundKey key, [src], [0, 1]⟩)
  | es, _ =>
    let d := es.foldl (fun d e => match d.collOf e with
      | some (g, k) => d.dropVals g k
      | none => d) d
    (d.failAll es stPeerLost).setLost (groupSlot part group) key (some ⟨groupSlot part group, roundKey key, [src], owedAfter es⟩)

/-- Whether a command that combines has not yet received the whole value: dispatched, held for its re-run or waiting. -/
def Entry.combining (e : Entry) : Bool :=
  match e.phase with
  | .dispatched => true
  | .rerun => true
  | .running (.coll _ _ _) => true
  | _ => false

/-- A member that is lost for good: the others learn of it, and so does its partner on this device (R456). -/
def Dev.collLost (d : Dev) (e : Entry) : Dev :=
  match d.collOf e with
  | some (group, key) =>
    match key, d.groupOf e.hdr.part group with
    | .vote _ _, _ => d
    | _, some (ms, _) =>
      if !e.combining then d
      else
        let d := (ms.filter (fun m => m.device != d.links.devNum)).foldl (fun d m => d.answer m.device (.groupLost group key)) d
        let mates := (d.collWaiting e.hdr.part group key).filter (fun x => x.ref != e.ref && pairedWith x e)
        if !mates.isEmpty then d.failAll mates stPeerLost
        else if e.normPair.isSome then d.setLost (groupSlot e.hdr.part group) key (some ⟨groupSlot e.hdr.part group, roundKey key, [d.links.devNum], [1 - e.hdr.unit]⟩)
        else d
    | _, none => d
  | none => d

/-- What a command that begins meets: whether a loss ends it; one that no loss ends begins its round afresh. -/
def Dev.meetLoss (d : Dev) (e : Entry) : Bool × Dev :=
  match d.collOf e with
  | none => (false, d)
  | some (group, key) =>
    match d.lostOf (groupSlot e.hdr.part group) key with
    | none => (false, d)
    | some l =>
      if l.owed.contains e.collDie then
        let rest := if e.normPair.isSome then l.owed.filter (· != e.collDie) else []
        (true, d.setLost (groupSlot e.hdr.part group) key (some { l with owed := rest }))
      else (false, d.setLost (groupSlot e.hdr.part group) key none)

/-- A value that a member sent on is taken back. -/
def Dev.takeBack (d : Dev) (part group : Nat) (key : GroupKey) : Dev :=
  match d.groupOf part group with
  | none => d
  | some (ms, pos) =>
    let es := d.collWaiting part group key
    if es.any (fun e => (e.coll.map (·.1)).getD false) then
      let d := es.foldl (fun d e => d.modEntry e.ref (fun x => x.setColl false ((x.coll.map (·.2)).getD []))) d
      match (edges key pos ms.length).2 with
      | some p => d.answer (memberAt ms p) (.groupWithdraw group key pos)
      | none => d
    else d

/-- A member that is killed and runs again withdraws its contribution. -/
def Dev.collWithdraw (d : Dev) (e : Entry) : Dev :=
  match e.coll, d.collOf e with
  | some _, some (group, key) => d.takeBack e.hdr.part group key
  | _, _ => d

/-! ### The commands -/

/-- The checks of a group name when a command is submitted or starts: declared by the issuing partition. -/
def Dev.groupKnown (d : Dev) (part group : Nat) : Bool := (d.groupOf part group).isSome

/-- R576: whether the port by which messages to a device leave is down. -/
def Dev.pathDown (d : Dev) (dst : Nat) : Bool :=
  dst != d.links.devNum && bit (d.route dst) 15 && !(d.port (d.route dst % 8)).carries

/-- The positions with which a position exchanges values in the group tree (R587). -/
def treeNear (pos g : Nat) : List Nat := treeKids pos g ++ (if pos = 0 then [] else [treeParent pos])

/-- R329, R487: whether a port that the group tree needs on this device is down. -/
def Dev.treeDown (d : Dev) (part group : Nat) : Bool :=
  match d.groupOf part group with
  | some (ms, pos) => (treeNear pos ms.length).any (fun p => d.pathDown (memberAt ms p))
  | none => false

/-- The key of a command that combines by the group tree, not along a chain. -/
def onTree (k : GroupKey) : Bool :=
  match k with
  | .wick _ _ _ => true
  | .norm _ => true
  | _ => false

/-- A command that combines begins: it waits for its turn; it ends at once where a member's loss reaches it or a port that its tree
needs is down; otherwise it forms its own value, and goes on when it has what it needs. -/
def Dev.beginColl (d : Dev) (c : CmdRef) (e : Entry) (m : Run (List Byte)) : Dev :=
  match d.collOf e with
  | none => d.startColl c e m
  | some (group, key) =>
    if d.collBusy e then d
    else
      let (hit, d) := d.meetLoss e
      if hit then d.refuse c e stPeerLost
      else if onTree key && d.treeDown e.hdr.part group then d.refuse c e stLinkDown
      else (d.startColl c e m).advance e.hdr.part group key

/-- WICK_MERGE: op 0, 1 or 2 of a micro-batch (R310, R315, R324). -/
def doWickMerge (d : Dev) (c : CmdRef) : Dev :=
  d.onPacket c (fun e => match e.payload with
    | .wickMerge idx op mb _ => if vecBusy d e then d else d.beginColl c e (wickLocal e.hdr.part idx op mb)
    | _ => d)

def doTrdNorm (d : Dev) (c : CmdRef) : Dev :=
  d.onDie c (fun e => match e.payload with
    | .trdNorm step _ group _ nDesc table _ _ =>
      if !d.groupKnown e.hdr.part group then d.refuse c e stBadParam
      else d.beginColl c e (do return (← runNormLocal e.hdr.part e.hdr.unit step nDesc table).bytes)
    | _ => d)

def doChainReduce (d : Dev) (c : CmdRef) : Dev :=
  d.onPacket c (fun e => match e.payload with
    | .chainReduce group op w elements _ outFmt inVa inStride inFmt _ _ =>
      match d.groupOf e.hdr.part group with
      | none => d.refuse c e stBadParam
      | some (ms, pos) =>
        d.beginColl c e (chainLocal op w elements outFmt inVa inStride inFmt (((ms[pos]?).map (·.idxOffset)).getD 0))
    | _ => d)

def chainReduceOk (group op w elements outFmt inVa inStride inFmt outVa : Nat) (rsv : Bool) : Bool :=
  rsv && decide (group < 65536) && decide (op ≤ 2) && decide (1 ≤ w) && decide (w ≤ 14) && decide (1 ≤ elements) &&
    decide (elements ≤ 2 ^ 28) && (outFmt == 0 || outFmt == 2) && (inFmt == 0 || inFmt == 2) && vaOk inVa && vaOk outVa &&
    vaOk inStride

/-! ### Arrivals -/

/-- The partition that declares a group. -/
def Dev.groupPart (d : Dev) (group : Nat) : Nat := ((tfind d.links.groups group).map (·.part)).getD 15

/-- A group's whole value arrives from the position above. -/
def Dev.wholeArrives (d : Dev) (group : Nat) (key : GroupKey) (v : List Byte) : Dev :=
  let part := d.groupPart group
  match d.groupOf part group with
  | some (ms, pos) =>
    d.deliverWhole ((d.collWaiting part group key).filter (fun e => (e.coll.map (·.1)).getD false)) ms group pos key v
  | none => d

/-- R454: the root's result of a step's norm reaches a member. -/
def doNormResult (d : Dev) (group step : Nat) (sum : Word) (flags : Nat) : Dev :=
  let v := (NormVal.mk sum flags).bytes
  d.wholeArrives group (.norm step) v

/-- R584, R586, R587, R590: a message of a group arrives. -/
def doGroupMessage (d : Dev) (m : Message) : Dev :=
  match m.body with
  | .groupVal group digest key pos up data =>
    if d.digestOf group ≠ some digest then d.answer m.src (.groupNotice m.id)
    else
      let d := d.ackMsg m
      if up then (d.storeVal ⟨group, key, pos, up, data⟩).advance (d.groupPart group) group key
      else d.wholeArrives group key data
  | .groupLost group key => d.learnLoss m.src (d.groupPart group) group key
  | .groupWithdraw group key pos =>
    (d.modLinks (fun l => { l with inbox := l.inbox.filter (fun v => !(v.isFor group key && v.pos == pos)) })).takeBack
      (d.groupPart group) group key
  | .groupNotice msg =>
    match d.sentMsg msg with
    | some s =>
      let d := d.settled msg
      (match s.cmd.bind d.entry with
        | some e => if e.inFlight then d.failEntry e.ref e ⟨stBadParam, none, none⟩ e.runCycles else d
        | none => d)
    | none => d
  | _ => d

end Sys2Proof.Machine
end

