-- ==== Sys2Proof/Machine/RovingLog.lean ====
section
/-! DEFINITION. Published writes, with the dirty bits of the snapshot sets (R503), and the Roving log (R490 to R497). -/

namespace Sys2Proof.Machine

/-! ### Published writes -/

def granuleBytes : Nat := 65536

/-- The region and the offset in granules of granule g of a set. -/
def granuleAt : List SnapRegion → Nat → Option (SnapRegion × Nat)
  | [], _ => none
  | r :: t, g => if g < r.granules then some (r, g) else granuleAt t (g - r.granules)

/-- The device-physical address of a virtual address of a partition, where it is mapped. -/
def Dev.physOf (d : Dev) (part va : Nat) : Option Nat := ((d.part part).lookup va).map (·.2)

/-- Whether a write at an address touches one copy of a granule, and, for a write of the Treadle, differs there from the
other copy. -/
def Dev.touches (d : Dev) (part : Nat) (trd : Bool) (va other pa : Nat) (data : List Byte) : Bool :=
  match d.physOf part va with
  | none => false
  | some g =>
    decide (pa < g + granuleBytes) && decide (g < pa + data.length) &&
      (!trd ||
        match d.physOf part other with
        | none => true
        | some o => (withIdx 0 data).any (fun b =>
            decide (g ≤ pa + b.2) && decide (pa + b.2 < g + granuleBytes) && getByte d.mem.bytes (o + (pa + b.2 - g)) != b.1))

/-- R503: the granules of a set whose dirty bits a write sets. -/
def Dev.dirtied (d : Dev) (part : Nat) (s : SnapSet) (trd : Bool) (pa : Nat) (data : List Byte) : SnapSet :=
  { s with dirty := s.dirty.filter (fun kv =>
      match granuleAt s.regions kv.1 with
      | none => true
      | some (r, i) =>
        let va0 := r.va0 + granuleBytes * i
        let va1 := r.va1 + granuleBytes * i
        let pair := decide (r.sel ≠ 0)
        !(d.touches part (trd && pair) va0 va1 pa data || (pair && d.touches part trd va1 va0 pa data))) }

def Dev.markDirty (d : Dev) (trd : Bool) (pa : Nat) (data : List Byte) : Dev :=
  d.modTraining (fun t => { t with p := t.p.map (fun kv =>
    (kv.1, match kv.2.snap with
      | some s => { kv.2 with snap := some (d.dirtied kv.1 s trd pa data) }
      | none => kv.2)) })

/-- The sectors that a range covers whole. -/
def wholeSector (pa n s : Nat) : Bool := decide (pa ≤ 64 * s) && decide (64 * s + 64 ≤ pa + n)

/-- The sectors that a range covers only in part. -/
def partSector (pa n s : Nat) : Bool := decide (pa < 64 * s + 64) && decide (64 * s < pa + n) && !wholeSector pa n s

/-- R269: the error record of an uncorrectable error that no command's own access met. -/
def plainUe (pa : Nat) : ErrorInfo := ⟨memUnit pa, unitIsland (memUnit pa), 0x01, 0xFF, 0xFF, 0, pa⟩

/-- R145, R269: what an access outside any command leaves of an uncorrectable error. -/
def Dev.meetUe (d : Dev) (pa : Nat) : Dev := (d.modMem (fun m => m.noteUe pa)).due (plainUe pa)

/-- R268, R664: a write that covers part of a sector reads it: it merges into a corrected sector, and it meets an
uncorrectable error, which the sector keeps. -/
def Dev.mergePartial (d : Dev) (pa n : Nat) : Dev :=
  let d := d.correctAll (d.mem.ces.filter (partSector pa n))
  (d.mem.ue.filter (partSector pa n)).foldl (fun d s => d.meetUe (64 * s)) d

/-- R145, R269, R664: bytes read outside any command: a correctable error in them is corrected, an uncorrectable one met. -/
def Dev.readOut (d : Dev) (pa n : Nat) : List Byte × Dev :=
  let inRange (s : Nat) : Bool := decide (pa < 64 * s + 64) && decide (64 * s < pa + n)
  let d := d.correctAll (d.mem.ces.filter inRange)
  (getBytes d.mem.bytes pa n, (d.mem.ue.filter inRange).foldl (fun d s => d.meetUe (64 * s)) d)

/-- R263, R268, R503, R664: publishes bytes at a device-physical address; a sector written whole loses its error. -/
def Dev.poke (d : Dev) (trd : Bool) (pa : Nat) (data : List Byte) : Dev :=
  let d := (d.mergePartial pa data.length).markDirty trd pa data
  d.modMem (fun m =>
    { m with bytes := putBytes m.bytes pa data, ue := m.ue.filter (fun s => !wholeSector pa data.length s),
             ces := m.ces.filter (fun s => !wholeSector pa data.length s) })

/-- Publishes bytes at a virtual address of a partition; a page that is not mapped or that is sealed (R174) takes none. -/
def Dev.pokeVa (d : Dev) (part va : Nat) (data : List Byte) : Dev :=
  ((piecesOf va data.length).foldl (fun (x : Dev × List Byte) p =>
    (match x.1.physOf part p.1 with
      | some pa => if x.1.mem.isSealed pa then x.1 else x.1.poke false pa (x.2.take p.2)
      | none => x.1, x.2.drop p.2)) (d, data)).1

/-! ### The log -/

/-- Entries that a ring of a number of 2 MiB pages holds. -/
def ringEntries (pages : Nat) : Nat := 32768 * pages

def TrainLog.next (l : TrainLog) (share : Nat) : Nat := if share = 0 then l.nextA else l.nextB
def TrainLog.cap (l : TrainLog) (share : Nat) : Nat := ringEntries (if share = 0 then l.pagesA else l.pagesB)
def TrainLog.base (l : TrainLog) (share : Nat) : Nat := if share = 0 then l.baseA else l.baseB

/-- R496: the retention floor of a share: its lsn in the oldest generation kept, or in the one restored. -/
def Train.floor (t : Train) (share : Nat) : Nat :=
  match (t.snap.bind (fun s => s.gens.getLast?)) with
  | some g => if share = 0 then g.lsnA else g.lsnB
  | none =>
    match t.snap.bind (·.base) with
    | some b => if share = 0 then b.1 else b.2
    | none => 0

/-- R496: whether a share has room for one more entry. -/
def Train.room (t : Train) (share : Nat) : Bool :=
  match t.log with
  | some l => decide (l.next share < t.floor share + l.cap share)
  | none => false

def logBytes (lsn step kind share tick : Nat) (body : List Byte) : List Byte :=
  fitBytes 64 (leBytes 8 lsn ++ leBytes 4 step ++ leBytes 1 kind ++ leBytes 1 share ++ zeros 2 ++ leBytes 8 tick ++ body)

/-- R495: an entry goes to the mirrors on both buddies. -/
def Dev.mirror (d : Dev) (part share lsn : Nat) (data : List Byte) : Dev :=
  match (d.trainOf part).snap with
  | some s =>
    [(s.cfg.buddy0, s.cfg.store0), (s.cfg.buddy1, s.cfg.store1)].foldl
      (fun d b => d.answer b.1 (.logEntry b.2 share lsn data)) d
  | none => d

/-- R492 to R496: one entry of a partition's log. -/
def Dev.logAdd (d : Dev) (part share step kind : Nat) (body : List Byte) : Dev :=
  let t := d.trainOf part
  match t.log with
  | none => d
  | some l =>
    if t.room share then
      let lsn := l.next share
      let tick := d.tickAt (16 + share)
      let data := logBytes lsn step kind share tick body
      let l := { l with unsecured := l.unsecured ++ [Unsecured.mk share lsn d.clk.tick] }
      let l := if share = 0 then { l with nextA := lsn + 1 } else { l with nextB := lsn + 1 }
      let d := d.modTrain part (fun t => { t with log := some l })
      let d := d.modTraining (fun t => { t with entries := tmod 0 t.entries share (fun n => (n + 1) % 2 ^ 64) })
      (d.pokeVa part (l.base share + 64 * (lsn % l.cap share)) data).mirror part share lsn data
    else
      let d := d.modTrain part (fun t => { t with log := some { l with overrun := true } })
      d.modTraining (fun t => { t with dropped := tmod 0 t.dropped share (fun n => (n + 1) % 2 ^ 64) })

/-- R491: the share of a command's entries. -/
def shareOf (e : Entry) : Nat := if dieJob e = some 1 then 1 else 0

/-- The entry of a command whose header sets log (kind 0x02); its step is the one in progress. -/
def Dev.logCommand (d : Dev) (e : Entry) (status : Nat) : Dev :=
  if e.hdr.log then
    d.logAdd e.hdr.part (shareOf e) (((d.trainOf e.hdr.part).step + 1) % 2 ^ 32) 0x02
      (leBytes 1 e.hdr.opcode ++ leBytes 1 e.hdr.queue ++ leBytes 2 status ++ leBytes 8 e.hdr.seq ++ leBytes 8 e.hdr.tag)
  else d

/-- A LATE entry: a contribution marked held, or discarded after a decision (R434). -/
def Dev.logLate (d : Dev) (part ctx step pos action : Nat) : Dev :=
  d.logAdd part 0 step 0x06 (leBytes 1 ctx ++ leBytes 2 pos ++ leBytes 4 step ++ leBytes 1 action)

/-- R497: OVERRUN goes when both rings have room. -/
def Train.clearOverrun (t : Train) : Train :=
  if t.room 0 && t.room 1 then { t with log := t.log.map (fun l => { l with overrun := false }) } else t

/-! ### Buddies -/

/-- R508: the device-physical address of a byte of a store, by its offset from the store's start. -/
def Store.at (s : Store) (off : Nat) : Option Nat :=
  (s.pages[off / pageBytes]?).map (fun p => paOf .ddr p + off % pageBytes)

def Store.mirrorPages (s : Store) (share : Nat) : Nat := if share = 0 then s.logA else s.logB
def Store.mirrorOff (s : Store) (share : Nat) : Nat :=
  2 * s.slotBytes + (if share = 0 then 0 else s.logA * pageBytes)

def Dev.store (d : Dev) (i : Nat) : Option Store := tfind d.train.stores i

/-- Bytes published in a store, page by page. -/
def Dev.pokeStore (d : Dev) (s : Store) (off : Nat) (data : List Byte) : Dev :=
  ((piecesOf off data.length).foldl (fun (x : Dev × List Byte) p =>
    (match s.at p.1 with
      | some pa => x.1.poke false pa (x.2.take p.2)
      | none => x.1, x.2.drop p.2)) (d, data)).1

/-- R495, R509: a log entry from a store's source arrives in its mirror, and is acknowledged. -/
def doLogMirrorReceive (d : Dev) (m : Message) : Dev :=
  match m.body with
  | .logEntry i share lsn data =>
    match d.store i with
    | some s =>
      if s.source = m.src ∧ share ≤ 1 ∧ 0 < s.mirrorPages share ∧ data.length = 64 then
        (d.pokeStore s (s.mirrorOff share + 64 * (lsn % ringEntries (s.mirrorPages share))) data).answer m.src
          (.logAck s.srcPart share lsn)
      else d
    | none => d
  | _ => d

/-- R509: a store's bytes as its Bobbin reads them, and the device after the read. -/
def Dev.storeBytes (d : Dev) (s : Store) (off n : Nat) : List Byte × Dev :=
  (piecesOf off n).foldl (fun (x : List Byte × Dev) p => match s.at p.1 with
    | some pa =>
      let r := x.2.readOut pa p.2
      (x.1 ++ r.1, r.2)
    | none => (x.1 ++ zeros p.2, x.2)) ([], d)

/-- Whether a range of a store holds an uncorrectable error. -/
def Dev.storeUe (d : Dev) (s : Store) (off n : Nat) : Bool :=
  (piecesOf off n).any (fun p => match s.at p.1 with
    | some pa => d.mem.ue.any (fun k => decide (pa < 64 * k + 64) && decide (64 * k < pa + p.2))
    | none => false)

/-- The dies on which a range of a store lies. -/
def Store.diesOf (s : Store) (off n : Nat) : List Nat :=
  nodupNat ((piecesOf off n).filterMap (fun p => (s.pages[p.1 / pageBytes]?).map (· % 2)))

/-- R530: the Bobbins of the dies on which a range of a store lies serve a buddy in this tick. -/
def Dev.servesOn (d : Dev) (s : Store) (off n : Nat) : Dev :=
  d.modTraining (fun t => { t with serving := (s.diesOf off n).foldl (fun k x => tins k x d.clk.tick) t.serving })

/-- R509: a read of a range of a store; data with an uncorrectable error are not given (R529). -/
def Dev.serveRead (d : Dev) (m : Message) (s : Store) (off n : Nat) (body : List Byte → MsgBody) : Dev :=
  let r := (d.servesOn s off n).storeBytes s off n
  r.2.answer m.src (if d.storeUe s off n then .refused m.id stUncorrectable else body r.1)

/-- R499, R508, R509: a store takes writes of its slots from its source, and gives its slots and its mirrors to the RESTORE of any
device; a CONFIG learns the size of its slots (R523). -/
def doServeBuddy (d : Dev) (m : Message) : Dev :=
  match m.body with
  | .snapWrite i slot off data =>
    (match d.store i with
      | some s =>
        if s.source = m.src ∧ slot < 4 ∧ off + data.length ≤ s.slotBytes then
          ((d.servesOn s (slot / 2 * s.slotBytes + off) data.length).pokeStore s (slot / 2 * s.slotBytes + off) data).ackMsg m
        else d
      | none => d)
  | .snapRead i slot =>
    (match d.store i with
      | some s => if slot < 4 then d.serveRead m s (slot / 2 * s.slotBytes) s.slotBytes (.snapData m.id) else d
      | none => d)
  | .logRead i =>
    (match d.store i with
      | some s =>
        d.serveRead m s (s.mirrorOff 0) ((s.logA + s.logB) * pageBytes)
          (fun b => .logData m.id (b.take (s.logA * pageBytes)) (b.drop (s.logA * pageBytes)))
      | none => d)
  | .storeRead i => d.answer m.src (.storeData m.id (((d.store i).map (·.slotBytes)).getD 0))
  | _ => d

end Sys2Proof.Machine
end

