-- ==== Sys2Proof/Machine/Exchange.lean ====
section
/-! DEFINITION. The gradient exchange and the activation copies (chapter 10): contexts, encodings, contributions, the
straggler decision, the sum. -/

namespace Sys2Proof

/-- R423: the size of one member's contribution for one shard. -/
def XchConfig.cs (x : XchConfig) : Nat :=
  match x.comp with
  | 0 => x.shardBlocks * 2 ^ (12 - x.topkLog2)
  | 1 => x.shardBlocks * 132
  | _ => x.shardBlocks * 4096

/-- R423: the size of one block as encoded. -/
def XchConfig.blockLen (x : XchConfig) : Nat := x.cs / x.shardBlocks

def XchConfig.gradLen (x : XchConfig) : Nat := if x.gfmt = 0 then 4 else 2

end Sys2Proof

namespace Sys2Proof.Machine

def Dev.xchOf (d : Dev) (ctx : Nat) : Option Xch := tfind d.xch ctx
def Dev.modXch (d : Dev) (ctx : Nat) (f : Xch → Xch) : Dev :=
  match tfind d.xch ctx with
  | some x => { d with xch := tins d.xch ctx (f x) }
  | none => d

/-! ### Step arithmetic (R421) -/

def nextStep (c : Nat) : Nat := (c + 1) % 2 ^ 32
def prevStep (c : Nat) : Nat := if c % 2 ^ 32 = 0 then 2 ^ 32 - 1 else c % 2 ^ 32 - 1

/-- How far step s lies ahead of step c. -/
def ahead (s c : Nat) : Nat := (s + (2 ^ 32 - c % 2 ^ 32)) % 2 ^ 32

/-- The address of a contribution: slot s mod 3, position p. -/
def Xch.inboxAt (x : Xch) (s p : Nat) : Nat := x.cfg.inboxVa + s % 3 * x.members * x.cfg.cs + p * x.cfg.cs

/-! ### Encodings (R423, R424) -/

/-- The top-k entries of a block, by rising index. -/
def topkBlock (j : Nat) (a : List Word) : List (Nat × Nat) :=
  let mag := (withIdx 0 a).map (fun x => ((x.1 &&& 0x7FFFFFFF).toNat, x.2))
  let kept := (topK fp32 (2 ^ (10 - j)) mag).map (·.2)
  (sortNat kept).map (fun i => (i, convCode 2 (v32 (a.getD i 0))))

/-- R424: the sign scale. -/
def signScale (a : List Word) : Word :=
  rne32 (scaleExact (v32 (treeSum (a.map (fun w => w &&& 0x7FFFFFFF)))) (-10))

/-- A block encoded. -/
def encodeBlock (x : XchConfig) (a : List Word) : List Byte :=
  match x.comp with
  | 0 => (topkBlock x.topkLog2 a).flatMap (fun e => leBytes 4 (e.1 * 2 ^ 22 + e.2))
  | 1 => wordBytes (signScale a) ++ (List.range 128).flatMap (fun k =>
      leBytes 1 ((List.range 8).map (fun i => setBit ((a.getD (8 * k + i) 0).msb) i)).sum)
  | _ => a.flatMap wordBytes

/-- A block decoded. -/
def decodeBlock (x : XchConfig) (b : List Byte) : List Word :=
  match x.comp with
  | 0 =>
    let es := (List.range (2 ^ (10 - x.topkLog2))).map (fun i => leAt b (4 * i) 4)
    let t : Tbl Nat := es.foldl (fun t e => tins t (e / 2 ^ 22) (e % 65536)) []
    (List.range 1024).map (fun i => BitVec.ofNat 32 (tget 0 t i * 65536))
  | 1 =>
    let s := word32 b 0
    (List.range 1024).map (fun i => if bit (byteAt b (4 + i / 8)) (i % 8) then s ^^^ 0x80000000 else s)
  | _ => (List.range 1024).map (fun i => word32 b (4 * i))

/-! ### CONFIG and REMOVE (R419, R438) -/

def xchConfigOk (x : XchConfig) : Bool :=
  x.rsvZero && decide (x.ctx < 16) && decide (x.comp ≤ 2) &&
    (if x.comp = 0 then decide (4 ≤ x.topkLog2) && decide (x.topkLog2 ≤ 10) else x.topkLog2 == 0) && decide (x.policy ≤ 1) &&
    (x.gfmt == 0 || x.gfmt == 2) && decide (1 ≤ x.shardBlocks) && decide (x.shardBlocks ≤ 262144) && decide (1 ≤ x.window) &&
    decide (1 ≤ x.minPresent) && [x.gradVa, x.inboxVa, x.sumVa].all (fun v => v % 64 == 0 && vaOk v) && vaOk x.residVa &&
    (x.comp != 2 || x.residVa == 0)

/-- Whether a range lies in data pages of a partition. -/
def Dev.inDataPages (d : Dev) (part va n : Nat) : Bool :=
  (piecesOf va n).all (fun p => decide (p.1 < 2 ^ 48) && ((d.part part).lookup p.1).any (fun e => e.1.kind == .data))

def runXchConfig (part : Nat) (x : XchConfig) : Run Counts := do
  let d ← getDev
  require ((d.xchOf x.ctx).isNone) stInUse
  match d.groupOf part x.group with
  | none => failWith stBadParam
  | some (ms, pos) => do
    let g := ms.length
    let n := g * x.shardBlocks * 1024
    require (decide (g ≤ 4096) && decide (x.minPresent ≤ g)) stBadParam
    require (d.inDataPages part x.gradVa (n * x.gradLen) && (x.comp == 2 || d.inDataPages part x.residVa (8 * n)) &&
      d.inDataPages part x.inboxVa (3 * g * x.cs) && d.inDataPages part x.sumVa (4096 * x.shardBlocks)) stBadParam
    hold (.train (.xchNew x.ctx
      { cfg := x, part := part, members := g, pos := pos, step := x.firstStep, epoch := 0, stored := [], held := [],
        ownTick := none, issueTick := none, decision := none, replay := false, lastPresent := 0, dropped := 0, heldCount := 0,
        shadows := [], waiters := [] }))
    return okCounts x.cs g 0

/-- A context of the issuing partition. -/
def xchFor (part ctx : Nat) : Run Xch := do
  match (← getDev).xchOf ctx with
  | some x => do
    require (x.part == part) stBadParam
    return x
  | none => failWith stBadParam

/-- Whether a SEND or a STEP_WAIT of a context is dispatched. -/
def Dev.xchBusy (d : Dev) (ctx : Nat) : Bool :=
  d.live.any (fun x => x.2.inFlight && (match x.2.payload with
    | .xchSend k _ _ => k == ctx
    | .stepWait k _ _ _ _ => k == ctx
    | _ => false))

def runXchRemove (part ctx : Nat) : Run Counts := do
  let x ← xchFor part ctx
  require (!(← getDev).xchBusy ctx) stInUse
  hold (.train (.xchGone ctx))
  return okCounts x.stored.length 0 0

/-! ### SEND (R423 to R425, R428) -/

/-- Runs a command whose end waits until its messages are acknowledged. -/
def Dev.runThenSend (d : Dev) (c : CmdRef) (e : Entry) (own : List Byte) (m : Run (Counts × List (Nat × MsgBody))) : Dev :=
  match m (.start d c e) with
  | .error f x => d.ranFail c e f x
  | .ok (k, msgs) x =>
    if msgs.isEmpty then d.ranOk c e k x
    else
      let (e', n, d) := d.issuedRun c e x
      let d := d.setPhase c (.running (.coll true own (runResult k n e'.ce x)))
      msgs.foldl (fun d m => d.sendMsg (some c) m.1 m.2) d

/-- One block of the local gradient: its contribution, whose values count as outputs (R77), and how its residual is left. -/
def sendBlock (x : Xch) (shard blk : Nat) : Run (List Byte × Nat) := do
  let i := (shard * x.cfg.shardBlocks + blk) * 1024
  let n := x.members * x.cfg.shardBlocks * 1024
  let g := rowVals x.cfg.gfmt [] (rowCodes x.cfg.gfmt 1024 (← readVa accPlain (x.cfg.gradVa + i * x.cfg.gradLen) (1024 * x.cfg.gradLen)))
  let a ← if x.cfg.comp = 2 then pure (g.map rne32)
    else do
      let r ← readVa accPlain (x.cfg.residVa + 4 * n * x.epoch + 4 * i) 4096
      pure ((withIdx 0 g).map (fun v => rne32 (addExact v.1 (v32 (word32 r (4 * v.2))))))
  let b := encodeBlock x.cfg a
  noteVals ((decodeBlock x.cfg b).map v32)
  if x.cfg.comp = 2 then pure ()
  else
    let left := (a.zip (decodeBlock x.cfg b)).map (fun p => sub32 p.1 p.2)
    noteVals (left.map v32)
    writeVa accPlain (x.cfg.residVa + 4 * n * (1 - x.epoch) + 4 * i) (left.flatMap wordBytes)
  return (b, (a.filter (fun w => !isFinite32 w)).length)

/-- One shard of the local gradient: what goes to its owner, and the elements that are not finite. -/
def sendShard (x : Xch) (s : Nat) : Run (List Byte × Nat) := do
  let bs ← (List.range x.cfg.shardBlocks).mapM (sendBlock x s)
  return (bs.flatMap (·.1), (bs.map (·.2)).sum)

/-- The contributions that go to the other members. -/
def sendMsgs (x : Xch) (ms : List GroupMember) (ctx step : Nat) (shards : List (List Byte × Nat)) : List (Nat × MsgBody) :=
  ((withIdx 0 shards).filter (fun s => s.2 != x.pos)).map (fun s =>
    (memberAt ms s.2, MsgBody.contrib x.cfg.group ctx step x.pos s.1.1))

def runSend (part ctx step : Nat) : Run (Counts × List (Nat × MsgBody)) := do
  let x ← xchFor part ctx
  require (step == x.step) stBadParam
  match (← getDev).groupOf part x.cfg.group with
  | none => failWith stBadParam
  | some (ms, _) => do
    let d ← getDev
    require ((List.range x.members).all (fun p => p == x.pos || d.routeOk (memberAt ms p))) stLinkDown
    let shards ← (List.range x.members).mapM (sendShard x)
    hold (.train (.contrib ctx step x.pos ((shards.map (·.1)).getD x.pos [])))
    return (okCounts (min (shards.map (·.2)).sum max32) x.epoch x.members, sendMsgs x ms ctx step shards)

/-! ### Arrivals (R428, R433) -/

/-- R433: what becomes of a contribution. -/
inductive Fate where
  | replaced | stored | markedHeld | discarded | waits
  deriving DecidableEq, Repr

def Xch.fate (x : Xch) (s p : Nat) : Fate :=
  let k := ahead s x.step
  if x.stored.contains (s, p) then .replaced
  else if k = 0 then
    if x.decision.isNone then .stored else if x.cfg.policy = 1 then .markedHeld else .discarded
  else if k = 1 then .stored
  else if k = 2 ^ 32 - 1 ∧ x.cfg.policy = 1 ∧ x.decision.isNone then .markedHeld
  else if 2 ^ 31 ≤ k then .discarded
  else .waits

/-- A contribution published at its owner. -/
def Dev.contribArrives (d : Dev) (ctx s p : Nat) (data : List Byte) : Dev :=
  match d.xchOf ctx with
  | none => d
  | some x =>
    let put (d : Dev) : Dev := d.pokeVa x.part (x.inboxAt s p) data
    let keep (d : Dev) (held : Bool) : Dev :=
      (put d).modXch ctx (fun x =>
        { x with stored := x.stored ++ [(s, p)]
                 held := if held then x.held ++ [(s, p)] else x.held
                 heldCount := if held then min 0xFFFF (x.heldCount + 1) else x.heldCount
                 ownTick := if p = x.pos ∧ s = x.step ∧ x.ownTick.isNone then some (d.tickAt 14) else x.ownTick })
    match x.fate s p with
    | .replaced => put d
    | .stored => keep d false
    | .markedHeld => (keep d true).logLate x.part ctx s p 0
    | .discarded =>
      (d.modXch ctx (fun x => { x with dropped := min 0xFFFF (x.dropped + 1) })).logLate x.part ctx s p 1
    | .waits => d

/-- A contribution kept until its SEND commits; a re-run's stands in its place. -/
def Xch.keepShadow (x : Xch) (s p : Nat) (data : List Byte) : Xch :=
  { x with shadows := x.shadows.filter (fun y => y.1 != (s, p)) ++ [((s, p), data)] }

/-- R428: a delivery that is two steps early waits at its sender, of whom the owner keeps note. -/
def Dev.tellWait (d : Dev) (m : Message) (ctx s : Nat) : Dev :=
  (d.modXch ctx (fun x => { x with waiters := x.waiters ++ [(m.src, m.id, s)] })).answer m.src (.contribHold m.id)

/-- R261, R428: a contribution arrives from another member and is kept; it is published when its SEND's commit message comes. -/
def Dev.contribData (d : Dev) (m : Message) (group ctx s p : Nat) (data : List Byte) : Dev :=
  match d.xchOf ctx with
  | none => d
  | some x =>
    if x.cfg.group ≠ group ∨ x.members ≤ p ∨ data.length ≠ x.cfg.cs then d
    else if x.fate s p = .waits then d.tellWait m ctx s
    else (d.modXch ctx (fun x => x.keepShadow s p data)).ackMsg m

/-- R428, R433: a SEND commits at its owner: what it delivered is published and meets its fate. -/
def Dev.contribCommits (d : Dev) (m : Message) (group ctx s p : Nat) : Dev :=
  match d.xchOf ctx with
  | none => d
  | some x =>
    match x.shadows.find? (fun y => y.1 == (s, p)) with
    | none => d
    | some y =>
      if x.cfg.group ≠ group then d
      else if x.fate s p = .waits then d.tellWait m ctx s
      else
        ((d.modXch ctx (fun x => { x with shadows := x.shadows.filter (fun y => y.1 != (s, p)) })).contribArrives ctx s p y.2).ackMsg m

/-- R428: the owner has the delivery wait at this sender; a delivery that waits is not lost. -/
def Dev.holdSent (d : Dev) (msg : Nat) : Dev :=
  d.modLinks (fun l => { l with sent := l.sent.map (fun s => if s.msg.id = msg then { s with held := true } else s) })

/-- R428: a delivery that waited goes out again. -/
def Dev.sendAgain (d : Dev) (msg : Nat) : Dev :=
  match d.sentMsg msg with
  | none => d
  | some s =>
    if !s.held then d
    else
      (d.modLinks (fun l =>
        { l with sent := l.sent.map (fun s => if s.msg.id = msg then { s with held := false, tick := d.clk.tick } else s) })).leave s.msg 0

/-- CONTRIB_ARRIVE: a contribution, or the commit message of its SEND, reaches the owner; or the owner's word on a delivery that
waits reaches the sender. -/
def doContribArrive (d : Dev) (m : Message) : Dev :=
  match m.body with
  | .contrib group ctx s p data => d.contribData m group ctx s p data
  | .contribCommit group ctx s p => d.contribCommits m group ctx s p
  | .contribHold msg => d.holdSent msg
  | .contribGo msg => d.sendAgain msg
  | _ => d

/-! ### The decision (R429 to R432, R436, R437) -/

def Xch.has (x : Xch) (s p : Nat) : Bool := x.stored.contains (s, p)

/-- R436: the flags of a replay mask, as positions present and positions held. -/
def maskFlags (g : Nat) (b : List Byte) : XchDecision :=
  let f (k : Nat) : List Nat := (List.range g).filter (fun p => bit (byteAt b (p / 4)) (2 * (p % 4) + k))
  ⟨f 0, f 1⟩

/-- The mask of a decision. -/
def maskBytes (g : Nat) (present held : List Nat) : List Byte :=
  (List.range (ceilDiv g 4)).flatMap (fun k => leBytes 1 ((List.range 4).map (fun i =>
    setBit (present.contains (4 * k + i)) (2 * i) + setBit (held.contains (4 * k + i)) (2 * i + 1))).sum)

/-- A STEP_WAIT issues: it starts to wait for its decision tick. -/
def Dev.issueWait (d : Dev) (c : CmdRef) (e : Entry) (ctx : Nat) (replay : Bool) : Dev :=
  let d := d.modXch ctx (fun x =>
    { x with issueTick := some (d.tickAt 14), replay := replay, decision := if replay then none else x.decision })
  d.modEntry c (fun x => { x with phase := .running (.stage 0 (Result.failed stOk 0 e.ce)), issued := true })

/-- R427: the entries that a decision sums, by rising position, a held one before the present one. -/
def Xch.terms (x : Xch) (z : XchDecision) : List (Nat × Nat) :=
  (List.range x.members).flatMap (fun p =>
    (if z.held.contains p then [(prevStep x.step, p)] else []) ++ (if z.present.contains p then [(x.step, p)] else []))

/-- R427: one block of the shard's sum. -/
def sumBlock (x : Xch) (z : XchDecision) (b : Nat) : Run Unit := do
  let vs ← (x.terms z).mapM (fun t => do
    return decodeBlock x.cfg (← readVa accPlain (x.inboxAt t.1 t.2 + b * x.cfg.blockLen) x.cfg.blockLen))
  let sum := match vs with
    | [] => List.replicate 1024 (0 : Word)
    | v :: t => t.foldl (fun r v => r.zipWith add32 v) v
  noteVals (sum.map v32)
  writeVa accPlain (x.cfg.sumVa + 4096 * b) (sum.flatMap wordBytes)

/-- R427: the shard's sum, by the decision. -/
def runStepSum (ctx : Nat) (x : Xch) (z : XchDecision) : Run Counts := do
  (List.range x.cfg.shardBlocks).forM (sumBlock x z)
  hold (.train (.stepSummed ctx z.present z.held))
  let absent := x.members - z.present.length
  return ⟨if absent = 0 then stOk else stLatePeer, z.present.length, absent, z.held.length⟩

/-- STEP_WAIT: first it issues and waits; after its decision tick it takes the datapath and sums. -/
def doStepWait (d : Dev) (c : CmdRef) : Dev :=
  match d.entry c with
  | none => d
  | some e =>
    match e.payload, e.phase with
    | .stepWait ctx replay step _ _, .dispatched =>
      (match d.xchOf ctx with
        | some x =>
          if x.part ≠ e.hdr.part ∨ x.step ≠ step then d.refuse c e stBadParam
          else d.issueWait c e ctx (replay == 1)
        | none => d.refuse c e stBadParam)
    | .stepWait ctx _ _ _ _, .running _ =>
      (match d.xchOf ctx with
        | some x =>
          match x.decision with
          | some z => if d.dieFree e then d.run c e (runStepSum ctx x z) else d
          | none => d
        | none => d)
    | _, _ => d

/-- A decision is made: too few present end the command (R431). -/
def Dev.decide_ (d : Dev) (c : CmdRef) (e : Entry) (ctx : Nat) (x : Xch) (z : XchDecision) : Dev :=
  let d := d.modXch ctx (fun x => { x with lastPresent := z.present.length })
  if z.present.length < x.cfg.minPresent ∧ !x.replay then
    (d.modXch ctx (fun x => { x with issueTick := none })).refuse c e stPeerLost
  else d.modXch ctx (fun x => { x with decision := some z, issueTick := none })

/-- R429, R436: the decision tick of a STEP_WAIT. -/
def doDecisionTick (d : Dev) (c : CmdRef) : Dev :=
  match d.entry c with
  | none => d
  | some e =>
    match e.payload, e.phase with
    | .stepWait ctx replay _ maskVa _, .running _ =>
      (match d.xchOf ctx with
        | none => d
        | some x =>
          if x.decision.isSome then d
          else if replay = 1 then
            match readVa accPlain maskVa (ceilDiv x.members 4) (.start d c e) with
            | .error f y => d.ranFail c e f y
            | .ok b _ =>
              let z := maskFlags x.members b
              let missing := z.present.filter (fun p => !x.has x.step p)
              if z.held.any (fun p => !x.has (prevStep x.step) p) then d.refuse c e stBadParam
              else if missing.isEmpty then d.decide_ c e ctx x z
              else
                match d.groupOf x.part x.cfg.group with
                | some (ms, _) =>
                  if missing.any (fun p => !d.routeOk (memberAt ms p)) then d.refuse c e stLinkDown else d
                | none => d
          else
            let present := (List.range x.members).filter (fun p => x.has x.step p)
            let held := (List.range x.members).filter (fun p => x.held.contains (prevStep x.step, p))
            let late : Bool := match x.issueTick, x.ownTick with
              | some i, some o => decide (max i o + x.cfg.window < d.tickAt 14)
              | _, _ => false
            if present.length = x.members ∨ late then d.decide_ c e ctx x ⟨present, held⟩ else d)
    | _, _ => d

/-- R434: a decision's entries: DECISION, then its MASK chunks. -/
def Dev.logDecision (d : Dev) (ctx : Nat) (present held : List Nat) : Dev :=
  match d.xchOf ctx with
  | none => d
  | some x =>
    let share := ctx / 8
    let d := d.logAdd x.part share x.step 0x04
      (leBytes 1 ctx ++ leBytes 2 x.members ++ leBytes 2 present.length ++ leBytes 2 (x.members - present.length))
    let m := maskBytes x.members present held
    (List.range (ceilDiv m.length 32)).foldl (fun d i =>
      d.logAdd x.part share x.step 0x05 (leBytes 2 i ++ fitBytes 32 (m.drop (32 * i)))) d

/-- R435: the entries of the step that a decision took: its present ones, and the held ones that joined it. -/
def Xch.taken (x : Xch) : List (Nat × Nat) :=
  match x.decision with
  | none => []
  | some z => z.present.map (fun p => (x.step, p)) ++ z.held.map (fun p => (prevStep x.step, p))

/-- R435: the entries marked held for the next step that came from this one: a step that is skipped discards them. -/
def Xch.late (x : Xch) : List (Nat × Nat) := x.held.filter (fun e => e.1 == x.step)

/-- R426, R435: a context's step advances, applied or skipped. -/
def Xch.advance (x : Xch) (applied : Bool) : Xch :=
  let gone := x.taken ++ if applied then [] else x.late
  { x with step := nextStep x.step, epoch := if applied then 1 - x.epoch else x.epoch
           stored := x.stored.filter (fun e => !gone.contains e)
           held := x.held.filter (fun e => !gone.contains e)
           ownTick := none, issueTick := none, decision := none
           dropped := min 0xFFFF (x.dropped + if applied then 0 else x.late.length) }

/-- R428: the deliveries whose step a context has come near enough to go out again. -/
def Dev.freeWaiters (d : Dev) (ctx : Nat) : Dev :=
  match d.xchOf ctx with
  | none => d
  | some x =>
    let go := x.waiters.filter (fun w => decide (x.fate w.2.2 x.members ≠ .waits))
    go.foldl (fun d w => d.answer w.1 (.contribGo w.2.1))
      (d.modXch ctx (fun x => { x with waiters := x.waiters.filter (fun w => !go.contains w) }))

/-- R426, R434, R435: a context's step advances; what a skipped step discards is logged, and deliveries that waited for it go. -/
def Dev.advanceCtx (d : Dev) (applied : Bool) (ctx : Nat) : Dev :=
  match d.xchOf ctx with
  | none => d
  | some x =>
    let d := d.modXch ctx (fun x => x.advance applied)
    let d := if applied then d else x.late.foldl (fun d e => d.logLate x.part ctx e.1 e.2 1) d
    d.freeWaiters ctx

/-! ### Activation copies (R415, R416, R440) -/

def actFieldsOk (src dst pages ranks spindles : Nat) (rsv : Bool) : Bool :=
  rsv && src % pageBytes == 0 && dst % pageBytes == 0 && decide (1 ≤ pages) && decide (pages ≤ 65535) && decide (ranks ≤ spindles) &&
    decide (src + pages * pageBytes ≤ 2 ^ 48) && decide (dst + pages * pageBytes ≤ 2 ^ 48)

/-- One page of an activation copy, from the tier that its command asks for into the other. -/
def actPage (offload : Bool) (part src dst i : Nat) : Run Unit := do
  let a ← xlate accPlain part (src + i * pageBytes)
  let b ← xlate { accPlain with write := true } part (dst + i * pageBytes)
  require (isDdr a != offload && isDdr b == offload) stBadParam
  let cells ← readPage a
  hold (.block b pageBytes cells)

def runAct (offload : Bool) (part src dst pages ranks : Nat) : Run Counts := do
  (List.range pages).forM (actPage offload part src dst)
  let d ← getDev
  return okCounts pages (if ranks = 0 then (d.part part).spindles.length else ranks) 0

/-! ### The commands -/

def doXchConfig (d : Dev) (c : CmdRef) : Dev :=
  d.onDie c (fun e => match e.payload with
    | .xchConfig x => d.runClaimed c e (runXchConfig e.hdr.part x)
    | _ => d)

def doSend (d : Dev) (c : CmdRef) : Dev :=
  d.onDie c (fun e => match e.payload with
    | .xchSend ctx step _ => d.runThenSend c e [] (runSend e.hdr.part ctx step)
    | _ => d)

def doXchRemove (d : Dev) (c : CmdRef) : Dev :=
  d.onDie c (fun e => match e.payload with
    | .xchRemove ctx _ => d.runClaimed c e (runXchRemove e.hdr.part ctx)
    | _ => d)

def doActOffload (d : Dev) (c : CmdRef) : Dev :=
  d.onPacket c (fun e => match e.payload with
    | .actOffload s t n w _ => d.run c e (runAct true e.hdr.part s t n w)
    | _ => d)

def doActPrefetch (d : Dev) (c : CmdRef) : Dev :=
  d.onPacket c (fun e => match e.payload with
    | .actPrefetch s t n w _ => d.run c e (runAct false e.hdr.part s t n w)
    | _ => d)

end Sys2Proof.Machine
end

