-- ==== Sys2Proof/Machine/Snapshot.lean ====
section
/-! DEFINITION. Stores, snapshot sets, TAKE, RESTORE, log configuration and recovery (R498 to R509, R517 to R526). -/

namespace Sys2Proof.Machine

/-! ### STORE (R508) -/

def snapStoreOk (i srcPart hostPart slotBytes source : Nat) (rsv : Bool) : Bool :=
  rsv && decide (i < 16) && decide (srcPart < 14) && (decide (hostPart < 14) || hostPart == 0xFF) && slotBytes % pageBytes == 0 &&
    decide (source < 16384)

/-- Pages for a store, one by one, from the die with more free pages. -/
def storePages (d : Dev) (p : Partition) : Nat → Placing → Option Placing
  | 0, x => some x
  | n + 1, x =>
    match placeDdr d p 0 x 0 with
    | some y => storePages d p n y
    | none => none

def runStore (queuePart i source srcPart hostPart slotBytes logA logB : Nat) : Run Counts := do
  let d ← getDev
  let host := if hostPart = 0xFF then queuePart else hostPart
  require (decide (host < 14) && (d.part host).state != .free) stBadParam
  require ((d.store i).isNone) stInUse
  let n := 2 * (slotBytes / pageBytes) + logA + logB
  match storePages d (d.part host) n ⟨[], [], [], [], []⟩ with
  | none => failWith stQuota
  | some x => do
    holdAll (x.ddr.map (fun k => .pageUse .ddr k (.store i)))
    hold (.train (.store i ⟨source, srcPart, host, slotBytes, logA, logB, x.ddr⟩))
    return okCounts n 0 0

/-! ### CONFIG (R498, R502, R523) -/

def parseRegion (b : List Byte) (i : Nat) : SnapRegion :=
  let o := 32 * i
  ⟨leAt b o 8, leAt b (o + 8) 8, leAt b (o + 16) 4, byteAt b (o + 20), byteAt b (o + 21), byteAt b (o + 22), zeroAt b (o + 23) 9⟩

/-- Whether a copy of a region lies in HBM or in DDR5 of its die, in data pages. -/
def Dev.copyOk (d : Dev) (part die va n : Nat) : Bool :=
  (piecesOf va n).all (fun p => decide (p.1 < 2 ^ 48) &&
    (match (d.part part).lookup p.1 with
      | some (e, pa) => decide (e.kind = .data) && (match tierOf pa with
        | some (.hbm, _) => true
        | some (.ddr, k) => k % 2 == die
        | _ => false)
      | none => false))

def Dev.regionOk (d : Dev) (part : Nat) (r : SnapRegion) : Bool :=
  r.rsvZero && r.va0 % granuleBytes == 0 && r.va1 % granuleBytes == 0 && (r.sel != 0 || r.va1 == 0) && decide (1 ≤ r.granules) &&
    decide (r.granules ≤ 16777216) && decide (r.sel ≤ 2) && decide (r.ctx < 16) && (r.sel == 2 || r.ctx == 0) && decide (r.die ≤ 1) &&
    d.copyOk part r.die r.va0 (r.granules * granuleBytes) &&
    (r.sel == 0 || d.copyOk part r.die r.va1 (r.granules * granuleBytes))

def snapConfigOk (c : SnapConfig) : Bool :=
  c.rsvZero && decide (c.store0 < 16) && decide (c.store1 < 16) && (decide (c.sealedRegion < 16) || c.sealedRegion == 0xFF) &&
    decide (c.buddy0 < 16384) && decide (c.buddy1 < 16384) && decide (1 ≤ c.nRegions) && decide (c.nRegions ≤ 256) && vaOk c.tableVa

def totalGranules (rs : List SnapRegion) : Nat := (rs.map (·.granules)).sum

/-- Whether a TAKE of a partition is in flight. -/
def Dev.takeRuns (d : Dev) (part : Nat) (not_ : CmdRef) : Bool :=
  d.live.any (fun x => x.2.hdr.part == part && x.2.inFlight && x.2.ref != not_ && (match x.2.payload with
    | .snapTake _ _ => true
    | _ => false)) ||
  d.live.any (fun x => x.2.ref != not_ && (match x.2.payload, x.2.phase with
    | .reclaim p _ _, .running (.coll _ _ _) => p == part
    | _, _ => false))

/-- R498. -/
def Dev.buddiesOk (d : Dev) (c : SnapConfig) : Bool :=
  c.buddy0 != c.buddy1 && c.buddy0 != d.links.devNum && c.buddy1 != d.links.devNum

def runSnapConfig (part : Nat) (c : SnapConfig) (slot0 slot1 : Nat) : Run Counts := do
  let d ← getDev
  require (!d.takeRuns part (← get).cmd) stInUse
  match d.groupOf part c.group with
  | none => failWith stBadParam
  | some (_, pos) => do
    let table ← readIn accPlain part c.tableVa (32 * c.nRegions)
    let rs := (List.range c.nRegions).map (parseRegion table)
    require (rs.all (d.regionOk part)) stBadParam
    let n := totalGranules rs
    let need := granuleBytes * (n + 1)
    require (decide (need ≤ slot0) && decide (need ≤ slot1)) stBadParam
    hold (.train (.snapConfig part ⟨c, pos, table, rs, [], [], none, none⟩))
    return okCounts n c.nRegions 0

/-! ### TAKE (R499 to R507) -/

/-- R500: the generation that the next TAKE must name. -/
def SnapSet.nextGen (s : SnapSet) : Nat :=
  match s.gens.head? with
  | some g => g.n + 1
  | none => 0

/-- R502: the address that a TAKE copies, or a RESTORE writes, for a granule. -/
def SnapRegion.pick (r : SnapRegion) (step : Nat) (epoch : Nat → Nat) : Nat :=
  match r.sel with
  | 0 => r.va0
  | 1 => if step % 2 = 0 then r.va0 else r.va1
  | _ => if epoch r.ctx = 0 then r.va0 else r.va1

def Dev.epochOf (d : Dev) (ctx : Nat) : Nat := ((d.xchOf ctx).map (·.epoch)).getD 0

/-- R504: the granules whose bit a TAKE finds set. -/
def SnapSet.dirtyFor (s : SnapSet) (slot : Nat) : List Nat :=
  (List.range (totalGranules s.regions)).filter (fun g => bit (tget 15 s.dirty g) slot)

/-- The buddy and the store that hold a slot. -/
def SnapSet.buddyOf (s : SnapSet) (slot : Nat) : Nat × Nat :=
  if slot % 2 = 0 then (s.cfg.buddy0, s.cfg.store0) else (s.cfg.buddy1, s.cfg.store1)

/-- R507: whether the last MARK names the step after the committed one. -/
def Train.marked (t : Train) : Bool :=
  match t.log.bind (·.mark) with
  | some m => m.1 == nextStep t.step
  | none => false

/-- R501, R502: one granule read for its slot on the buddy. -/
def takeGranule (part n step : Nat) (epoch : Nat → Nat) (s : SnapSet) (g : Nat) : Run (Nat × MsgBody) := do
  match granuleAt s.regions g with
  | none => failWith stBadParam
  | some (r, i) => do
    let data ← readIn accPlain part (r.pick step epoch + granuleBytes * i) granuleBytes
    return ((s.buddyOf (n % 4)).1, MsgBody.snapWrite (s.buddyOf (n % 4)).2 (n % 4) (granuleBytes * (g + 1)) data)

def runTake (part n : Nat) : Run (Counts × List (Nat × MsgBody)) := do
  let d ← getDev
  let t := d.trainOf part
  match t.snap with
  | none => failWith stBadParam
  | some s => do
    require (n == s.nextGen) stBadParam
    require t.marked stRngSkew
    require (d.routeOk (s.buddyOf (n % 4)).1) stLinkDown
    let gs := s.dirtyFor (n % 4)
    let msgs ← gs.mapM (takeGranule part n t.step d.epochOf s)
    hold (.train (.snapTaken part n t.step gs.length))
    return (okCounts gs.length (n % 2 ^ 32) t.step, msgs)

/-- R504: the bits that a TAKE cleared and that it must set again when it does not commit. -/
def SnapSet.untake (s : SnapSet) : SnapSet :=
  match s.taking with
  | none => s
  | some (slot, gs) =>
    { s with taking := none
             dirty := gs.foldl (fun t g => tmod 15 t g (fun m => m ||| 2 ^ slot)) s.dirty }

def Dev.modSnap (d : Dev) (part : Nat) (f : SnapSet → SnapSet) : Dev :=
  d.modTrain part (fun t => { t with snap := t.snap.map f })

/-- R504: the bits cleared as a TAKE reads its granules. -/
def SnapSet.clearBits (s : SnapSet) (slot : Nat) (gs : List Nat) : SnapSet :=
  { s with taking := some (slot, gs), dirty := gs.foldl (fun t g => tmod 15 t g (fun m => m &&& (15 - 2 ^ slot))) s.dirty }

/-- A TAKE for a command: of its own, or of a RECLAIM (R559), which keeps bytes of its own meanwhile. -/
def Dev.takeFor (d : Dev) (c : CmdRef) (e : Entry) (part n : Nat) (own : List Byte) : Dev :=
  let d := d.modSnap part SnapSet.untake
  let gs := match (d.trainOf part).snap with
    | some s => s.dirtyFor (n % 4)
    | none => []
  let d := d.runThenSend c e own (runTake part n)
  match d.entry c with
  | some e' => if e'.inFlight then d.modSnap part (fun s => s.clearBits (n % 4) gs) else d
  | none => d

/-- SKN_SEAL_DIGEST of the sealed region that a set names, or zeros. -/
def Dev.teacherOf (d : Dev) (s : SnapSet) : List Byte :=
  match tfind d.mem.regions s.cfg.sealedRegion with
  | some r => r.digest
  | none => zeros 32

/-- The contexts of a partition that are bound, as (context, epoch). -/
def Dev.boundCtx (d : Dev) (part : Nat) : List (Nat × Nat) :=
  (d.xch.filter (fun kv => kv.2.part == part)).map (fun kv => (kv.1, kv.2.epoch))

/-- R507: the manifest. -/
def Dev.manifest (d : Dev) (part n step : Nat) (s : SnapSet) : List Byte :=
  let t := d.trainOf part
  let cursor := ((t.log.bind (·.mark)).map (·.2)).getD 0
  let bound := d.boundCtx part
  let head := leBytes 4 0x5A42534D ++ leBytes 2 1 ++ leBytes 1 (n % 4) ++ leBytes 1 1 ++ leBytes 8 s.cfg.jobId ++ leBytes 8 n ++
    leBytes 4 step ++ leBytes 4 (nextStep step) ++ leBytes 8 cursor ++ leBytes 8 t.lsnA ++ leBytes 8 t.lsnB ++
    leBytes 2 s.position ++ leBytes 2 s.cfg.group ++ leBytes 2 (s.regions.length) ++
    leBytes 2 (maskOf ((bound.filter (fun x => x.2 == 1)).map (·.1))) ++ leBytes 2 (maskOf (bound.map (·.1))) ++ zeros 6 ++
    leBytes 8 (granuleBytes * totalGranules s.regions) ++ fitBytes 32 (d.teacherOf s) ++ shake256 32 s.table ++ zeros 80
  head ++ shake256 32 head

/-- R501, R507: the commit point of a TAKE. -/
def Dev.snapTaken (d : Dev) (part n step : Nat) : Dev :=
  match (d.trainOf part).snap with
  | none => d
  | some s =>
    let slot := n % 4
    let b := s.buddyOf slot
    let d := d.sendMsg none b.1 (.snapWrite b.2 slot 0 (d.manifest part n step s ++ s.table))
    let old := (n + 1) % 4
    let o := s.buddyOf old
    let d := d.sendMsg none o.1 (.snapWrite o.2 old 7 [0])
    let t := d.trainOf part
    let d := d.modSnap part (fun s => { s with taking := none, gens := ⟨n, step, t.lsnA, t.lsnB⟩ :: s.gens.take 2 })
    d.logAdd part 0 step 0x08 (leBytes 8 n ++ leBytes 1 slot)

/-- R505, R507: what a TAKE meets at its commit point. -/
def Dev.takeStatus (d : Dev) (part step : Nat) : Nat :=
  let t := d.trainOf part
  if t.step ≠ step then stBadParam else if t.marked then stOk else stRngSkew

/-! ### RESTORE (R519 to R521) -/

/-- R519: the checks of a manifest, in their order, the reads aside. -/
def manifestStatus (s : Option SnapSet) (position gen jobId epoch cursor : Nat) (b : List Byte) : Nat :=
  if !(leAt b 0 4 == 0x5A42534D && leAt b 4 2 == 1 && decide (slice b 224 32 = shake256 32 (slice b 0 224)) && bit (byteAt b 7) 0 &&
      leAt b 16 8 == gen) then stBadManifest
  else if !(leAt b 8 8 == jobId && leAt b 56 2 == position && s.any (fun s =>
      leAt b 58 2 == s.cfg.group && decide (slice b 112 32 = shake256 32 s.table))) then stBadManifest
  else if !(leAt b 28 4 == nextStep (leAt b 24 4) && leAt b 28 4 == epoch && leAt b 32 8 == cursor) then stRngSkew
  else stOk

/-- R519: one granule of a slot written back, at the copy that its region selects. -/
def restoreGranule (part : Nat) (regions : List SnapRegion) (step epochs : Nat) (slot : List Byte) (g : Nat) : Run Unit :=
  match granuleAt regions g with
  | some (r, k) =>
    writeIn accPlain part (r.pick step (fun x => if bit epochs x then 1 else 0) + granuleBytes * k)
      (slice slot (granuleBytes * (g + 1)) granuleBytes)
  | none => pure ()

/-- R508, R519: a RESTORE STATE with the slot that the buddy gives: the manifest, and the granules of the image. -/
def runRestoreState (part position gen jobId epoch cursor : Nat) (slot : List Byte) : Run Counts := do
  let set := ((← getDev).trainOf part).snap
  let regions := (set.map (·.regions)).getD []
  let n := totalGranules regions
  require (decide (granuleBytes * (n + 1) ≤ slot.length)) stPeerLost
  let m := slot.take 256
  let st := manifestStatus set position gen jobId epoch cursor m
  require (st == stOk) st
  let step := leAt m 24 4
  let epochs := leAt m 62 2
  (List.range n).forM (restoreGranule part regions step epochs slot)
  hold (.train (.restored part step gen epochs (leAt m 40 8) (leAt m 48 8) (slice m 80 32)))
  return okCounts n step (gen % 2 ^ 32)

/-- R520: a bound context continues after the restored step, with the epoch that the manifest gives. -/
def Xch.resume (x : Xch) (step epoch : Nat) : Xch :=
  { x with step := nextStep step, epoch := epoch, ownTick := none, issueTick := none, decision := none }

def Dev.resumeCtxs (d : Dev) (part step epochs : Nat) : Dev :=
  { d with xch := d.xch.map (fun kv =>
      (kv.1, if kv.2.part = part then kv.2.resume step (if bit epochs kv.1 then 1 else 0) else kv.2)) }

/-- Decisions on later steps are past once a RESTORE STATE has gone back before them: those steps run again. -/
def Decision.goBack (step : Nat) (x : Decision) : Decision := if step < x.step then { x with past := true } else x

/-- Whether a commit table belongs to a group of a partition. -/
def Dev.ownsTable (d : Dev) (part slot : Nat) : Bool :=
  slot == 0x10000 + part || (tfind d.links.groups slot).any (fun g => g.part == part)

/-- R520: the commit point of a RESTORE STATE, its bytes aside. -/
def Dev.restored (d : Dev) (part step gen epochs lsnA lsnB : Nat) (teacher : List Byte) : Dev :=
  let d := d.modTrain part (fun t =>
    { t with step := step, lsnA := lsnA, lsnB := lsnB, snap := t.snap.map (fun s => { s with dirty := [], taking := none, base := some (lsnA, lsnB) }) })
  let d := d.resumeCtxs part step epochs
  let done (r : Recovery) : Recovery :=
    if r.part = part ∧ r.gen = gen then { r with stateDone := true, teacher := some teacher } else r
  let d := d.modTraining (fun t =>
    { t with recovery := t.recovery.map done
             table := t.table.map (fun kv => (kv.1, if d.ownsTable part kv.1 then kv.2.map (Decision.goBack step) else kv.2)) })
  d.logAdd part 0 step 0x09 (leBytes 8 gen ++ leBytes 4 step)

/-- The entries that a mirror holds, in the order of their lsns; every entry has a kind that is not zero (R494). -/
def mirrorEntries (b : List Byte) : List (List Byte) :=
  let n := b.length / 64
  let entry (i : Nat) : List Byte := slice b (64 * i) 64
  let live (i : Nat) : Bool := byteAt b (64 * i + 12) != 0
  let next := ((List.range n).filter live).foldl (fun k i => max k (leAt (entry i) 0 8 + 1)) 0
  (List.range n).filterMap (fun i => if live ((next + i) % n) then some (entry ((next + i) % n)) else none)

/-- R521: a share's entries written back at their lsns, those that its ring has room for. -/
def restoreShare (part : Nat) (l : TrainLog) (share : Nat) (es : List (List Byte)) : Run Nat := do
  let next := es.foldl (fun n e => max n (leAt e 0 8 + 1)) (l.next share)
  (es.filter (fun e => decide (next ≤ leAt e 0 8 + l.cap share))).forM (fun e =>
    writeIn accPlain part (l.base share + 64 * (leAt e 0 8 % l.cap share)) e)
  return next

/-- The decisions of a root that COMMIT entries carry. -/
def rootDecisions (es : List (List Byte)) : List (Nat × Decision) :=
  (es.filter (fun e => byteAt e 12 == 7 && byteAt e 28 == 1)).map (fun e =>
    (leAt e 24 2, ⟨leAt e 8 4, byteAt e 26, byteAt e 27, false⟩))

/-- R521: a RESTORE LOG with the two mirrors that the buddy gives. -/
def runRestoreLog (part : Nat) (mirrorA mirrorB : List Byte) : Run Counts := do
  match ((← getDev).trainOf part).log with
  | none => failWith stBadParam
  | some l => do
    let x := mirrorEntries mirrorA
    let y := mirrorEntries mirrorB
    let nextA ← restoreShare part l 0 x
    let nextB ← restoreShare part l 1 y
    let ds := rootDecisions (x ++ y)
    hold (.train (.logRestored part nextA nextB ds))
    return okCounts (x.length + y.length) ds.length 0

/-- R514: a commit table with one more decision; a later one of the same step and attempt stands in its place. -/
def addDecision (l : List Decision) (x : Decision) : List Decision :=
  let l := l.filter (fun y => !(y.step == x.step && y.attempt == x.attempt)) ++ [x]
  l.drop (l.length - 16)

/-- A decision kept in the table that stands under a slot. -/
def Dev.recordDecision (d : Dev) (slot : Nat) (x : Decision) : Dev :=
  d.modTraining (fun t => { t with table := tmod [] t.table slot (fun l => addDecision l x) })

def Dev.logRestored (d : Dev) (part nextA nextB : Nat) (ds : List (Nat × Decision)) : Dev :=
  let d := d.modTrain part (fun t => { t with log := t.log.map (fun l => { l with nextA := nextA, nextB := nextB }) })
  let d := ds.foldl (fun d x => d.recordDecision (groupSlot part x.1) x.2) d
  let done (r : Recovery) : Recovery := if r.part = part then { r with logDone := true } else r
  d.modTraining (fun t => { t with recovery := t.recovery.map done })

/-! ### LOG_MARK (R490, R492, R525) -/

/-- R490: a ring in DDR5 data pages of one die. -/
def Dev.ringOk (d : Dev) (part die va pages : Nat) : Bool :=
  (piecesOf va (pages * pageBytes)).all (fun p => decide (p.1 < 2 ^ 48) &&
    (match (d.part part).lookup p.1 with
      | some (e, pa) => decide (e.kind = .data) && (match tierOf pa with
        | some (.ddr, k) => k % 2 == die
        | _ => false)
      | none => false))

def logConfigOk (baseA baseB pagesA pagesB : Nat) (rsv : Bool) : Bool :=
  rsv && vaOk baseA && vaOk baseB && decide (1 ≤ pagesA) && decide (pagesA ≤ 4096) && decide (1 ≤ pagesB) && decide (pagesB ≤ 4096)

def runLogConfig (part baseA baseB pagesA pagesB : Nat) : Run Counts := do
  let d ← getDev
  require ((d.trainOf part).log.isNone) stInUse
  require (d.ringOk part 0 baseA pagesA && d.ringOk part 1 baseB pagesB) stBadParam
  hold (.train (.logConfig part ⟨baseA, baseB, pagesA, pagesB, 0, 0, false, [], none⟩))
  return okCounts (ringEntries pagesA) (ringEntries pagesB) 0

def runMark (part step cursor : Nat) (digest : List Byte) : Run Counts := do
  require (((← getDev).trainOf part).log.isSome) stBadParam
  hold (.train (.mark part step cursor digest))
  return okCounts 0 0 0

def Dev.mark (d : Dev) (part step cursor : Nat) (digest : List Byte) : Dev :=
  let d := d.logAdd part 0 step 0x01 (leBytes 8 cursor ++ digest)
  d.modTrain part (fun t => { t with log := t.log.map (fun l => { l with mark := some (step, cursor) }) })

/-! ### SPARE_FILL (R518, R526) -/

def spareOk (part position : Nat) (rsv : Bool) : Bool := rsv && decide (part < 14) && decide (position < 4096)

/-- TEACHER_OK: the configured region's digest is the manifest's. -/
def Dev.teacherOk (d : Dev) (r : Recovery) : Bool :=
  match (d.trainOf r.part).snap, r.teacher with
  | some s, some t => decide (d.teacherOf s = t)
  | _, _ => false

def runSpareBegin (part position gen : Nat) : Run Counts := do
  require ((← getDev).train.recovery.isNone) stInUse
  hold (.train (.recoveryOpen ⟨part, position, gen, false, false, none⟩))
  return okCounts position (gen % 2 ^ 32) 0

def runSpareEnd (part position : Nat) : Run Counts := do
  let d ← getDev
  match d.train.recovery with
  | none => failWith stBadManifest
  | some r => do
    require (r.part == part && r.position == position && r.stateDone && r.logDone && d.teacherOk r) stBadManifest
    hold (.train .recoveryClosed)
    return okCounts position (r.gen % 2 ^ 32) 0

def runSpareAbandon (position : Nat) : Run Counts := do
  let gen := (((← getDev).train.recovery).map (·.gen)).getD 0
  hold (.train .recoveryClosed)
  return okCounts position (gen % 2 ^ 32) 0

/-! ### The commands -/

def doStore (d : Dev) (c : CmdRef) : Dev :=
  d.onPacket c (fun e => match e.payload with
    | .snapStore i source srcPart hostPart slotBytes a b _ =>
      d.runClaimed c e (runStore (d.queue e.hdr.queue).part i source srcPart hostPart slotBytes a b)
    | _ => d)

/-- A command that has asked others waits for their answers. -/
def Dev.asking (d : Dev) (c : CmdRef) : Dev :=
  d.modEntry c (fun e => { e with issued := true, phase := .running (.coll true [] (Result.failed stOk 0 e.ce)) })

/-- A command asks a buddy, and waits for its answer; a port that is down on the path ends it (R529). -/
def Dev.askBuddies (d : Dev) (c : CmdRef) (e : Entry) (asks : List (Nat × MsgBody)) : Dev :=
  if !asks.all (fun a => d.routeOk a.1) then d.refuse c e stLinkDown
  else asks.foldl (fun d a => d.sendMsg (some c) a.1 a.2) (d.asking c)

/-- The read that a buddy's message answers. -/
def readOf : MsgBody → Option Nat
  | .snapData r _ => some r
  | .logData r _ _ => some r
  | .storeData r _ => some r
  | _ => none

/-- A buddy's answer reaches the command that asked it and still waits: the command goes on with what it had, and the answer. -/
def Dev.onAnswer (d : Dev) (c : CmdRef) (m : Message) (f : Dev → Entry → List Byte → Dev) : Dev :=
  match d.entry c, (readOf m.body).bind d.sentMsg with
  | some e, some s =>
    if s.cmd = some c ∧ s.msg.dst = m.src then
      match e.phase with
      | .running (.coll true own _) => f (d.settled s.msg.id) e own
      | _ => d
    else d
  | _, _ => d

/-- R523: CONFIG asks both buddies for the slot sizes of their stores. DESIGN CHOICE (log entry 97): that is how it learns them. -/
def doSnapConfig (d : Dev) (c : CmdRef) (a : Option Message) : Dev :=
  match a with
  | none =>
    d.onPacket c (fun e => match e.payload with
      | .snapConfig x =>
        if !d.buddiesOk x then d.refuse c e stBadParam
        else d.askBuddies c e [(x.buddy0, .storeRead x.store0), (x.buddy1, .storeRead x.store1)]
      | _ => d)
  | some m =>
    d.onAnswer c m (fun d e own => match e.payload, m.body with
      | .snapConfig x, .storeData _ n =>
        if own.isEmpty then
          d.modEntry c (fun e => { e with phase := .running (.coll true (leBytes 8 n) (Result.failed stOk 0 e.ce)) })
        else if m.src = x.buddy1 then d.runClaimed c e (runSnapConfig e.hdr.part x (leAt own 0 8) n)
        else d.runClaimed c e (runSnapConfig e.hdr.part x n (leAt own 0 8))
      | _, _ => d)

def doTake (d : Dev) (c : CmdRef) : Dev :=
  d.onPacket c (fun e => match e.payload with
    | .snapTake n _ => if d.takeRuns e.hdr.part c then d else d.takeFor c e e.hdr.part n []
    | _ => d)

/-- R519, R520: RESTORE STATE reads the slot of its generation from the named buddy's store. -/
def doRestoreState (d : Dev) (c : CmdRef) (a : Option Message) : Dev :=
  match a with
  | none =>
    d.onPacket c (fun e => match e.payload with
      | .restoreState store buddy _ gen _ _ _ _ => d.askBuddies c e [(buddy, .snapRead store (gen % 4))]
      | _ => d)
  | some m =>
    d.onAnswer c m (fun d e _ => match e.payload, m.body with
      | .restoreState _ _ position gen job epoch cursor _, .snapData _ slot =>
        d.run c e (runRestoreState e.hdr.part position gen job epoch cursor slot)
      | _, _ => d)

/-- R521: RESTORE LOG reads the two mirrors from the named buddy's store. -/
def doRestoreLog (d : Dev) (c : CmdRef) (a : Option Message) : Dev :=
  match a with
  | none =>
    d.onPacket c (fun e => match e.payload with
      | .restoreLog store buddy _ _ _ => d.askBuddies c e [(buddy, .logRead store)]
      | _ => d)
  | some m =>
    d.onAnswer c m (fun d e _ => match e.payload, m.body with
      | .restoreLog _ _ _ _ _, .logData _ x y => d.run c e (runRestoreLog e.hdr.part x y)
      | _, _ => d)

def doLogMarkConfig (d : Dev) (c : CmdRef) : Dev :=
  d.onPacket c (fun e => match e.payload with
    | .logConfig a b pa pb _ => d.runClaimed c e (runLogConfig e.hdr.part a b pa pb)
    | _ => d)

def doMark (d : Dev) (c : CmdRef) : Dev :=
  d.onPacket c (fun e => match e.payload with
    | .logMark step cursor digest _ => d.run c e (runMark e.hdr.part step cursor digest)
    | _ => d)

def doBegin (d : Dev) (c : CmdRef) : Dev :=
  d.onPacket c (fun e => match e.payload with
    | .spareBegin part position gen _ => d.runClaimed c e (runSpareBegin part position gen)
    | _ => d)

def doEnd (d : Dev) (c : CmdRef) : Dev :=
  d.onPacket c (fun e => match e.payload with
    | .spareEnd part position _ => d.runClaimed c e (runSpareEnd part position)
    | _ => d)

def doAbandon (d : Dev) (c : CmdRef) : Dev :=
  d.onPacket c (fun e => match e.payload with
    | .spareAbandon _ position _ => d.runClaimed c e (runSpareAbandon position)
    | _ => d)

end Sys2Proof.Machine
end

