-- ==== Sys2Proof/Machine/StepCommit.lean ====
section
/-! DEFINITION. The step commit (R510 to R516) and the securing of log entries (R495, R512). -/

namespace Sys2Proof.Machine

/-! ### A member's vote (R510) -/

/-- The last TRD_UPDATE of a partition on a die; its status is none while it has not completed. -/
def Dev.lastUpdate (d : Dev) (part die : Nat) : Option (Nat × Nat × Option Nat) :=
  let stored := match tfind d.train.last (2 * part + die) with
    | some u => [(u.order, u.step, some u.status)]
    | none => []
  let live := d.live.filterMap (fun x => match x.2.payload with
    | .trdUpdate p =>
      if x.2.hdr.part = part ∧ x.2.hdr.unit = die ∧ !x.2.isWaiting then
        some (x.2.order, p.step, match x.2.phase with
          | .done r => some r.status
          | _ => none)
      else none
    | _ => none)
  (stored ++ live).foldl (fun acc u => match acc with
    | some a => if a.1 ≤ u.1 then some u else some a
    | none => some u) none

/-- R510: a member's vote for step c, the securing of its entries aside. -/
def Dev.voteFor (d : Dev) (part dieMask c : Nat) : Nat :=
  let dies := (List.range 2).filter (fun k => bit dieMask k)
  let all (st : Nat) : Bool := dies.all (fun k => match d.lastUpdate part k with
    | some (_, s, some r) => s == c && r == st
    | _ => false)
  if ((d.trainOf part).log.map (·.overrun)).getD false then 2
  else if all stSkipped then 1
  else if all stOk then 0
  else 2

/-! ### What a waiting vote keeps -/

/-- A VOTE in progress: its code, its attempt, its stage (0 its entries are being secured, 1 it votes, 2 the root secures its
decision, 3 the root's entry was dropped), the tick of its issue or of the root's decision, the lsns below which (stage 0),
or the lsn of which (stage 2), an entry must be secured; `ready` on the root when the tree result is complete. -/
structure VoteWait where
  code : Nat
  attempt : Nat
  stage : Nat
  tick : Nat
  lsnA : Nat
  lsnB : Nat
  ready : Bool
  deriving DecidableEq, Repr

def VoteWait.bytes (v : VoteWait) : List Byte :=
  leBytes 1 v.code ++ leBytes 1 v.attempt ++ leBytes 1 v.stage ++ leBytes 8 v.tick ++ leBytes 8 v.lsnA ++ leBytes 8 v.lsnB ++
    (if v.ready then [1] else [])

def parseVoteWait (b : List Byte) : VoteWait :=
  ⟨byteAt b 0, byteAt b 1, byteAt b 2, leAt b 3 8, leAt b 11 8, leAt b 19 8, decide (27 < b.length)⟩

/-- A waiting VOTE and its state. -/
def Dev.voteOf (d : Dev) (c : CmdRef) : Option (Entry × VoteWait) :=
  match d.entry c with
  | some e =>
    match e.payload, e.coll with
    | .stepVote _ _ _ _ _ _, some (_, own) => some (e, parseVoteWait own)
    | _, _ => none
  | none => none

def Dev.setVote (d : Dev) (c : CmdRef) (sent : Bool) (v : VoteWait) : Dev := d.modEntry c (fun e => e.setColl sent v.bytes)

/-- The step, the group and the window of a VOTE. -/
def voteParams (e : Entry) : Nat × Nat × Nat :=
  match e.payload with
  | .stepVote _ _ step group window _ => (step, group, window)
  | _ => (0, 0, 0)

def decisionBody (group attempt code : Nat) (root : Bool) : List Byte :=
  leBytes 2 group ++ leBytes 1 attempt ++ leBytes 1 code ++ leBytes 1 (if root then 1 else 0)

/-! ### How a step ends on a member (R426, R513) -/

/-- R513: an applied or skipped step: BOB_STEP_n, the lsns, and every context of the partition at that step. -/
def Dev.stepDecided (d : Dev) (part group step attempt code : Nat) (entry : Bool) : Dev :=
  let root := ((d.groupOf part group).map (fun g => g.2 == 0)).getD false
  let d := if entry then d.logAdd part 0 step 0x07 (decisionBody group attempt code root) else d
  let d := d.modTrain part (fun t =>
    { t with step := step, lsnA := (t.log.map (·.nextA)).getD 0, lsnB := (t.log.map (·.nextB)).getD 0 })
  ((d.xch.filter (fun kv => kv.2.part == part && kv.2.step == step)).map (·.1)).foldl (fun d ctx => d.advanceCtx (code == 0) ctx) d

def decisionStatus (code : Nat) : Nat :=
  match code with
  | 0 => stOk
  | 1 => stSkipped
  | 2 => stStepReverted
  | _ => stOk

/-- A VOTE ends with a decision. -/
def Dev.endVote (d : Dev) (e : Entry) (code attempt members : Nat) (entry : Bool) : Dev :=
  let (step, group, _) := voteParams e
  let part := e.hdr.part
  let (n, d) := d.spend e
  let root := ((d.groupOf part group).map (fun g => g.2 == 0)).getD false
  let d := d.dropVals group (.vote step attempt)
  if code = 2 then
    let d := d.logAdd part 0 step 0x07 (decisionBody group attempt 2 root)
    (d.modTrain part Train.clearOverrun).setPhase e.ref (.done (Result.failed stStepReverted n e.ce))
  else
    d.setPhase e.ref (.ran { Result.failed (decisionStatus code) n e.ce with
      c0 := code, c1 := attempt, c2 := members
      effects := [.train (.decided part group step attempt code entry)] })

/-- A decision goes down the tree. -/
def Dev.sendDecision (d : Dev) (e : Entry) (code attempt : Nat) : Dev :=
  let (step, group, _) := voteParams e
  match d.groupOf e.hdr.part group with
  | some (ms, pos) => (treeKids pos ms.length).foldl (fun d k => d.answer (memberAt ms k) (.decision group step attempt code)) d
  | none => d

def Dev.groupSize (d : Dev) (part group : Nat) : Nat := ((d.groupOf part group).map (fun g => g.1.length)).getD 0

/-- The root's decision takes hold: it is recorded, sent, and ends the root's own command. -/
def Dev.rootDecides (d : Dev) (e : Entry) (v : VoteWait) (code : Nat) (entry : Bool) : Dev :=
  let (step, group, _) := voteParams e
  let d := d.recordDecision (groupSlot e.hdr.part group) ⟨step, v.attempt, code, false⟩
  (d.sendDecision e code v.attempt).endVote e code v.attempt (d.groupSize e.hdr.part group) entry

/-- Whether a decision stands for an attempt of a step: it does not change within the attempt, and a step that is run again after a
RESTORE STATE before it is decided anew (DEDUCED, log entry 165). -/
def Decision.standsFor (x : Decision) (step attempt : Nat) : Bool := x.step == step && x.attempt == attempt && !x.past

/-! ### The commands -/

/-- Whether every entry of a partition below the given lsns is secured. -/
def TrainLog.securedBelow (l : TrainLog) (a b : Nat) : Bool :=
  l.unsecured.all (fun u => if u.share = 0 then decide (a ≤ u.lsn) else decide (b ≤ u.lsn))

def stepVoteOk (window : Nat) (rsv : Bool) : Bool := rsv && decide (1 ≤ window)

/-- R510 to R512: a VOTE starts; it waits for its entries, then votes. -/
def doVote (d : Dev) (c : CmdRef) : Dev :=
  d.onPacket c (fun e => match e.payload with
    | .stepVote attempt dieMask step group _ _ =>
      let part := e.hdr.part
      let t := d.trainOf part
      (match d.groupOf part group with
        | none => d.refuse c e stBadParam
        | some (ms, pos) =>
          if step ≠ nextStep t.step then d.refuse c e stBadParam
          else if pos ≠ 0 ∧ !d.routeOk (memberAt ms (treeParent pos)) then d.refuse c e stLinkDown
          else
            let code := d.voteFor part dieMask step
            let (na, nb) := ((t.log.map (fun l => (l.nextA, l.nextB))).getD (0, 0))
            let secured := ((t.log.map (fun l => l.securedBelow na nb)).getD true)
            let now := d.tickAt 16
            let stage := if secured ∨ code = 2 then 1 else 0
            let d := d.modEntry c (fun e =>
              { e with issued := true,
                       phase := .running (.coll (stage == 0) (VoteWait.bytes ⟨code, attempt, stage, now, na, nb, false⟩)
                         (Result.failed stOk 0 e.ce)) })
            match (tget [] d.train.table (groupSlot part group)).find? (fun x => x.standsFor step attempt) with
            | some x =>
              if pos = 0 then (d.sendDecision e x.code attempt).endVote e x.code attempt ms.length true
              else d.advance part group (.vote step attempt)
            | none => d.advance part group (.vote step attempt))
    | _ => d)

/-- R512: the root decides when the tree result is complete; APPLY and SKIP wait until the entry is secured. -/
def doCommitDecide (d : Dev) (c : CmdRef) : Dev :=
  match d.voteOf c with
  | some (e, v) =>
    if v.ready ∧ v.stage = 1 then
      if v.code = 2 then d.rootDecides e v 2 false
      else
        let (step, group, _) := voteParams e
        let part := e.hdr.part
        let room := (d.trainOf part).room 0
        let lsn := (((d.trainOf part).log.map (·.nextA)).getD 0)
        let d := d.logAdd part 0 step 0x07 (decisionBody group v.attempt v.code true)
        d.setVote c true { v with stage := if room then 2 else 3, tick := d.tickAt 16, lsnA := lsn }
    else d
  | none => d

/-- R512: the window passes before the tree result is complete. -/
def doCommitWindowExpire (d : Dev) (c : CmdRef) : Dev :=
  match d.voteOf c with
  | some (e, v) =>
    let (_, group, window) := voteParams e
    if ((d.groupOf e.hdr.part group).map (fun g => g.2 == 0)).getD false ∧ v.stage ≤ 1 ∧ !v.ready ∧ v.tick + window < d.tickAt 16 then
      d.rootDecides e v 2 false
    else d
  | none => d

/-- R510, R512: an entry is not secured in time. -/
def doUnsecuredTimeout (d : Dev) (c : CmdRef) : Dev :=
  match d.voteOf c with
  | some (e, v) =>
    let (step, group, window) := voteParams e
    if v.tick + window < d.tickAt 16 then
      if v.stage = 0 then
        (d.setVote c false { v with code := 2, stage := 1 }).advance e.hdr.part group (.vote step v.attempt)
      else if 2 ≤ v.stage then d.rootDecides e v 2 false
      else d
    else d
  | none => d

/-- What an entry's securing lets go on: a vote whose entries are secured, a root whose decision is. -/
def Dev.voteGoesOn (d : Dev) (part : Nat) (c : CmdRef) : Dev :=
  match d.voteOf c, (d.trainOf part).log with
  | some (e, v), some l =>
    let (step, group, _) := voteParams e
    if v.stage = 0 ∧ l.securedBelow v.lsnA v.lsnB then
      (d.setVote c false { v with stage := 1 }).advance part group (.vote step v.attempt)
    else if v.stage = 2 ∧ !l.unsecured.any (fun u => u.share == 0 && u.lsn == v.lsnA) then d.rootDecides e v v.code false
    else d
  | _, _ => d

/-- R495: both buddies have acknowledged an entry. -/
def doLogEntrySecured (d : Dev) (part share lsn : Nat) : Dev :=
  let gone (l : TrainLog) : TrainLog := { l with unsecured := l.unsecured.filter (fun u => !(u.share == share && u.lsn == lsn)) }
  let d := d.modTrain part (fun t => { t with log := t.log.map gone })
  let votes := (d.live.map (·.2)).filter (fun e => e.hdr.part == part && (d.voteOf e.ref).isSome)
  votes.foldl (fun d e => d.voteGoesOn part e.ref) d

/-- A QUERY's answer takes hold (R515). -/
def Dev.answerQuery (d : Dev) (e : Entry) (step group attempt code : Nat) : Dev :=
  let part := e.hdr.part
  let (n, d) := d.spend e
  if code = 2 then d.setPhase e.ref (.done (Result.failed stStepReverted n e.ce))
  else
    let due := decide (code ≤ 1) && decide (nextStep (d.trainOf part).step = step)
    d.setPhase e.ref (.ran { Result.failed (decisionStatus code) n e.ce with
      c0 := code, c1 := attempt, c2 := d.groupSize part group
      effects := if due then [.train (.decided part group step attempt code true)] else [] })

/-- R514, R515: what the root's commit table says of a step. -/
def Dev.tableSays (d : Dev) (slot step : Nat) : Nat × Nat :=
  match ((tget [] d.train.table slot).filter (fun x => x.step == step)).getLast? with
  | some x => (x.attempt, x.code)
  | none => (0, 3)

def doQuery (d : Dev) (c : CmdRef) : Dev :=
  d.onPacket c (fun e => match e.payload with
    | .stepQuery _ step group _ _ =>
      (match d.groupOf e.hdr.part group with
        | none => d.refuse c e stBadParam
        | some (ms, pos) =>
          if pos = 0 then
            let (a, k) := d.tableSays (groupSlot e.hdr.part group) step
            d.answerQuery e step group a k
          else if !d.routeOk (memberAt ms 0) then d.refuse c e stLinkDown
          else
            (d.asking c).sendMsg (some c) (memberAt ms 0) (.query group step))
    | _ => d)

/-- R515: a QUERY arrives at the root. -/
def doCommitTableQuery (d : Dev) (src group step : Nat) : Dev :=
  match tfind d.links.groups group with
  | some g =>
    if g.pos = 0 ∧ g.members.any (fun m => m.device == src) then
      let (a, k) := d.tableSays group step
      d.answer src (.queryAnswer group step a k)
    else d
  | none => d

/-- A QUERY that is answered waits for nothing more. -/
def Dev.answered (d : Dev) (c : CmdRef) : Dev := d.modLinks (fun l => { l with sent := l.sent.filter (fun s => s.cmd != some c) })

/-- R513: a decision, or the answer to a QUERY, reaches a member. -/
def Dev.decisionFor (d : Dev) (group step attempt code : Nat) (e : Entry) : Dev :=
  match e.payload, e.coll with
  | .stepVote a _ s g _ _, some _ =>
    if s = step ∧ g = group ∧ a = attempt ∧ code ≤ 2 ∧ ((d.groupOf e.hdr.part group).map (fun x => x.2 != 0)).getD false then
      (d.sendDecision e code attempt).endVote e code attempt (d.groupSize e.hdr.part group) true
    else d
  | .stepQuery _ s g _ _, some _ => if s = step ∧ g = group then (d.answered e.ref).answerQuery e step group attempt code else d
  | _, _ => d

def doDecisionArrive (d : Dev) (group step attempt code : Nat) : Dev :=
  (d.live.map (·.2)).foldl (fun d e => d.decisionFor group step attempt code e) d

/-- R512, R587: a group message; a vote that reaches a root after its decision is answered with it. -/
def doGroupMessageArrive (d : Dev) (m : Message) : Dev :=
  match m.body with
  | .groupVal group digest (.vote step attempt) _ true _ =>
    (match tfind d.links.groups group, (tget [] d.train.table group).find? (fun x => x.standsFor step attempt) with
      | some g, some x =>
        if g.pos = 0 ∧ g.digest = digest then (d.ackMsg m).answer m.src (.decision group step attempt x.code)
        else doGroupMessage d m
      | _, _ => doGroupMessage d m)
  | _ => doGroupMessage d m

end Sys2Proof.Machine
end

