-- ==== Sys2Proof/Machine/Links.lean ====
section
/-! DEFINITION. The link commands and the links (chapter 14): routes, groups, writes and signals across devices,
acknowledgements and losses, flits, retrains, ports, the host path and its interrupts. -/

namespace Sys2Proof.Machine

/-! ### Routes (R578, R581) -/

def routeSetOk (runs : List (Nat × Nat × Nat)) (rsv : Bool) : Bool :=
  rsv && runs.all (fun r => decide (1 ≤ r.2.1) && decide (r.2.1 ≤ 16384) && decide (r.1 + r.2.1 ≤ 16384) && r.2.2 / 8 % 4096 == 0)

/-- The entries that runs write, the last write of each. -/
def routeEntries (runs : List (Nat × Nat × Nat)) : Tbl Nat :=
  runs.foldl (fun t r => (List.range r.2.1).foldl (fun t i => tins t (r.1 + i) r.2.2) t) []

/-- The destinations whose entry changes. -/
def Dev.routeChanges (d : Dev) (runs : List (Nat × Nat × Nat)) : List (Nat × Nat) :=
  (routeEntries runs).filter (fun kv => d.route kv.1 != kv.2)

def runRouteSet (runs : List (Nat × Nat × Nat)) : Run Counts := do
  let d ← getDev
  hold (.link (.routes runs))
  return okCounts (runs.map (·.2.1)).sum (d.routeChanges runs).length 0

/-- The outstanding messages of this device to a destination. -/
def Dev.outstanding (d : Dev) (dst : Nat) : List Nat := (d.links.sent.filter (fun s => s.msg.dst == dst)).map (·.msg.id)

/-- R581: the commit of a ROUTE_SET. -/
def Dev.setRoutes (d : Dev) (runs : List (Nat × Nat × Nat)) : Dev :=
  (d.routeChanges runs).foldl (fun d kv =>
    let wait := d.outstanding kv.1
    d.modLinks (fun l =>
      { l with routes := tput 0 l.routes kv.1 kv.2, holds := if wait.isEmpty then l.holds else tins l.holds kv.1 wait })) d

/-- A held message leaves. -/
def Dev.letHeldGo (d : Dev) (m : Held) : Dev :=
  (if m.answer then d else d.modLinks (fun l => { l with sent := l.sent ++ [⟨m.msg, m.cmd, d.clk.tick, false⟩] })).leave m.msg 0

/-- R581: held messages go when every earlier message to their destination is acknowledged or lost. -/
def doRouteHoldRelease (d : Dev) (dst : Nat) : Dev :=
  match tfind d.links.holds dst with
  | none => d
  | some ids =>
    if d.links.sent.any (fun s => ids.contains s.msg.id) then d
    else
      let go := d.links.heldMsgs.filter (fun m => m.msg.dst == dst)
      let d := d.modLinks (fun l =>
        { l with holds := terase l.holds dst, heldMsgs := l.heldMsgs.filter (fun m => m.msg.dst != dst) })
      go.foldl Dev.letHeldGo d

/-! ### Groups (R583 to R585) -/

def groupDeclareOk (group n listVa : Nat) (rsv : Bool) : Bool :=
  rsv && decide (group < 65535) && decide (1 ≤ n) && decide (n ≤ 4096) && vaOk listVa

def parseMember (b : List Byte) (i : Nat) : GroupMember × Bool :=
  (⟨leAt b (8 * i) 2, byteAt b (8 * i + 2), leAt b (8 * i + 4) 4⟩, zeroAt b (8 * i + 3) 1)

/-- R584. -/
def groupDigest (group : Nat) (list : List Byte) : Nat := leAt (shake256 4 (leBytes 2 group ++ list)) 0 4

/-- Whether a command names a group. -/
def Dev.namesGroup (d : Dev) (e : Entry) (g : Nat) : Bool :=
  (d.collOf e).any (fun x => x.1 == g) ||
    (match e.payload with
      | .linkWrite k _ _ _ _ _ => k == g
      | .linkSignal k _ _ _ _ => k == g
      | .stepQuery _ _ k _ _ => k == g
      | .wickDesc x => x.group == g
      | .xchConfig x => x.group == g
      | .xchSend ctx _ _ => (d.xchOf ctx).any (fun x => x.cfg.group == g)
      | .stepWait ctx _ _ _ _ => (d.xchOf ctx).any (fun x => x.cfg.group == g)
      | .snapConfig x => x.group == g
      | _ => false)

/-- R585: whether a dispatched command other than this one names a group. -/
def Dev.groupInUse (d : Dev) (c : CmdRef) (g : Nat) : Bool :=
  d.live.any (fun x => x.2.ref != c && x.2.inFlight && d.namesGroup x.2 g)

def runGroupDeclare (part group n listVa : Nat) : Run Counts := do
  let c ← get
  let d := c.dev
  let old := tfind d.links.groups group
  require (!old.any (fun g => g.part != part)) stInUse
  let b ← readIn accPlain part listVa (8 * n)
  let ms := (List.range n).map (parseMember b)
  let devs := ms.map (·.1.device)
  require (ms.all (fun m => m.2 && decide (m.1.part < 14) && decide (m.1.device < 16384)) && decide (nodupNat devs = devs) &&
    devs.contains d.links.devNum) stBadParam
  require (old.isSome || decide (d.links.groups.length < 256)) stQuota
  require (!(old.isSome && d.groupInUse c.cmd group)) stInUse
  let pos := (devs.findIdx? (· == d.links.devNum)).getD 0
  let dig := groupDigest group b
  hold (.link (.group group ⟨part, ms.map (·.1), pos, dig⟩))
  return okCounts n dig pos

def runGroupRemove (part group : Nat) : Run Counts := do
  let c ← get
  match tfind c.dev.links.groups group with
  | none => failWith stBadParam
  | some g => do
    require (g.part == part) stBadParam
    require (!c.dev.groupInUse c.cmd group) stInUse
    hold (.link (.groupGone group))
    return okCounts g.members.length g.digest g.pos

/-! ### Writes and signals (R591 to R593) -/

def linkWriteOk (position n dstVa : Nat) (src : Desc) (rsv : Bool) : Bool :=
  rsv && decide (position < 4096) && n % 64 == 0 && decide (64 ≤ n) && decide (n ≤ 268435456) && dstVa % 64 == 0 && vaOk dstVa &&
    src.ok false false false

def linkSignalOk (position tok : Nat) (rsv : Bool) : Bool := rsv && decide (position < 4096) && decide (tok < 64)

/-- The hops to a device: none to itself, else a number that the device's tables do not give. -/
def Dev.hopsTo (d : Dev) (dst : Nat) : Nat := if dst = d.links.devNum then 0 else Config.hops dst

/-- A member named by position. -/
def memberOf (part group position : Nat) : Run GroupMember := do
  match (← getDev).groupOf part group with
  | none => failWith stBadParam
  | some (ms, _) =>
    match ms[position]? with
    | some m => return m
    | none => failWith stBadParam

def runLinkWrite (part group position n dstVa : Nat) (src : Desc) : Run (Counts × List (Nat × MsgBody)) := do
  let m ← memberOf part group position
  let d ← getDev
  require (d.routeOk m.device) stLinkDown
  let data ← readVa accMover src.va n
  return (okCounts n (d.hopsTo m.device) 0, [(m.device, .linkData group m.part dstVa d.links.nextMsg data)])

def runLinkSignal (part group position tok val : Nat) : Run (Counts × List (Nat × MsgBody)) := do
  let m ← memberOf part group position
  let d ← getDev
  require (d.routeOk m.device) stLinkDown
  return (okCounts (d.hopsTo m.device) 0 0, [(m.device, .signal group m.part tok val)])

/-- R592: whether this device's declaration of a group lists a sender, for a partition of its own. -/
def Dev.groupLists (d : Dev) (group src part : Nat) : Bool :=
  (tfind d.links.groups group).any (fun g => g.part == part && g.members.any (fun m => m.device == src))

/-- R592: the pages that a LINK_WRITE may reach; the status that refuses it. -/
def Dev.linkPieces (d : Dev) (part va : Nat) (data : List Byte) : Except Nat (List (Nat × List Byte)) :=
  (piecesOf va data.length).foldl (fun acc p =>
    match acc with
    | .error s => .error s
    | .ok l =>
      match (d.part part).lookup p.1 with
      | none => .error stXlateFault
      | some (e, pa) =>
        match e.kind with
        | .data => if d.mem.isSealed pa then .error stSealedAccess else .ok (l ++ [(pa, slice data (p.1 - va) p.2)])
        | .sealed _ => .error stSealedAccess
        | _ => .error stXlateFault) (.ok [])

/-- R591, R592: data of a LINK_WRITE arrive and are kept as shadows. -/
def doLinkWriteData (d : Dev) (m : Message) : Dev :=
  match m.body with
  | .linkData group part va xfer data =>
    if !d.groupLists group m.src part then d.answer m.src (.refused m.id stXlateFault)
    else
      match d.linkPieces part va data with
      | .error s => d.answer m.src (.refused m.id s)
      | .ok _ => (d.modLinks (fun k => { k with shadow := k.shadow ++ [⟨m.src, xfer, part, va, data⟩] })).ackMsg m
  | _ => d

/-- R559: the TAKE of a RECLAIM fails, and the RECLAIM goes on with its status. -/
def Entry.takeFailed (e : Entry) (status : Nat) : Entry :=
  match e.phase with
  | .running (.coll _ own r) =>
    { e with phase := .running (.stage 3 { r with c1 := leAt own 0 4, c2 := status, effects := [] }) }
  | _ => e

/-- The command of a message fails. -/
def Dev.failSender (d : Dev) (msg status : Nat) : Dev :=
  match d.sentMsg msg with
  | none => d
  | some s =>
    let d := d.settled msg
    match s.cmd.bind d.entry with
    | some e =>
      if !e.inFlight then d
      else
        match e.payload with
        | .reclaim _ _ _ => d.modEntry e.ref (fun e => e.takeFailed status)
        | _ => d.failEntry e.ref e ⟨status, none, none⟩ e.runCycles
    | none => d

/-- R268, R592: where a transfer's shadows land now, and the bytes for each place; a page that a mapping command has taken
away or sealed meanwhile refuses them, as does a sector with an uncorrectable error that they cover in part. -/
def Dev.landing (d : Dev) (ss : List Shadow) : Except Nat (List (Nat × List Byte)) :=
  match ss.foldl (fun acc s => match acc, d.linkPieces s.part s.va s.data with
      | .ok l, .ok k => Except.ok (l ++ k)
      | .error e, _ => .error e
      | _, .error e => .error e) (Except.ok []) with
  | .error e => .error e
  | .ok l => if (d.partialUe (l.map (fun p => .mem p.1 p.2))).isSome then .error stUncorrectable else .ok l

/-- R591: the sender's commit message publishes its shadows. -/
def Dev.landShadows (d : Dev) (m : Message) (xfer : Nat) : Dev :=
  let mine (s : Shadow) : Bool := s.src == m.src && s.xfer == xfer
  let drop (d : Dev) : Dev := d.modLinks (fun l => { l with shadow := l.shadow.filter (fun s => !mine s) })
  match d.landing (d.links.shadow.filter mine) with
  | .ok l => (drop (l.foldl (fun d p => d.poke false p.1 p.2) (d.keepOld none (l.map (fun p => (p.1, p.2.length)))))).ackMsg m
  | .error s => (drop d).answer m.src (.refused m.id s)

/-- R591, R593: a commit message publishes a write's shadows; a signal sets a token; a refusal fails the sender. -/
def doCommitMessage (d : Dev) (m : Message) : Dev :=
  match m.body with
  | .commitMsg _ _ xfer => d.landShadows m xfer
  | .signal group part tok val =>
    if d.groupLists group m.src part then (d.signal part tok val).ackMsg m else d.answer m.src (.refused m.id stXlateFault)
  | .refused msg status => d.failSender msg status
  | _ => d

/-! ### Acknowledgements and losses (R579) -/

/-- A command whose messages are all acknowledged reaches its end. -/
def Dev.sendingDone (d : Dev) (c : CmdRef) : Dev :=
  if d.awaits c then d
  else d.modEntry c (fun e =>
    match e.payload, e.phase with
    | .reclaim _ _ _, _ => e
    | .wickMerge _ _ _ _, _ => e
    | .trdNorm _ _ _ _ _ _ _ _, _ => e
    | .chainReduce _ _ _ _ _ _ _ _ _ _ _, _ => e
    | .stepVote _ _ _ _ _ _, _ => e
    | .stepQuery _ _ _ _ _, _ => e
    | .snapConfig _, _ => e
    | .restoreState _ _ _ _ _ _ _ _, _ => e
    | .restoreLog _ _ _ _ _, _ => e
    | _, .running (.coll true _ r) => { e with phase := .ran r }
    | _, _ => e)

/-- R428: a SEND whose contributions have all arrived sends its commit message to every other owner. -/
def Dev.sendCommits (d : Dev) (c : CmdRef) : Dev :=
  if d.awaits c then d
  else
    match d.entry c with
    | none => d
    | some e =>
      match e.payload with
      | .xchSend ctx step _ =>
        (match d.xchOf ctx with
          | none => d
          | some x =>
            match d.groupOf e.hdr.part x.cfg.group with
            | none => d
            | some (ms, pos) =>
              ((List.range ms.length).filter (· != pos)).foldl (fun d p =>
                d.sendMsg (some c) (memberAt ms p) (.contribCommit x.cfg.group ctx step pos)) d)
      | _ => d

def doEndToEndAck (d : Dev) (msg : Nat) : Dev :=
  match d.sentMsg msg with
  | none => d
  | some s =>
    let d := d.settled msg
    match s.cmd with
    | none =>
      (match s.msg.body with
        | .hostWrite _ _ => d.toHost s.msg.body
        | _ => d)
    | some c =>
      let sending := (d.entry c).any (fun e => e.coll.isSome)
      match s.msg.body with
      | .linkData group part _ xfer _ => if sending then d.sendMsg (some c) s.msg.dst (.commitMsg group part xfer) else d
      | .contrib _ _ _ _ _ => if sending then d.sendCommits c else d
      | _ => d.sendingDone c

/-- The status of a command whose message is lost: a lost owner, buddy or root is a lost peer (R444, R514, R529). -/
def lostStatus (b : MsgBody) : Nat :=
  match b with
  | .contrib _ _ _ _ _ => stPeerLost
  | .contribCommit _ _ _ _ => stPeerLost
  | .snapWrite _ _ _ _ => stPeerLost
  | .snapRead _ _ => stPeerLost
  | .logRead _ => stPeerLost
  | .storeRead _ => stPeerLost
  | .query _ _ => stPeerLost
  | .groupVal _ _ (.vote _ _) _ _ _ => stPeerLost
  | _ => stLinkDown

/-- R579: an unreachable notice. -/
def doUnreachable (d : Dev) (msg : Nat) : Dev :=
  match d.sentMsg msg with
  | none => d
  | some s =>
    if isHostBound s.msg.body then d.hostLost s.msg
    else d.failSender msg (match s.msg.body with
      | .groupVal _ _ (.vote _ _) _ _ _ => stPeerLost
      | _ => stLinkDown)

/-- R579: 10,000 ticks without an acknowledgement or a notice. -/
def doMessageLost (d : Dev) (msg : Nat) : Dev :=
  match d.sentMsg msg with
  | none => d
  | some s =>
    if !s.held ∧ s.tick + 10000 < d.clk.tick then
      (if isHostBound s.msg.body then d.hostLost s.msg else d.failSender msg (lostStatus s.msg.body))
    else d

/-- R570, R579, R599: a message of another device goes on, or is dropped with a notice to its source; a bridge passes its members'
host-bound messages on to the host. -/
def doMessageForward (d : Dev) (port cls : Nat) (m : Message) : Dev :=
  if m.dst = d.links.devNum then (if isHostBound m.body then d.hostForward m else d)
  else
    let buf := bufOf m.vc cls
    let n := flitsOf m.body
    let d := d.modPort port (fun p =>
      { p with held := tmod 0 p.held buf (· - n), owed := tmod 0 p.owed buf (· + min n (tget 0 p.held buf)) })
    if d.routeOk m.dst then d.leave m cls else (d.countDrop m.dst).answer m.src (.unreachable m.id)

/-! ### Flits (R571, R572) -/

def doFlitReceive (d : Dev) (port : Nat) (f : FlitIn) : Dev :=
  d.modPort port (fun p =>
    if !p.carries then p
    else if !f.crcOk then { p with rxReplay := true }
    else if !f.idle && f.num != p.rxNext then p
    else if f.idle && p.rxReplay then p
    else
      let buf := bufOf f.vc f.cls
      let p := { p with replay := p.replay.filter (fun r => decide (f.ackTo < r.num))
                        used := tmod 0 p.used (bufOf f.creditVc f.creditCls) (· - f.credits) }
      let p := if f.idle then p
        else if f.transit then { p with rxNext := p.rxNext + 1, rxReplay := false, held := tmod 0 p.held buf (· + 1) }
        else { p with rxNext := p.rxNext + 1, rxReplay := false, owed := tmod 0 p.owed buf (· + 1) }
      p.drain)

def doReplayRequest (d : Dev) (port num : Nat) : Dev :=
  d.modPort port (fun p =>
    if !p.carries then p
    else
      let again := p.replay.filter (fun r => decide (num ≤ r.num))
      { p with replay := p.replay.map (fun r => if num ≤ r.num then { r with replays := r.replays + 1 } else r)
               retry := (p.retry + again.length) % 2 ^ 64 })

/-! ### Ports (R573 to R576) -/

/-- Whether messages to a position of a group leave by a port. -/
def Dev.leavesBy (d : Dev) (ms : List GroupMember) (port pos : Nat) : Bool :=
  memberAt ms pos != d.links.devNum && bit (d.route (memberAt ms pos)) 15 && d.route (memberAt ms pos) % 8 == port

/-- How a waiting command of a group ends when a port goes DOWN: a VOTE whose path to the root leaves by it (R514), a merge or a
norm whose tree needs it (R329, R487). -/
def Dev.portEnds (d : Dev) (port : Nat) (e : Entry) : Option Nat :=
  match e.coll, d.collOf e with
  | some _, some (group, key) =>
    (match d.groupOf e.hdr.part group with
      | none => none
      | some (ms, pos) =>
        match key with
        | .vote _ _ => if pos ≠ 0 ∧ d.leavesBy ms port 0 then some stPeerLost else none
        | _ => if onTree key ∧ (treeNear pos ms.length).any (d.leavesBy ms port) then some stLinkDown else none)
  | _, _ => none

/-- The waiting commands that a port's going DOWN ends. -/
def Dev.pathFails (d : Dev) (port : Nat) : Dev :=
  (d.live.map (·.2)).foldl (fun d e =>
    match d.portEnds port e with
    | some st => d.refuse e.ref e st
    | none => d) d

/-- R575, R576: a port goes DOWN; what stood in its buffers is lost. -/
def Dev.portDown (d : Dev) (port : Nat) (chatter : Bool) : Dev :=
  let d := d.modPort port (fun p =>
    { p with state := .down, chatter := p.chatter || chatter, replay := [], waiting := [], used := [], held := [], owed := [],
             rxReplay := false })
  (d.pathFails port).due ⟨⟨5, port⟩, 46 + port, 0x09, 0xFF, 0xFF, 0, 0⟩

/-- The retrains of the present window of 2²⁰ ticks. -/
def recentRetrains (now : Nat) (ts : List Nat) : List Nat := ts.filter (fun t => decide (now < t + 2 ^ 20))

/-- R573 to R575: a retrain begins. -/
def doRetrain (d : Dev) (port : Nat) (cause : RetrainCause) (badLane : Option Nat) : Dev :=
  let p := d.port port
  if p.state ≠ .up ∨ (cause = .thirdReplay ∧ !p.replay.any (fun r => decide (3 ≤ r.replays))) then d
  else
    let ts := recentRetrains d.clk.tick p.retrains ++ [d.clk.tick]
    let d := d.modPort port (fun p =>
      { p with retrains := ts, since := d.clk.tick, state := .retrain, replay := p.replay.map (fun r => { r with replays := 0 }) })
    if 5 ≤ ts.length then d.portDown port true
    else
      match badLane with
      | none => d
      | some l =>
        if p.spareUsed then d.portDown port false else d.modPort port (fun p => { p with spareUsed := true, badLane := l })

def doRetrainDone (d : Dev) (port : Nat) : Dev :=
  d.modPort port (fun p => if p.state = .retrain then Port.drain { p with state := .up } else p)

def doRetrainTimeout (d : Dev) (port : Nat) : Dev :=
  let p := d.port port
  if p.state = .retrain ∧ p.since + 10000 < d.clk.tick then d.portDown port true else d

/-- R575: the end of a full training; a port with more than one bad lane cannot run at full width (R568, R574). -/
def doFullTrainingDone (d : Dev) (port : Nat) (bad : List Nat) : Dev :=
  if (d.port port).state ≠ .training then d
  else
    match bad with
    | [] => d.modPort port (fun p => { p with state := .up, spareUsed := false, badLane := 0xF })
    | [l] => d.modPort port (fun p => { p with state := .up, spareUsed := true, badLane := l })
    | _ => d.portDown port false

/-- R575, R605: a write of LNK_PORT_CTL_j. A port that carries the host bridge does not train as a link. -/
def Dev.writePortCtl (d : Dev) (port v : Nat) : Dev :=
  d.modPort port (fun p =>
    let on := bit v 31
    let p' := { p with enable := on, dateline := bit v 30 }
    if p.state = .host then p'
    else if on && !p.enable then
      { Port.reset with state := .training, enable := true, dateline := bit v 30, chatter := p.chatter, retry := p.retry, drop := p.drop,
                        since := d.clk.tick }
    else if !on && p.enable then
      { Port.reset with dateline := bit v 30, chatter := p.chatter, retry := p.retry, drop := p.drop,
                        spareUsed := p.spareUsed, badLane := p.badLane }
    else p')

/-- R577: a write of LNK_DEV_NUM. -/
def Dev.writeDevNum (d : Dev) (v : Nat) : Dev :=
  let busy := (List.range 8).any (fun j => (d.port j).state == .up || (d.port j).state == .training)
  let d := if bit v 31 then d.modLinks (fun l => { l with numRej := false }) else d
  if busy then d.modLinks (fun l => { l with numRej := true }) else d.modLinks (fun l => { l with devNum := v % 2 ^ 14 })

/-! ### Interrupts (R600) -/

/-- R600: the vector of a notify on this member. -/
def Dev.vectorOf (d : Dev) (vec : Nat) : Nat := 256 * (if d.links.bridge then 0 else d.links.devNum % 8) + vec

/-- R600: a record's notify. -/
def Dev.notify (d : Dev) (vec : Nat) : Dev := d.hostBound (.hostNotify (d.vectorOf vec))

/-- R600, R601: the one message that stands for the notifies after a tick's first goes while the host path is up. -/
def doMsixCoalesced (d : Dev) (v : Nat) : Dev :=
  if d.links.msixAgain.contains v ∧ !d.links.msixSent.contains v ∧ d.links.hostUp then
    (d.modLinks (fun l => { l with msixAgain := l.msixAgain.filter (· != v) })).raiseMsix v
  else d

def doMsixUnmask (d : Dev) (v : Nat) : Dev :=
  let pend := d.links.msixPend.contains v
  let d := d.modLinks (fun l => { l with msixMask := tput true l.msixMask v false, msixPend := l.msixPend.filter (· != v) })
  if pend then d.hostBound (.hostNotify v) else d

/-! ### The host path (R601) -/

/-- R601: whether the path of a member has a route to its bridge; the bridge needs none. -/
def Dev.bridgeRoute (d : Dev) : Bool := d.links.bridge || bit (d.route d.bridgeNum) 15

/-- R601: the host path comes up; host-bound traffic that waited goes in its order. -/
def doHostPathUp (d : Dev) (speed width : Nat) : Dev :=
  if d.lamp.stage ≠ 8 ∨ (d.links.bridge ∧ d.lamp.perst.holds) ∨ !d.bridgeRoute then d
  else
    (d.modLinks (fun l =>
      { l with l0 := l.bridge, bme := l.bridge, speed := if l.bridge then speed else 0, width := if l.bridge then width else 0,
               hostUp := true })).hostResend

def doHostPathDown (d : Dev) (cause : HostDownCause) : Dev :=
  d.modLinks (fun l =>
    match cause with
    | .linkLeft => { l with l0 := false, hostUp := false }
    | .busMasterOff => { l with bme := false, hostUp := false }
    | .routeLost => { l with hostUp := false })

/-! ### The commands -/

def doRouteSet (d : Dev) (c : CmdRef) : Dev :=
  d.onPacket c (fun e => match e.payload with
    | .routeSet runs _ => d.runClaimed c e (runRouteSet runs)
    | _ => d)

def doGroupDeclare (d : Dev) (c : CmdRef) : Dev :=
  d.onPacket c (fun e => match e.payload with
    | .groupDeclare g n va _ => d.runClaimed c e (runGroupDeclare e.hdr.part g n va)
    | _ => d)

def doGroupRemove (d : Dev) (c : CmdRef) : Dev :=
  d.onPacket c (fun e => match e.payload with
    | .groupRemove g _ => d.runClaimed c e (runGroupRemove e.hdr.part g)
    | _ => d)

def doLinkWrite (d : Dev) (c : CmdRef) : Dev :=
  d.onPacket c (fun e => match e.payload with
    | .linkWrite g pos n va src _ => d.runThenSend c e [] (runLinkWrite e.hdr.part g pos n va src)
    | _ => d)

def doLinkSignal (d : Dev) (c : CmdRef) : Dev :=
  d.onPacket c (fun e => match e.payload with
    | .linkSignal g pos tok val _ => d.runThenSend c e [] (runLinkSignal e.hdr.part g pos tok val)
    | _ => d)

end Sys2Proof.Machine
end

