-- ==== Sys2Proof/Machine/Streams.lean ====
section
/-! DEFINITION. Token streams (R397 to R402), and host-bound writes (R601). -/

namespace Sys2Proof.Machine

/-- R601: a write to host memory. -/
def Dev.hostWrite (d : Dev) (iova : Nat) (data : List Byte) : Dev := d.hostBound (.hostWrite iova data)

def Dev.setRequest (d : Dev) (id : Nat) (r : Request) : Dev := { d with reqs := { d.reqs with r := tins d.reqs.r id r } }

/-- R397: the records that a ring holds. -/
def ringCap (a : Admission) : Nat := 2 ^ (a.ringLog2 - 4) - 4

/-- Records delivered and not consumed. -/
def Request.unread (r : Request) : Nat := (r.streamSeq + (2 ^ 32 - r.cons % 2 ^ 32)) % 2 ^ 32

/-- R400: a stalled request that has room again. -/
def Request.wake (r : Request) : Request := if r.state = 2 ∧ !r.crowded then { r with state := 1 } else r

/-- R397: the two writes of a stream record. -/
def streamWords (id gen tok seq : Nat) (last : Bool) : List Byte × List Byte :=
  (leBytes 4 tok ++ leBytes 2 id ++ leBytes 1 (setBit last 0) ++ zeros 1 ++ leBytes 4 gen, leBytes 4 seq)

/-- R398 to R400: the stream writer delivers a request's oldest held token where it can, and makes a stalled request that has room
ACTIVE. -/
def doStreamDeliver (d : Dev) (id : Nat) : Dev :=
  match d.request id with
  | none => d
  | some r =>
    match r.held with
    | [] => d.setRequest id r.wake
    | (tok, last) :: rest =>
      if d.links.hostUp ∧ r.unread < ringCap r.adm then
        let w := streamWords id (d.genOf id) tok r.streamSeq last
        let at_ := r.adm.ringIova + 64 + 16 * (r.streamSeq % ringCap r.adm)
        let d := (d.hostWrite at_ w.1).hostWrite (at_ + 12) w.2
        let r := { r with held := rest, streamSeq := (r.streamSeq + 1) % 2 ^ 32 }
        let d := d.setRequest id r.wake
        { d with reqs := { d.reqs with streamed := (d.reqs.streamed + 1) % 2 ^ 64 } }
      else d.setRequest id r.wake

/-- R401: whether the stream writer reads a request's consumer count now: it holds tokens, its ring has no room, and 16 ticks have
passed since the last read. -/
def Request.consDue (now : Nat) (r : Request) : Bool :=
  !r.held.isEmpty && decide (ringCap r.adm ≤ r.unread) && decide (r.consRead ≤ now)

/-- R401: a read of a ring's consumer count, at most once per 16 ticks, in ascending id order: no lower id is due. -/
def doConsRead (d : Dev) (id : Nat) : Dev :=
  match d.request id with
  | none => d
  | some r =>
    if d.links.hostUp ∧ r.consDue d.clk.tick ∧ d.reqs.r.all (fun x => decide (id ≤ x.1) || !x.2.consDue d.clk.tick) then
      let v := leAt (getBytes d.mem.host r.adm.ringIova 4) 0 4
      let u := (r.streamSeq + (2 ^ 32 - v)) % 2 ^ 32
      let r := { r with consRead := d.clk.tick + 16 }
      if u ≤ ringCap r.adm ∧ u ≤ r.unread then d.setRequest id { r with cons := v }
      else
        let d := d.setRequest id r
        { d with reqs := { d.reqs with ringBad := true } }
    else d

end Sys2Proof.Machine
end

