-- ==== Sys2Proof/Machine/Effects.lean ====
section
/-! DEFINITION. What each held effect does when its command commits (R261, R262), in the state of that instant. -/

namespace Sys2Proof.Machine

/-! ### Memory and mappings -/

/-- R503: the dirty bits that a block sets. -/
def Dev.markBlock (d : Dev) (pa len : Nat) : Dev :=
  if d.train.p.any (fun kv => kv.2.snap.isSome) then d.markDirty false pa (zeros len) else d

/-- R154 to R157, R268: a block of bytes published at once. -/
def Dev.pokeBlock (d : Dev) (pa len : Nat) (cells : List Host.Cell) : Dev :=
  (d.markBlock pa len).modMem (fun m =>
    { m with bytes := putCells m.bytes pa len cells, ue := m.ue.filter (fun s => !wholeSector pa len s),
             ces := m.ces.filter (fun s => !wholeSector pa len s) })

/-- The opcodes whose writes are the Treadle's (R503). -/
def isTreadleOp (op : Nat) : Bool := op == 0x80 || op == 0x81

def Dev.setUse (d : Dev) (t : Tier) (p : Nat) (u : PageUse) : Dev := d.modMem (fun m => m.setUse t p u)
def Dev.addZero (d : Dev) (i : ZeroItem) : Dev := d.modMem (fun m => { m with zeroQ := m.zeroQ ++ [i] })

/-- R623: an extend of a measurement register. -/
def Dev.extendMeas (d : Dev) (m : Nat) (digest : List Byte) : Dev :=
  { d with lamp := { d.lamp with meas := tins d.lamp.meas m (shake256 32 (fitBytes 32 (tget [] d.lamp.meas m) ++ digest)) } }

/-! ### Requests -/

def Dev.modReqs (d : Dev) (f : Reqs → Reqs) : Dev := { d with reqs := f d.reqs }
def Dev.modRequest (d : Dev) (id : Nat) (f : Request → Request) : Dev :=
  match d.request id with
  | some r => d.setRequest id (f r)
  | none => d
def Dev.modTenant (d : Dev) (t : Nat) (f : Tenant → Tenant) : Dev :=
  d.modReqs (fun q => { q with tenants := tmod Tenant.reset q.tenants t f })
def Dev.modPool (d : Dev) (part : Nat) (f : Tbl PoolPage → Tbl PoolPage) : Dev :=
  d.modReqs (fun q => { q with pools := tmod [] q.pools part f })

def Dev.admitRequest (d : Dev) (part id : Nat) (a : Admission) : Dev :=
  let d := d.setRequest id (.admitted part a)
  let d := d.modReqs (fun q => { q with gens := tput 0 q.gens id ((tget 0 q.gens id + 1) % 2 ^ 32) })
  d.modTenant a.tenant (fun t => { t with reserved := t.reserved + a.maxLen, live := t.live + 1 })

/-- R354: pages of a request that return to their pool once they are zero. -/
def Dev.returnPages (d : Dev) (id : Nat) (idxs : List Nat) : Dev :=
  match d.request id with
  | none => d
  | some r =>
    let ks := (r.pages.filter (fun kv => idxs.contains kv.1)).map (·.2)
    let d := d.setRequest id { r with pages := r.pages.filter (fun kv => !idxs.contains kv.1) }
    d.modPool r.part (fun p => p.map (fun kv => if ks.contains kv.1 then (kv.1, { kv.2 with holder := none, zeroing := true }) else kv))

/-- R345: a request leaves the live states: its reservation and its place go back to its tenant. -/
def Dev.endLive (d : Dev) (id : Nat) : Dev :=
  match d.request id with
  | none => d
  | some r =>
    if r.isLive then
      (d.setRequest id { r with reserveLeft := 0 }).modTenant r.adm.tenant (fun t =>
        { t with reserved := t.reserved - r.reserveLeft, live := t.live - 1 })
    else d

/-- R365: a request record; its queue, its phase bit and its yield flag are set where it is written. -/
def requestRecord (opcode id gen : Nat) (r : Request) (expired yielded : Bool) : List Byte :=
  leBytes 2 (if expired then stExpired else stOk) ++ leBytes 2 (setBit (r.overdrawn || yielded) 5) ++ leBytes 1 opcode ++ zeros 3 ++
    leBytes 8 (id + 65536 * gen) ++ leBytes 4 r.committed ++ leBytes 4 r.emitted ++ leBytes 4 r.accepted ++ zeros 4

/-- R364: a request record for a command, in ascending request id. -/
def Dev.addRecord (d : Dev) (c : CmdRef) (rec : List Byte) : Dev :=
  d.modEntry c (fun e =>
    { e with reqRecords := sortBy (fun a b => decide (leAt a 8 2 < leAt b 8 2)) (e.reqRecords ++ [rec]) })

/-- R337, R361, R402: a request becomes EXPIRED. -/
def Dev.expireNow (d : Dev) (c : CmdRef) (opcode id : Nat) (yielded : Bool) : Dev :=
  match d.request id with
  | none => d
  | some r =>
    if r.isLive then
      let d := d.addRecord c (requestRecord opcode id (d.genOf id) r true yielded)
      let d := (d.returnPages id (r.pages.map (·.1))).endLive id
      let d := d.modRequest id (fun r => { r with state := 3, held := [], inPeriod := false })
      d.modReqs (fun q => { q with expired := (q.expired + 1) % 2 ^ 64 })
    else d

/-- REQ_RELEASE (R368, R402). -/
def Dev.releaseReq (d : Dev) (id : Nat) : Dev :=
  match d.request id with
  | none => d
  | some r =>
    let d := (d.returnPages id (r.pages.map (·.1))).endLive id
    d.modReqs (fun q => { q with r := terase q.r id })

/-- R355, R356, R391: a running row of an opener. -/
def openReq (slot : Nat) (row : PeriodRow) (r : Request) : Request :=
  { r with inPeriod := true, period := slot, tentative := r.committed + row.count, periodSeq := r.periodSeq + 1,
           probeCtr := if row.kind = 0 then (draftLen r).2 else r.probeCtr }

def Dev.openPeriod (d : Dev) (part slot : Nat) (p : Period) : Dev :=
  let d := d.modReqs (fun q => { q with periods := tins q.periods (4 * part + slot) p })
  (p.rows.filter (fun row => row.status == 0)).foldl (fun d row => d.modRequest row.req (openReq slot row)) d

/-- R344, R346: a charge to a tenant. -/
def Dev.charge (d : Dev) (id n : Nat) : Dev :=
  match d.request id with
  | none => d
  | some r =>
    let drawn : Bool := decide ((d.tenant r.adm.tenant).balance - n < 0) && decide (0 < n)
    let d := d.modTenant r.adm.tenant (fun t =>
      { t with balance := clamp64 (t.balance - n), reserved := t.reserved - n, overdrawn := t.overdrawn || drawn })
    d.setRequest id { r with reserveLeft := r.reserveLeft - n, overdrawn := r.overdrawn || drawn }

/-- The flags of the tokens that a close emits: the final one of a request that ends carries LAST (R397). -/
def heldTokens (last : Bool) : List Nat → List (Nat × Bool)
  | [] => []
  | [t] => [(t, last)]
  | t :: ts => (t, false) :: heldTokens last ts

/-- R359, R392, R399: the entry of a row that a closer closes. -/
def closeReq (count kind : Nat) (x : CloseRow) (r : Request) : Request :=
  let tracked : Bool := kind == 0 && decide (1 < count)
  { r with committed := r.committed + x.commit, tentative := r.committed + x.commit, inPeriod := false
           promptDone := r.promptDone || x.promptDone, emitted := r.emitted + x.tokens.length
           nextToken := (x.tokens.getLast?).getD r.nextToken, held := r.held ++ heldTokens x.last x.tokens
           countUsed := x.countUsed, accepted := r.accepted + x.accepted
           zeroRun := if tracked then (if x.accepted = 0 then min (r.zeroRun + 1) 8 else 0) else r.zeroRun
           probeCtr := if tracked && x.accepted != 0 then 0 else r.probeCtr }

/-- R400: a request that has too little room for its next period stalls. -/
def Request.stallCheck (r : Request) : Request := if r.state = 1 ∧ r.crowded then { r with state := 2 } else r

/-- One row of a closer's commit; the closer is a DECODE_STEP, and so is the record of a request that it makes DONE (R365). -/
def Dev.closeRow (d : Dev) (c : CmdRef) (p : Period) (x : CloseRow) : Dev :=
  match d.request x.req, p.rows.find? (fun row => row.req == x.req && row.status == 0) with
  | some r, some row =>
    let r' := closeReq row.count row.kind x r
    let back := returnedPages r r'.committed x.last
    let d := ((d.setRequest x.req r').charge x.req x.charge).returnPages x.req back
    let d := d.modReqs (fun q =>
      { q with draftNodes := (q.draftNodes + x.nodes) % 2 ^ 64, draftAccepted := (q.draftAccepted + x.accepted) % 2 ^ 64 })
    if x.last then
      match d.request x.req with
      | some r' =>
        let d := d.addRecord c (requestRecord 0x62 x.req (d.genOf x.req) r' false false)
        (d.endLive x.req).modRequest x.req (fun r => { r with state := 4 })
      | none => d
    else d.modRequest x.req Request.stallCheck
  | _, _ => d

def Dev.closePeriod (d : Dev) (c : CmdRef) (part slot : Nat) (rows : List CloseRow) : Dev :=
  match d.period part slot with
  | none => d
  | some p =>
    let d := rows.foldl (fun d x => d.closeRow c p x) d
    d.modReqs (fun q => { q with periods := terase q.periods (4 * part + slot) })

/-- R363: an ABORT. -/
def Dev.abortPeriod (d : Dev) (part slot : Nat) : Dev :=
  match d.period part slot with
  | none => d
  | some p =>
    let d := (p.rows.filter (fun row => row.status == 0)).foldl (fun d row =>
      match d.request row.req with
      | some r =>
        let d := d.modReqs (fun q => { q with draftNodes := (q.draftNodes + row.nodes.length) % 2 ^ 64 })
        (d.setRequest row.req { r with tentative := r.committed, inPeriod := false }).returnPages row.req (pagesBeyond r r.committed)
      | none => d) d
    d.modReqs (fun q => { q with periods := terase q.periods (4 * part + slot) })

/-- R388: drafted nodes of an open period, by row. -/
def addNodes (nodes : List (Nat × DraftNode)) (p : Period) : Period :=
  { p with rows := (withIdx 0 p.rows).map (fun rk =>
      { rk.1 with nodes := rk.1.nodes ++ (nodes.filter (fun n => n.1 == rk.2)).map (·.2) }) }

/-! ### The Wick -/

def Dev.modWick (d : Dev) (f : Wick → Wick) : Dev := { d with wick := f d.wick }
def Dev.modLive (d : Dev) (part idx : Nat) (f : WickLive → WickLive) : Dev :=
  d.modWick (fun w => match tfind w.descs (16 * part + idx) with
    | some x => { w with descs := tins w.descs (16 * part + idx) (f x) }
    | none => w)

/-- The frame of a micro-batch changed. -/
def WickLive.modFrame (w : WickLive) (mb : Nat) (f : Frame → Frame) : WickLive :=
  { w with frames := w.frames.modify (mb % w.desc.depth) f }

/-- R303, R304: a drain's commit claims a free frame and sets the presence bits of its blocks. -/
def Frame.drain (f : Frame) (mb role : Nat) (blocks : List Nat) : Frame :=
  let f := if f.phase = 0 then { Frame.empty with phase := 1, mb := mb } else f
  if role = 0 then { f with tBlocks := sortNat (f.tBlocks ++ blocks) } else { f with sBlocks := sortNat (f.sBlocks ++ blocks) }

/-- R303: the phase whose step, once every rank has committed it, leads to a phase. -/
def phaseBefore (topk : Bool) (next : Nat) : Nat :=
  match next with
  | 2 => 1
  | 4 => if topk then 3 else 1
  | n => n - 1

/-- R303: a rank's commit counts in the phase of its own step; when all w ranks have committed, the phase advances. -/
def Frame.rankDone (f : Frame) (w mb rank now next : Nat) : Frame :=
  if f.phase ≠ now ∨ f.mb ≠ mb then f
  else
    let rs := sortNat (f.ranks ++ [rank])
    if rs.length = w then { f with phase := next, ranks := [] } else { f with ranks := rs }

/-- R303: a merge's commit moves its micro-batch on from the phase in which the merge was accepted. -/
def Frame.toPhase (f : Frame) (mb phase : Nat) (nonfinite range : Bool) : Frame :=
  if f.phase + 1 ≠ phase ∨ f.mb ≠ mb then f
  else { f with phase := phase, ranks := [], nonfinite := f.nonfinite || nonfinite, labelRange := f.labelRange || range }

/-- R301, R302: a RELEASE's commit. -/
def Dev.releaseFrame (d : Dev) (part idx : Nat) : Dev :=
  match d.wickLive part idx with
  | none => d
  | some w =>
    let d := d.modLive part idx (fun w => { w.modFrame w.r (fun _ => Frame.empty) with r := w.r + 1 })
    d.signal part w.desc.relTok (w.b + w.r + 1)

/-! ### Training -/

/-- R488: the registers of a Treadle after an update commits. -/
def Treadle.updated (t : Treadle) (step : Nat) (skipped : Bool) (flags ovf elems : Nat) (events : List (Nat × Bool × Bool)) : Treadle :=
  { t with lastStep := step, lastSkipped := skipped, lastFlags := flags, lastOvf := min 0xFFFF ovf
           event := t.event || !events.isEmpty
           zeroSeen := t.zeroSeen || events.any (·.2.1), ratioSeen := t.ratioSeen || events.any (·.2.2)
           watchLayer := if t.event then t.watchLayer else ((events.head?).map (·.1)).getD t.watchLayer
           elems := (t.elems + elems) % 2 ^ 64, skips := (t.skips + if skipped then 1 else 0) % 2 ^ 64
           ovfBlocks := (t.ovfBlocks + ovf) % 2 ^ 64
           watchEvents := (t.watchEvents + (events.map (fun e => (if e.2.1 then 1 else 0) + (if e.2.2 then 1 else 0))).sum) % 2 ^ 64 }

/-- A held effect of the training units. A MARK's record carries its entry's lsn. -/
def Dev.applyTrain (d : Dev) (x : TrainEffect) : Dev :=
  match x with
  | .update die _ _ step skipped flags ovf elems events =>
    d.modTreadle die (fun t => t.updated step skipped flags ovf elems events)
  | .norm part die step bytes => d.logAdd part die step 0x03 bytes
  | .xchNew ctx x => { d with xch := tins d.xch ctx x }
  | .xchGone ctx => { d with xch := terase d.xch ctx }
  | .contrib ctx step pos data => d.contribArrives ctx step pos data
  | .stepSummed ctx present held => d.logDecision ctx present held
  | .store i s =>
    (d.modTraining (fun t => { t with stores := tins t.stores i s })).modPart s.host (fun p =>
      { p with storePages := p.storePages + s.pages.length })
  | .snapConfig part s => d.modTrain part (fun t => { t with snap := some s })
  | .snapTaken part gen step _ => d.snapTaken part gen step
  | .restored part step gen epochs a b teacher => d.restored part step gen epochs a b teacher
  | .logRestored part a b ds => d.logRestored part a b ds
  | .logConfig part l => d.modTrain part (fun t => { t with log := some l })
  | .mark part step cursor digest => d.mark part step cursor digest
  | .decided part group step attempt code entry => d.stepDecided part group step attempt code entry
  | .recoveryOpen r => d.modTraining (fun t => { t with recovery := some r })
  | .recoveryClosed => d.modTraining (fun t => { t with recovery := none })

def Dev.applyLink (d : Dev) (x : LinkEffect) : Dev :=
  match x with
  | .routes runs => d.setRoutes runs
  | .group g v => d.modLinks (fun l => { l with groups := tins l.groups g v })
  | .groupGone g => d.modLinks (fun l => { l with groups := terase l.groups g })

/-- R615, R616, R633: held effects of the Lamplighter's commands; command output goes with the record (R608). -/
def Dev.applyLamp (d : Dev) (x : LampEffect) : Dev :=
  match x with
  | .output _ => d
  | .extend reg digest => d.extendMeas reg digest
  | .install record =>
    let l := d.lamp
    let live := 1 - l.live
    let d := { d with lamp := { l with live := live, minCounter := leAt record 16 4
                                       copyA := if live = 0 then record else l.copyA, copyB := if live = 1 then record else l.copyB } }
    d.extendMeas 4 (shake256 32 record)
  | .errqTake n =>
    let q := d.lamp.errq.drop n
    { d with lamp := { d.lamp with errq := q, alert := q.any (fun r => decide (1 ≤ r.level) || r.fatal) } }
  | .cap mw persist => { d with power := { d.power with cap := mw, stored := if persist then some mw else d.power.stored } }

/-! ### Queues and partitions -/

/-- R283, R287: a queue as QUEUE_CREATE leaves it. -/
def newQueue (part share vec sqLog2 cqLog2 sqVa cqVa firstSeq : Nat) (operator : Bool) (sqPages cqPages : List Nat) : Queue :=
  { Queue.off with
    state := .running, part := part, operator := operator, sqLog2 := sqLog2, cqLog2 := cqLog2, share := share, vec := vec,
    sqVa := sqVa, cqVa := cqVa, sqPages := sqPages, cqPages := cqPages, nextSeq := firstSeq }

/-- A ring's bytes, piece by piece: the address of an offset. -/
def ringAddr (pieces : List Nat) (off : Nat) : Nat := pieces.getD (off / pageBytes) 0 + off % pageBytes

/-- R247: the completion ring is zeroed. -/
def Dev.zeroRing (d : Dev) (pieces : List Nat) (len : Nat) : Dev :=
  (withIdx 0 pieces).foldl (fun d p => d.pokeBlock p.1 (min pageBytes (len - pageBytes * p.2)) []) d

/-- What the zeroing of R182 clears on a Spindle. -/
def Spindle.zeroed (s : Spindle) : Spindle := { s with acc := [], tq := [], loaded := false }

/-- R182: the Spindle-local state of a partition is zero. -/
def Dev.zeroSpindles (d : Dev) (sps : List Nat) : Dev := sps.foldl (fun d s => d.modSpin s Spindle.zeroed) d

/-- A sealed region's mappings leave a partition. -/
def Dev.dropRegionMaps (d : Dev) (part : Nat) : Dev :=
  d.modPart part (fun p =>
    { p with maps := [], pt := p.pt.filter (fun kv => match kv.2.kind with
        | .sealed _ => false
        | _ => true) })

/-- R181: a page that nothing maps any more waits for its zeroing. -/
def Dev.freePage (d : Dev) (t : Tier) (n : Nat) (ordered : Bool) : Dev :=
  match zeroTarget (paOf t n) with
  | some z => (d.setUse t n .zeroing).addZero ⟨z, none, ordered⟩
  | none => d

/-- Whether a zeroing target is a KV slot of a partition. -/
def isSlotOf (part : Nat) (t : ZeroTarget) : Bool :=
  match t with
  | .kvSlot p _ _ => p == part
  | _ => false

/-- R532, R539: a FREE partition holds nothing: its groups go, with what is kept for them. -/
def Dev.dropGroups (d : Dev) (part : Nat) : Dev :=
  let mine (g : Nat) : Bool := (tfind d.links.groups g).any (fun x => x.part == part)
  let d := d.modTraining (fun t => { t with table := t.table.filter (fun kv => !(mine kv.1 || kv.1 == 0x10000 + part)) })
  d.modLinks (fun l =>
    { l with groups := l.groups.filter (fun kv => kv.2.part != part), lost := l.lost.filter (fun x => !mine x.group)
             shadow := l.shadow.filter (fun s => s.part != part) })

/-- R182, R184, R508, R565: what PART_RELEASE releases at its commit point. A KV frame is zeroed whole; what waited of its
slots is part of that. -/
def Dev.freePart (d : Dev) (part : Nat) : Dev :=
  let p := d.part part
  let d := d.dropRegionMaps part
  let d := p.pt.foldl (fun d kv =>
    if kv.2.kind = .data then
      match tierOf kv.2.pa with
      | some (.hbm, n) => d.freePage .hbm n false
      | some (.ddr, n) => d.freePage .ddr n false
      | _ => d
    else d) d
  let d := d.modMem (fun m => { m with zeroQ := m.zeroQ.filter (fun i => !isSlotOf part i.target) })
  let d := p.kvFrames.foldl (fun d n => d.freePage .hbm n false) d
  let mine := d.train.stores.filter (fun kv => kv.2.host == part)
  let d := mine.foldl (fun d kv => kv.2.pages.foldl (fun d n => d.freePage .ddr n false) d) d
  let d := d.modTraining (fun t =>
    { t with stores := t.stores.filter (fun kv => kv.2.host != part), p := terase t.p part
             last := terase (terase t.last (2 * part)) (2 * part + 1) })
  let d := { d with xch := d.xch.filter (fun kv => kv.2.part != part) }
  let d := d.modWick (fun w => { w with maps := w.maps.filter (fun kv => kv.1 / 4 != part) })
  let d := d.dropGroups part
  let d := d.modReqs (fun q =>
    { q with periods := q.periods.filter (fun kv => kv.1 / 4 != part), pools := terase q.pools part
             r := q.r.filter (fun kv => kv.2.part != part), maxReq := terase q.maxReq part })
  let d := { d with qs := { d.qs with tokens := d.qs.tokens.filter (fun kv => kv.1 / 64 != part) } }
  d.setPart part { Partition.off with acct := p.acct }

/-- R550: a restored partition's half-tiles and tile queues. -/
def Dev.putSaved (d : Dev) (spindles : List Nat) (s : SavedCtx) : Dev :=
  (withIdx 0 spindles).foldl (fun d x =>
    d.modSpin x.1 (fun sp => { sp with acc := s.acc.getD x.2 [], tq := ((s.tq[x.2]?).map (·.1)).getD []
                                       tqHead := ((s.tq[x.2]?).map (·.2)).getD 0 })) d

/-- The pieces of a ring in a partition's present mapping. -/
def Dev.ringPieces (d : Dev) (part va len : Nat) : List Nat :=
  (List.range (max 1 (ceilDiv len pageBytes))).map (fun i => (d.physOf part (va + pageBytes * i)).getD 0)

/-- R243: whether a range may hold a ring. -/
def Dev.ringRangeOk (d : Dev) (part va len : Nat) : Bool :=
  va % min len pageBytes == 0 && decide (va + len ≤ 2 ^ 48) &&
    (List.range (max 1 (ceilDiv len pageBytes))).all (fun i => match (d.part part).lookup (va + pageBytes * i) with
      | some (e, pa) => decide (e.kind = .data) && (match tierOf pa with
        | some (.skein, _) => true
        | some (.hbm, _) => true
        | _ => false)
      | none => false)

/-- R550: a queue returns to the state that it had before the save; its rings may lie in other frames. -/
def Dev.wakeQueues (d : Dev) (part : Nat) : Dev :=
  { d with qs := { d.qs with q := d.qs.q.map (fun kv =>
      (kv.1, if kv.2.part = part then
          { kv.2 with state := kv.2.savedState
                      sqPages := d.ringPieces part kv.2.sqVa (64 * 2 ^ kv.2.sqLog2)
                      cqPages := d.ringPieces part kv.2.cqVa (32 * 2 ^ kv.2.cqLog2) }
        else kv.2)) } }

/-- R550: the commit point of CTX_RESTORE. -/
def Dev.activate (d : Dev) (part : Nat) (spindles : List Nat) : Dev :=
  let s := (d.part part).saved
  let d := d.putSaved spindles s
  let d := s.area.foldl (fun d n => d.freePage .hbm n true) d
  let d := d.modPart part (fun p => { p with state := .active, spindles := spindles, saved := .empty })
  d.wakeQueues part

/-- R546: the commit point of CTX_SAVE. -/
def Dev.saveCtx (d : Dev) (part : Nat) (s : SavedCtx) : Dev :=
  let p := d.part part
  let out := p.pt.filter (fun kv => match tierOf kv.2.pa with
    | some (.skein, _) => decide (kv.2.kind = .data)
    | _ => false)
  let d := out.foldl (fun d kv => match tierOf kv.2.pa with
    | some (t, n) => d.freePage t n true
    | none => d) d
  let d := s.area.foldl (fun d n => d.setUse .hbm n (.saved part)) d
  let d := d.zeroSpindles p.spindles
  let d := d.modPart part (fun p =>
    { p with state := .saved, spindles := [], saved := s
             pt := p.pt.filter (fun kv => !out.any (fun o => o.1 == kv.1)) })
  { d with qs := { d.qs with q := d.qs.q.map (fun kv =>
      (kv.1, if kv.2.part = part then { kv.2 with savedState := kv.2.state, state := .saved } else kv.2)) } }

/-- R255, R533, R543: the commit point of PART_CREATE. -/
def Dev.createPart (d : Dev) (p share spanId : Nat) (fr span : Bool) (list spindles : List Nat) : Dev :=
  let d := d.modPart p (fun x =>
    { x with state := .active, share := share, forerunner := fr, span := span, spanId := spanId, spanList := list
             spindles := spindles, acct := .zero, fault := .clear })
  { d with qs := { d.qs with tokens := d.qs.tokens.filter (fun kv => kv.1 / 64 != p) } }

/-- R284: a queue ceases to exist; one that still owes records is disabled until they are written. -/
def Dev.dropQueue (d : Dev) (q : Nat) : Dev :=
  if (d.queue q).entries.isEmpty then { d with qs := { d.qs with q := terase d.qs.q q } }
  else d.modQueue q (fun k => { k with state := .disabled })

/-- The remaining effects of partition and queue commands. -/
def Dev.applyPart (d : Dev) (x : Effect) : Dev :=
  match x with
  | .queueNew q part share vec s c sqVa cqVa first operator sqPages cqPages =>
    let d := d.setQueue q (newQueue part share vec s c sqVa cqVa first operator sqPages cqPages)
    let d := { d with qs := { d.qs with qAcct := terase d.qs.qAcct q } }
    d.zeroRing cqPages (32 * 2 ^ c)
  | .queueGone q => d.dropQueue q
  | .queueResume q mode newHead newSeq =>
    if !d.hasQueue q then d else
    d.modQueue q (fun k =>
      let k := { k with state := .running, badHeader := false, overrun := false, haltDue := false }
      if mode = 2 then { k with head := newHead, nextSeq := newSeq } else k)
  | .partNew p share spanId fr span list spindles => d.createPart p share spanId fr span list spindles
  | .partRegrow p spindles => d.modPart p (fun x => { x with state := .active, spindles := spindles })
  | .partFree p => d.freePart p
  | .partShare p share => d.modPart p (fun x => { x with share := share })
  | .queueShare q share => if d.hasQueue q then d.modQueue q (fun k => { k with share := share }) else d
  | .ctxSaved p s => d.saveCtx p s
  | .ctxActive p spindles => d.activate p spindles
  | .reclaimed p => d.modPart p (fun x => { x with state := .reclaimed, level2Held := [] })
  | _ => d

/-! ### All effects -/

/-- A held effect of a request command. -/
def Dev.applyReq (d : Dev) (c : CmdRef) (e : Entry) (x : Effect) : Dev :=
  match x with
  | .reqAdmit part id a => d.admitRequest part id a
  | .reqRelease id => d.releaseReq id
  | .reqExpire id => d.expireNow c e.hdr.opcode id false
  | .poolAdd part pages => d.modPool part (fun t => pages.foldl (fun t p => tins t p.1 ⟨p.2, none, false⟩) t)
  | .poolRemove part pages => d.modPool part (fun t => pages.foldl terase t)
  | .pagePlace part id index page =>
    (d.modRequest id (fun r => { r with pages := tins r.pages index page })).modPool part (fun t =>
      match tfind t page with
      | some g => tins t page { g with holder := some id }
      | none => t)
  | .periodOpen part slot p => d.openPeriod part slot p
  | .periodClose part slot rows => d.closePeriod c part slot rows
  | .periodAbort part slot => d.abortPeriod part slot
  | .tenantSet t op part maxLive value => d.modTenant t (fun x => tenantAfter x op part maxLive value)
  | .draftCtl id ctl =>
    d.modRequest id (fun r => ({ r with draftCtl := ctl, zeroRun := 0, probeCtr := 0 } : Request).stallCheck)
  | .draftNodes part slot nodes =>
    d.modReqs (fun q => match tfind q.periods (4 * part + slot) with
      | some p => { q with periods := tins q.periods (4 * part + slot) (addNodes nodes p) }
      | none => q)
  | _ => d

/-- A held effect of a Wick command or of a WICK drain. -/
def Dev.applyWick (d : Dev) (e : Entry) (x : Effect) : Dev :=
  match x with
  | .wickNew part idx w => d.modWick (fun k => { k with descs := tins k.descs (16 * part + idx) { w with b := d.token part w.desc.relTok } })
  | .wickGone part idx => d.modWick (fun k => { k with descs := terase k.descs (16 * part + idx) })
  | .wickBlocks part idx mb role blocks => d.modLive part idx (fun w => w.modFrame mb (fun f => f.drain mb role blocks))
  | .wickRank part idx mb rank next =>
    d.modLive part idx (fun w => w.modFrame mb (fun f => f.rankDone w.desc.spindles mb rank (phaseBefore w.desc.topk next) next))
  | .wickPhase part idx mb phase nf range => d.modLive part idx (fun w => w.modFrame mb (fun f => f.toPhase mb phase nf range))
  | .wickRelease part idx => d.releaseFrame part idx
  | .wickMap part slot entries => d.modWick (fun k => { k with maps := tput [] k.maps (4 * part + slot) entries })
  | .wickNonfinite n => d.modWick (fun k => { k with nonfinite := (k.nonfinite + n) % 2 ^ 64 })
  | _ => let _ := e; d

/-- R220, R223: a Spindle's tile queue after posts and removals. -/
def Spindle.post (s : Spindle) (t : TqEntry) : Spindle := { s with tq := s.tq ++ [t] }
def Spindle.unpost (s : Spindle) (n : Nat) : Spindle :=
  { s with tq := (s.tq.drop n).map (fun t => { t with taken := false }), tqHead := (s.tqHead + min n s.tq.length) % 8 }

/-- A held effect of a command takes place. -/
def Dev.apply (d : Dev) (c : CmdRef) (e : Entry) (x : Effect) : Dev :=
  match x with
  | .mem pa data => d.poke (isTreadleOp e.hdr.opcode) pa data
  | .block pa len cells => d.pokeBlock pa len cells
  | .host iova data => d.hostWrite iova data
  | .half sp h v => d.modSpin sp (fun s => { s with acc := putHalf s.acc h v })
  | .work _ _ _ => d
  | .tqPost sp tile fp16 => d.modSpin sp (fun s => s.post ⟨tile, fp16, e.hdr.seq % 65536, false⟩)
  | .tqRemove sp n => d.modSpin sp (fun s => s.unpost n)
  | .permRange sp => d.modSpin sp (fun s => { s with permRange := true })
  | .map part key pte => d.modPart part (fun p => { p with pt := tins p.pt key pte })
  | .unmap part key => d.modPart part (fun p => { p with pt := terase p.pt key })
  | .pageUse t page u => d.setUse t page u
  | .kvFrames part frames => d.modPart part (fun p => p.addFrames frames)
  | .zero i => d.addZero i
  | .region r pages digest =>
    (d.modMem (fun m => { m with regions := tins m.regions r ⟨pages, digest, false, false⟩ })).extendMeas 3 digest
  | .regionZero r => d.modMem (fun m => m.startZero r)
  | .sealMap part r va => d.modPart part (fun p => { p with maps := p.maps ++ [(r, va)] })
  | .sealUnmap part r va => d.modPart part (fun p => { p with maps := p.maps.filter (fun m => m != (r, va)) })
  | .train t => d.applyTrain t
  | .link l => d.applyLink l
  | .lamp l => d.applyLamp l
  | .tick => d
  | .killHeld _ => d
  | .wickNew _ _ _ => d.applyWick e x
  | .wickGone _ _ => d.applyWick e x
  | .wickBlocks _ _ _ _ _ => d.applyWick e x
  | .wickRank _ _ _ _ _ => d.applyWick e x
  | .wickPhase _ _ _ _ _ _ => d.applyWick e x
  | .wickRelease _ _ => d.applyWick e x
  | .wickMap _ _ _ => d.applyWick e x
  | .wickNonfinite _ => d.applyWick e x
  | .reqAdmit _ _ _ => d.applyReq c e x
  | .reqRelease _ => d.applyReq c e x
  | .reqExpire _ => d.applyReq c e x
  | .poolAdd _ _ => d.applyReq c e x
  | .poolRemove _ _ => d.applyReq c e x
  | .pagePlace _ _ _ _ => d.applyReq c e x
  | .periodOpen _ _ _ => d.applyReq c e x
  | .periodClose _ _ _ => d.applyReq c e x
  | .periodAbort _ _ => d.applyReq c e x
  | .tenantSet _ _ _ _ _ => d.applyReq c e x
  | .draftCtl _ _ => d.applyReq c e x
  | .draftNodes _ _ _ => d.applyReq c e x
  | .queueNew _ _ _ _ _ _ _ _ _ _ _ _ => d.applyPart x
  | .queueGone _ => d.applyPart x
  | .queueResume _ _ _ _ => d.applyPart x
  | .partNew _ _ _ _ _ _ _ => d.applyPart x
  | .partRegrow _ _ => d.applyPart x
  | .partFree _ => d.applyPart x
  | .partShare _ _ => d.applyPart x
  | .queueShare _ _ => d.applyPart x
  | .ctxSaved _ _ => d.applyPart x
  | .ctxActive _ _ => d.applyPart x
  | .reclaimed _ => d.applyPart x

end Sys2Proof.Machine
end

