-- ==== Sys2Proof/Machine/Kill.lean ====
section
/-! DEFINITION. Kills (R270 to R274, R543, R544): what a killed command gives up, final and re-runnable kills, the
commands of a chain, and how a queue halts. -/

namespace Sys2Proof.Machine


/-- Whether a packet still stands before its commit or its failure. -/
def Entry.open (e : Entry) : Bool := !e.isDone

/-- R591, R593: whether a command has sent its commit message, which publishes its effect on another device. -/
def Dev.commitSent (d : Dev) (e : Entry) : Bool :=
  !e.isDone && d.links.sent.any (fun s => s.cmd == some e.ref && isCommitMsg s.msg.body)

/-- R262, R274: whether a command is in its commit term: it has run, and so has every member of its chain; or it has sent its
commit message and awaits the acknowledgement. -/
def Dev.inTerm (d : Dev) (e : Entry) : Bool :=
  (e.isRan &&
    (match e.chain with
      | none => true
      | some n => d.live.all (fun x => x.2.chain != some n || x.2.isRan))) || d.commitSent e

/-- R272, R544: messages that a killed command sent are nobody's; those that it held back do not go. -/
def Dev.forget (d : Dev) (c : CmdRef) : Dev :=
  d.modLinks (fun l =>
    { l with sent := l.sent.map (fun s => if s.cmd = some c then { s with cmd := none } else s)
             heldMsgs := l.heldMsgs.filter (fun m => m.cmd != some c) })

/-- R504: a TAKE that does not commit sets again the bits that it cleared. -/
def Dev.untakeFor (d : Dev) (e : Entry) : Dev :=
  match e.payload with
  | .snapTake _ _ => if e.inFlight then d.modSnap e.hdr.part SnapSet.untake else d
  | .reclaim p _ _ => if e.coll.isSome then d.modSnap p SnapSet.untake else d
  | _ => d

/-- R548: the pages that a CTX_SAVE took for its save area and does not use. -/
def Dev.unsave (d : Dev) (e : Entry) : Dev :=
  let area : List Nat := match e.payload, e.phase with
    | .ctxSave _ _, .running (.stage _ r) => r.effects.flatMap (fun x => match x with
      | .ctxSaved _ s => s.area
      | _ => [])
    | .ctxSave _ _, .ran r => r.effects.flatMap (fun x => match x with
      | .ctxSaved _ s => s.area
      | _ => [])
    | _, _ => []
  area.foldl (fun d n => d.setUse .hbm n .free) d

/-- R189: the KV frames that a killed MEM_ALLOC had taken a slot of, and that hold nothing now, return to the free pool. -/
def Dev.untakeKv (d : Dev) (e : Entry) : Dev := e.kvTaking.foldl (fun d f => d.freeFrame e.hdr.part f) d

/-- R429: a killed STEP_WAIT that has no decision takes its issue tick back; its re-run forms a new one. -/
def Dev.unwait (d : Dev) (e : Entry) : Dev :=
  match e.payload with
  | .stepWait ctx _ _ _ _ => d.modXch ctx (fun x => if x.decision.isNone then { x with issueTick := none } else x)
  | _ => d

/-- R272, R543: what a killed command gives up, and the cycles that are lost. -/
def Dev.letGo (d : Dev) (e : Entry) (final : Bool) : Dev :=
  let d := if final then d.collLost e else d.collWithdraw e
  let d := (((((d.giveUp e).forget e.ref).untakeFor e).unwait e).unsave e).untakeKv e
  let lost := if islandOf e.hdr.opcode = .spindle ∨ islandOf e.hdr.opcode = .iod then e.runCycles else 0
  d.account e.hdr.queue e.hdr.part (fun a => a.addLost lost)

/-- R239: the cycles in the record of a command that another event stopped. -/
def Dev.stopCycles (d : Dev) (e : Entry) : Nat × Dev :=
  if e.isHeld && e.issued then
    let (k, d) := d.useFree
    (Config.cycles k, d)
  else (e.runCycles, d)

/-- R270, R543: one command or packet ends with a class-0x03 status. -/
def Dev.stopOne (d : Dev) (status : Nat) (yielded : Bool) (c : CmdRef) : Dev :=
  match d.entry c with
  | none => d
  | some e =>
    if e.isDone then d
    else
      let d := d.letGo e true
      let d := d.account e.hdr.queue e.hdr.part (fun a => { a with killFinal := (a.killFinal + 1) % 2 ^ 64 })
      let (n, d) := d.stopCycles e
      d.modEntry c (fun x =>
        { x with phase := .done (x.failure status n), yielded := x.yielded || yielded, chain := none, heldBy := none })

/-- R271: one re-runnable kill. One that is held already counts the kill too, and still waits for its unit. -/
def Dev.rerunOne (d : Dev) (yielded : Bool) (unit : Option UnitId) (c : CmdRef) : Dev :=
  match d.entry c with
  | none => d
  | some e =>
    if e.inFlight then
      let d := if e.isHeld then d else d.letGo e false
      let d := d.account e.hdr.queue e.hdr.part (fun a => { a with killRerun := (a.killRerun + 1) % 2 ^ 64 })
      d.modEntry c (fun x =>
        { x with phase := .rerun, reruns := x.reruns + 1, yielded := x.yielded || yielded, chain := none, heldBy := unit <|> x.heldBy })
    else d

/-- R122: the commands that a kill of these commands reaches: whole chains. -/
def Dev.withChains (d : Dev) (cs : List Entry) : List Entry :=
  let chains := cs.filterMap (·.chain)
  cs ++ (d.live.map (·.2)).filter (fun e =>
    !cs.any (fun x => x.ref == e.ref) && (match e.chain with
      | some n => chains.contains n
      | none => false))

/-- The commands that a test selects and that are in their commit term. -/
def Dev.inTermOf (d : Dev) (sel : Entry → Bool) : List Entry :=
  (d.live.map (·.2)).filter (fun e => sel e && d.inTerm e)

/-- A RECLAIM or a PART_RELEASE that has released what its partition held: no kill reaches it. -/
def Entry.released (e : Entry) : Bool :=
  match e.payload, e.phase with
  | .reclaim _ _ _, .running (.stage n _) => decide (4 ≤ n)
  | .partRelease _ _, .running (.stage n _) => decide (4 ≤ n)
  | _, _ => false

/-- The commands that a test selects and that a kill stops: neither ended nor in their commit term. -/
def Dev.killable (d : Dev) (sel : Entry → Bool) : List Entry :=
  (d.live.map (·.2)).filter (fun e => sel e && !e.isDone && !d.inTerm e && !e.released)

/-- R122, R270: a final kill. -/
def Dev.killFinally (d : Dev) (status : Nat) (yielded : Bool) (es : List Entry) : Dev :=
  (d.withChains es).foldl (fun d e => d.stopOne status yielded e.ref) d

/-- R122, R271: a re-runnable kill. -/
def Dev.killAgain (d : Dev) (yielded : Bool) (unit : Option UnitId) (es : List Entry) : Dev :=
  (d.withChains es).foldl (fun d e => d.rerunOne yielded unit e.ref) d

/-! ### Halts (R259) -/

/-- Whether a queue has no record to write before its next undispatched packet. -/
def recordsOut (es : List Entry) : Bool :=
  match es with
  | [] => true
  | e :: _ => e.isWaiting

/-- R259: a queue halts after the records that it owes. -/
def Queue.haltSoon (q : Queue) : Queue :=
  match q.state with
  | .running => if recordsOut q.entries then { q with state := .halted, haltDue := false } else { q with haltDue := true }
  | .saved => if q.savedState = .running then { q with savedState := .halted } else q
  | _ => q

def Dev.haltQueue (d : Dev) (q : Nat) : Dev := d.modQueue q Queue.haltSoon

/-- The queues of a partition. -/
def Dev.queuesOf (d : Dev) (part : Nat) : List Nat :=
  (d.qs.q.filter (fun kv => kv.2.part == part && decide (2 ≤ kv.1) && kv.2.exists)).map (·.1)

end Sys2Proof.Machine
end

