-- ==== Sys2Proof/Machine/Fetch.lean ====
section
/-! DEFINITION. Reading packets from a queue's submission ring (R234, R236, R246, R251, R661, R662), and flushing them
(R284, R285, R558). -/

namespace Sys2Proof.Machine

/-! ### Rings -/

/-- Whether queue 1 stands in the Lamplighter's local memory (R244, R609). -/
def Dev.localQueue (d : Dev) (q : Nat) : Bool := q == 1 && !d.lamp.cdUp

/-- The bytes of a ring at an offset. -/
def Dev.getRing (d : Dev) (q : Nat) (pieces : List Nat) (off n : Nat) : List Byte :=
  getBytes (if d.localQueue q then d.lamp.localMem else d.mem.bytes) (ringAddr pieces off) n

/-- R246: the offset of granule g. -/
def Queue.granuleOff (k : Queue) (g : Nat) : Nat := 64 * (g % 2 ^ k.sqLog2)

/-- The bytes of n granules from granule g on; a packet may wrap to the ring's start. -/
def Dev.granules (d : Dev) (q g n : Nat) : List Byte :=
  let k := d.queue q
  (List.range n).flatMap (fun i => d.getRing q k.sqPages (k.granuleOff (g + i)) 64)

/-- The device-physical addresses of n granules from granule g on. -/
def Queue.granuleAddrs (k : Queue) (g n : Nat) : List Nat :=
  (List.range n).map (fun i => ringAddr k.sqPages (k.granuleOff (g + i)))

/-- The first granule's address that holds an uncorrectable error. -/
def Dev.ueIn (d : Dev) (q : Nat) (addrs : List Nat) : Option Nat :=
  if d.localQueue q then none else addrs.find? (fun a => d.mem.ue.contains (a / 64))

/-- Counts modulo 2³² (R246). -/
def dist32 (a b : Nat) : Nat := (a + (2 ^ 32 - b % 2 ^ 32)) % 2 ^ 32

/-! ### Doorbells -/

/-- R246, R251: the granules that the accepted tail covers and that the device has not read; none where QUEUE_RESUME has
moved the head beyond the tail (R285). -/
def Queue.unreadGranules (k : Queue) : Nat := if dist32 k.tail k.head ≤ 2 ^ k.sqLog2 then dist32 k.tail k.head else 0

/-- R249, R250: a doorbell that is ignored; one for overrun also sets OVERRUN. -/
def Queue.ignoreDoorbell (k : Queue) (over_ : Bool) : Queue :=
  { k with dbIgnored := min max32 (k.dbIgnored + 1), overrun := k.overrun || over_ }

/-- R249. -/
def Queue.ringTail (k : Queue) (value : Nat) : Queue :=
  let v := value % 2 ^ 32
  let n := dist32 v k.tail
  if k.state = .disabled ∨ n = 0 ∨ 2 ^ 31 ≤ n then k.ignoreDoorbell false
  else if 2 ^ k.sqLog2 < dist32 v k.head then k.ignoreDoorbell true
  else { k with tail := v }

/-- R250. -/
def Queue.ringHead (k : Queue) (value : Nat) : Queue :=
  let v := value % 2 ^ 32
  let n := dist32 v k.cqHead
  let past := dist32 v k.written
  if k.state = .disabled ∨ n = 0 ∨ 2 ^ 31 ≤ n then k.ignoreDoorbell false
  else if past ≠ 0 ∧ past < 2 ^ 31 then k.ignoreDoorbell true
  else { k with cqHead := v }

/-- R248: the queue and the kind in the upper four bytes of a doorbell message. -/
def bellQueue (head : Nat) : Nat := head % 256
def bellKind (head : Nat) : Nat := head / 256 % 256

/-- R248 to R250: a doorbell: the upper and the lower four bytes of its message; one of another kind is ignored. -/
def Dev.doorbell (d : Dev) (head value : Nat) : Dev :=
  match bellKind head with
  | 0 => d.modQueue (bellQueue head) (fun k => k.ringTail value)
  | 1 => d.modQueue (bellQueue head) (fun k => k.ringHead value)
  | _ => d

/-! ### Room (R252, R366, R662) -/

/-- The records that a completion ring can still take. -/
def Queue.ringRoom (k : Queue) : Nat := 2 ^ k.cqLog2 - dist32 k.written k.cqHead

/-- The records that the device owes a queue. -/
def Queue.owed (k : Queue) : Nat := (k.entries.map (·.room)).sum

/-- R662. -/
def Queue.mayRead (k : Queue) : Bool := decide (k.owed + 1 ≤ k.ringRoom)

/-! ### A packet -/

/-- An entry as submission leaves it, before its checks. -/
def newEntry (h : Header) (p : Payload) (b : List Byte) (tick : Nat) : Entry :=
  { hdr := h, payload := p, bytes := b, phase := .waiting, reruns := 0, issued := false, yielded := false, ce := false,
    order := 0, since := 0, wc := 0, headSince := none, lapsed := false, submitted := tick, accepted := 0, heldBy := none, chain := none, room := 1, reqRecords := [] }

/-- What reading the next packet finds: the packet, its granules, a status that ends it at once, the address of an
uncorrectable error. A header that is bad or cannot be read counts as one granule. -/
structure Fetched where
  entry : Entry
  granules : Nat
  status : Nat
  ue : Option Nat
  deriving DecidableEq, Repr

/-- R235. -/
def headerOk (k : Queue) (q : Nat) (h : Header) : Bool :=
  decide (h.units ≤ 64) && h.queue == q && (if k.part < 14 then h.part == k.part else h.part == 0xFF) &&
    h.seq == k.nextSeq && h.rsvZero

def blankHeader (q seq : Nat) : Header :=
  { opcode := 0, flags := 0, units := 0, unit := 0, part := 0xFF, queue := q, rsvZero := true, seq := seq, wait0 := 0xFF,
    wait1 := 0xFF, sig := 0xFF, waitLimit := 0, wait0Val := 0, wait1Val := 0, sigVal := 0, tag := 0 }

/-- The header under which the device keeps a packet whose header is bad: the queue's expected number identifies it. -/
def keptHeader (h : Header) (k : Queue) (q : Nat) : Header :=
  { h with seq := k.nextSeq, queue := q, part := if k.part < 14 then k.part else 0xFF, sig := 0xFF }

/-- R234, R235, R251, R661: the next packet of a queue, where an accepted tail covers it. -/
def Dev.fetch (d : Dev) (q : Nat) : Option Fetched :=
  let k := d.queue q
  let avail := k.unreadGranules
  if avail = 0 then none
  else
    let hb := d.granules q k.head 1
    match d.ueIn q (k.granuleAddrs k.head 1) with
    | some a => some ⟨newEntry (blankHeader q k.nextSeq) .nop [] d.clk.tick, 1, stUncorrectable, some a⟩
    | none =>
      let h := parseHeader hb
      if !headerOk k q h then some ⟨newEntry (keptHeader h k q) .nop hb d.clk.tick, 1, stBadHeader, none⟩
      else
        let n := granulesOf h.units
        if avail < n then none
        else
          let b := d.granules q k.head n
          let ue := d.ueIn q (k.granuleAddrs (k.head + 1) (n - 1))
          some ⟨newEntry h ((parsePayload h.opcode (slice b 64 (16 * h.units))).getD .nop) b d.clk.tick, n,
            if ue.isSome then stUncorrectable else stOk, ue⟩

/-- R236, R251: a packet has been read; an entry of it stands at the end of the queue. -/
def Dev.take (d : Dev) (q : Nat) (f : Fetched) (e : Entry) : Dev :=
  let k := d.queue q
  let d := match f.ue with
    | some a => (d.modMem (fun m => m.noteUe a)).due ⟨memUnit a, unitIsland (memUnit a), 0x01, e.hdr.part, q, e.hdr.seq, a⟩
    | none => d
  let d := if d.localQueue q then d else d.correctAll ((k.granuleAddrs k.head f.granules).map (· / 64))
  d.modQueue q (fun k =>
    { k with entries := k.entries ++ [e], head := (k.head + f.granules) % 2 ^ 32, nextSeq := (k.nextSeq + 1) % 2 ^ 64 })

/-- A packet that ends as it is read. -/
def Entry.ended (e : Entry) (status : Nat) : Entry := { e with phase := .done (e.failure status 0) }

/-! ### Flushing -/

/-- R543: a flush counts like a final kill. -/
def countFinal (a : Acct) : Acct := { a with killFinal := (a.killFinal + 1) % 2 ^ 64 }

/-- The undispatched packets that the device has read receive ST_FLUSHED. -/
def Dev.flushWaiting (d : Dev) (q : Nat) (yielded : Bool) : Dev :=
  let k := d.queue q
  let ws := k.entries.filter Entry.isWaiting
  let d := ws.foldl (fun d e => d.account q e.hdr.part countFinal) d
  d.modQueue q (fun k => k.mapEntries (fun e => if e.isWaiting then { e.ended stFlushed with yielded := e.yielded || yielded } else e))

def Dev.waitingIn (d : Dev) (q : Nat) : Nat := ((d.queue q).entries.filter Entry.isWaiting).length

/-- How a flush of unread packets ended, and how many packets it took and, for want of room, did not record. -/
structure Flushed where
  dev : Dev
  flushed : Nat
  unwritten : Nat
  bad : Bool
  deriving DecidableEq, Repr

/-- The next unread packet of a queue is flushed: the block after it, how many records it leaves unwritten, and whether its
header is bad. It receives ST_FLUSHED where the completion ring has room; `drop` takes one without room as well, without a
record. -/
def Dev.flushNext (d : Dev) (q : Nat) (yielded drop : Bool) : Option (Dev × Nat × Bool) :=
  match d.fetch q with
  | none => none
  | some f =>
    let bad : Bool := f.status == stBadHeader || (f.status == stUncorrectable && f.granules == 1 && f.entry.bytes.isEmpty)
    if (d.queue q).mayRead then
      let e := { f.entry.ended (if bad then f.status else stFlushed) with yielded := yielded }
      some ((d.take q f e).account q e.hdr.part countFinal, 0, bad)
    else if drop then
      some ((d.modQueue q (fun k =>
        { k with head := (k.head + f.granules) % 2 ^ 32, nextSeq := (k.nextSeq + 1) % 2 ^ 64 })).account q f.entry.hdr.part
          countFinal, 1, bad)
    else none

/-- Unread packets up to the tail are flushed, at most as many as given. A bad header ends the flush with its own record. -/
def Dev.flushUnread (d : Dev) (q : Nat) (yielded drop : Bool) : Nat → Flushed
  | 0 => ⟨d, 0, 0, false⟩
  | n + 1 =>
    match d.flushNext q yielded drop with
    | none => ⟨d, 0, 0, false⟩
    | some (d', u, bad) =>
      if bad then ⟨d', 0, u, true⟩
      else
        let r := Dev.flushUnread d' q yielded drop n
        { r with flushed := r.flushed + 1, unwritten := r.unwritten + u }

end Sys2Proof.Machine
end

