-- ==== Sys2Proof/Machine/Flags.lean ====
section
/-! DEFINITION. The flags of a completion record (R239), and the record's bytes. -/

namespace Sys2Proof.Machine

/-- R239: bytes 2 and 3 of a record. -/
def recordFlags (e : Entry) (r : Result) (halted : Bool) : Nat :=
  setBit (r.outInf && commits r.status) 0 + setBit (r.outNan && commits r.status) 1 +
    setBit (r.permRange && commits r.status) 2 + setBit (decide (0 < e.reruns)) 4 + setBit e.yielded 5 +
    setBit (r.ce || e.ce) 6 + setBit (decide (max32 ≤ r.cycles)) 7 + setBit halted 8

/-- R259: whether the record of a result halts its queue. -/
def haltsAfter (e : Entry) (r : Result) (badHeader : Bool) : Bool :=
  badHeader || (e.hdr.haltOnFail && !commits r.status && r.status != stFlushed)

/-- R246: the phase bit of record number n of a ring of 2^c records. -/
def phaseBit (n c : Nat) : Bool := n / 2 ^ c % 2 == 0

/-- R239: the byte that holds the phase bit and the partition. -/
def phasePart (n c part : Nat) : Nat := setBit (phaseBit n c) 7 + (if part < 14 then part else 0xF)

/-- R239: the 32 bytes of record number n, in a ring of 2^c records, of a queue. -/
def recordBytes (e : Entry) (r : Result) (halted : Bool) (q n c part : Nat) : List Byte :=
  leBytes 2 r.status ++ leBytes 2 (recordFlags e r halted) ++ leBytes 1 e.hdr.opcode ++ leBytes 1 q ++
    leBytes 1 (phasePart n c part) ++ leBytes 1 (min 255 e.reruns) ++ leBytes 8 e.hdr.seq ++
    leBytes 4 r.c0 ++ leBytes 4 r.c1 ++ leBytes 4 r.c2 ++ leBytes 4 (min max32 r.cycles)

end Sys2Proof.Machine
end

