-- ==== Sys2Proof/Machine/Commit.lean ====
section
/-! DEFINITION. The commit point of a command and of a chain (R261 to R264, R268, R120), and the writing of records (R239,
R246, R259, R267, R364). -/

namespace Sys2Proof.Machine

/-! ### What a command meets in its commit term -/

/-- R268, R664: whether the command's writes cover only a part of a sector with a correctable error. -/
def Dev.partialCe (d : Dev) (effects : List Effect) : Bool :=
  let rs := writeRanges effects
  d.mem.ces.any (fun s => touchesSector rs s && !coversSector rs s)

/-- R340 to R342, R505: the status that a held effect meets at the commit point. A queue, a sealed mapping or a store whose
partition another command released meanwhile is refused (log entry 18). -/
def Dev.effectStatus (d : Dev) (x : Effect) : Nat :=
  match x with
  | .reqAdmit part _ a => d.admitStatus part a
  | .tenantSet t op part _ _ => if tenantRefused (d.tenant t) op part then stInUse else stOk
  | .train (.snapTaken part _ step _) => d.takeStatus part step
  | .queueNew q part _ _ s k sqVa cqVa _ _ _ _ =>
    if d.hasQueue q then stInUse
    else if d.ringRangeOk part sqVa (64 * 2 ^ s) && d.ringRangeOk part cqVa (32 * 2 ^ k) then stOk else stBadParam
  | .sealMap part _ _ => if (d.part part).state = .free then stBadParam else stOk
  | .train (.store _ s) => if (d.part s.host).state = .free then stBadParam else stOk
  | _ => stOk

/-- What ends a command in its commit term without a commit. -/
def Dev.commitFail (d : Dev) (r : Result) : Option Fail :=
  match d.partialUe r.effects with
  | some s => some ⟨stUncorrectable, none, some (64 * s)⟩
  | none => ((r.effects.map d.effectStatus).find? (fun st => st != stOk)).map (fun st => ⟨st, none, none⟩)

/-! ### The commit point -/

/-- A sector that writes cover together loses its error. -/
def Dev.clearCovered (d : Dev) (effects : List Effect) : Dev :=
  let rs := writeRanges effects
  if d.mem.ue.isEmpty && d.mem.ces.isEmpty then d
  else d.modMem (fun m => { m with ue := m.ue.filter (fun s => !coversSector rs s), ces := m.ces.filter (fun s => !coversSector rs s) })

/-- R608: command output goes with the record. -/
def isLate (x : Effect) : Bool :=
  match x with
  | .lamp (.output _) => true
  | _ => false

/-- Counters whose values belong to the commit point (R228, R240, R370, R525). -/
def finalCounts (before after : Dev) (e : Entry) (r : Result) : Result :=
  match e.payload with
  | .routeSet runs _ => { r with c1 := (before.routeChanges runs).length }
  | .timestamp => { r with c0 := before.tickAt 14 % 2 ^ 32, c1 := before.tickAt 14 / 2 ^ 32 % 2 ^ 32 }
  | .tenantSet t _ _ _ _ _ =>
    let b := unsigned64 (after.tenant t).balance
    { r with c1 := b % 2 ^ 32, c2 := b / 2 ^ 32 }
  | .poolAdd _ _ _ => { r with c1 := (freePool (after.pool e.hdr.part)).length }
  | .poolRemove _ _ _ => { r with c1 := (freePool (after.pool e.hdr.part)).length }
  | .vecTqFlush count _ => { r with c0 := min count (before.spin (before.spindleOf e)).tq.length }
  | .logMark _ _ _ _ =>
    let n := ((before.trainOf e.hdr.part).log.map (·.nextA)).getD 0
    { r with c0 := n % 2 ^ 32, c1 := n / 2 ^ 32 % 2 ^ 32 }
  | _ => r

/-- R537: the held commands that a KILL stops at its commit point. -/
def Dev.killHeldOf (d : Dev) (effects : List Effect) : Dev :=
  effects.foldl (fun d x => match x with
    | .killHeld cs => cs.foldl (fun d c => if (d.entry c).any Entry.isHeld then d.stopOne stKilled true c else d) d
    | _ => d) d

/-- R256: the signal of a command that commits. -/
def Dev.signalFor (d : Dev) (e : Entry) : Dev := d.signal (if e.hdr.part < 14 then e.hdr.part else 14) e.hdr.sig e.hdr.sigVal

/-- R261, R262: everything that a command holds takes place at once. -/
def Dev.publish (d : Dev) (c : CmdRef) (e : Entry) (r : Result) : Dev :=
  let d' := (d.keepOld (some c) (writeRanges r.effects)).clearCovered r.effects
  let d' := (r.effects.filter (fun x => !isLate x)).foldl (fun d x => d.apply c e x) d'
  let d' := d'.killHeldOf r.effects
  let d' := (d'.signalFor e).logCommand e r.status
  let r' := { finalCounts d d' e r with ce := r.ce || d.partialCe r.effects, effects := r.effects.filter isLate }
  d'.modEntry c (fun x => { x with phase := .done r' })

/-- A command in its commit term that does not commit. -/
def Dev.commitFails (d : Dev) (e : Entry) (r : Result) (f : Fail) : Dev :=
  (d.untakeFor e).failEntry e.ref e f r.cycles

/-- One command at its commit point. -/
def Dev.commitOne (d : Dev) (c : CmdRef) : Dev :=
  match d.entry c with
  | none => d
  | some e =>
    match e.phase with
    | .ran r =>
      (match d.commitFail r with
        | some f => d.commitFails e r f
        | none => d.publish c e r)
    | _ => d

/-- R284: whether doorbells have brought a queue more packets since its destroy flushed it. -/
def Dev.moreToFlush (d : Dev) (e : Entry) : Bool :=
  match e.payload with
  | .queueDestroy q _ _ => e.isRan && (d.fetch q).isSome && !(d.queue q).badHeader
  | _ => false

/-- COMMAND_COMMIT: the commit point of a command outside a chain. A destroy whose queue has packets again flushes them
first. -/
def doCommandCommit (d : Dev) (c : CmdRef) : Dev :=
  match d.entry c with
  | some e =>
    if d.moreToFlush e then d.setPhase c (.running (.stage 1 (Result.failed stOk 0 false)))
    else if e.chain.isNone then d.commitOne c else d
  | none => d

/-- The members of a chain, in order of issue. -/
def Dev.chainMembers (d : Dev) (sp n : Nat) : List Entry :=
  sortBy (fun a b => decide (a.order < b.order))
    ((d.live.map (·.2)).filter (fun e => e.chain == some n && !e.isDone && d.spindleOf e == sp))

/-- R120, R122, R256: the common commit point of a chain, in order of issue. A member that fails aborts the others. -/
def Dev.commitChain (d : Dev) (es : List Entry) : Dev :=
  let bad (e : Entry) : Option (Entry × Result × Fail) :=
    match e.phase with
    | .ran r => (d.commitFail r).map (fun f => (e, r, f))
    | _ => none
  match es.findSome? bad with
  | some (e, r, f) => d.commitFails e r f
  | none => es.foldl (fun d e => d.commitOne e.ref) d

def doChainCommit (d : Dev) (sp n : Nat) : Dev :=
  let es := d.chainMembers sp n
  if !es.isEmpty && es.all Entry.isRan then d.commitChain es else d

/-- R274: every command of a selection that is in its commit term commits. -/
def Dev.commitTerms (d : Dev) (sel : Entry → Bool) : Dev :=
  (d.inTermOf sel).foldl (fun d e =>
    match e.chain with
    | none => d.commitOne e.ref
    | some n => d.commitChain (d.chainMembers (d.spindleOf e) n)) d

/-! ### Records -/

/-- R661: the record of a header that could not be read. -/
def Entry.unread (e : Entry) (r : Result) : Bool := r.status == stUncorrectable && e.bytes.isEmpty

/-- R259: whether a record is one of a bad header. -/
def isBadHeader (e : Entry) (r : Result) : Bool := r.status == stBadHeader || e.unread r

/-- Bytes stored in a queue's ring at an offset. -/
def Dev.putRing (d : Dev) (q : Nat) (pieces : List Nat) (off : Nat) (data : List Byte) : Dev :=
  if d.localQueue q then
    { d with lamp := { d.lamp with localMem := putBytes d.lamp.localMem (ringAddr pieces off) data } }
  else d.poke false (ringAddr pieces off) data

/-- R609, R610: the side-band message of a queue-1 record, with its command's output, to where its packet came from. DESIGN CHOICE (log
entry 127): a packet that did not come by the side-band has its message on SB0. -/
def Dev.sbRecord (d : Dev) (q seq : Nat) (rec out : List Byte) : Dev :=
  if q = 1 then
    { d with lamp := { d.lamp with sbOut := d.lamp.sbOut ++ [((tfind d.lamp.cameBy seq).getD ⟨0, Config.alertEid 0⟩, 0x02 :: (rec ++ out))] } }
  else d

/-- R246, R267: one record written in a queue's completion ring, for a packet; `out` is the output that follows it. -/
def Dev.putRecord (d : Dev) (q seq : Nat) (rec out : List Byte) : Dev :=
  let k := d.queue q
  let d := d.putRing q k.cqPages (32 * (k.written % 2 ^ k.cqLog2)) rec
  (d.modQueue q (fun k => { k with written := (k.written + 1) % 2 ^ 32 })).sbRecord q seq rec out

/-- A request record with its queue and its phase bit. -/
def placeRecord (rec : List Byte) (q n c part : Nat) : List Byte :=
  rec.take 5 ++ leBytes 1 q ++ leBytes 1 (phasePart n c part) ++ rec.drop 7

/-- The partition whose requests a command's request records report. -/
def Entry.reqOwner (e : Entry) : Nat :=
  match e.payload with
  | .reclaim part _ _ => part
  | .partRelease part _ => part
  | _ => e.hdr.part

def countYield (a : Acct) : Acct := { a with yielded := (a.yielded + 1) % 2 ^ 64 }

/-- R364: the request records of a command, immediately before its own. -/
def Dev.putReqRecords (d : Dev) (q : Nat) (e : Entry) : Dev :=
  e.reqRecords.foldl (fun d rec =>
    let k := d.queue q
    let d := d.putRecord q e.hdr.seq (placeRecord rec q k.written k.cqLog2 k.part) []
    if bit (leAt rec 2 2) 5 then d.account q e.reqOwner countYield else d) d

/-- R510: an update that ended. -/
def Dev.noteUpdate (d : Dev) (e : Entry) (r : Result) : Dev :=
  match e.payload with
  | .trdUpdate p =>
    if e.order ≠ 0 ∧ (d.part e.hdr.part).state ≠ .free then
      let key := 2 * e.hdr.part + e.hdr.unit
      d.modTraining (fun t => match tfind t.last key with
        | some u => if u.order ≤ e.order then { t with last := tins t.last key ⟨e.order, p.step, r.status⟩ } else t
        | none => { t with last := tins t.last key ⟨e.order, p.step, r.status⟩ })
    else d
  | _ => d

/-- The bytes of command output that go with a record (R608). -/
def outputOf (effects : List Effect) : List Byte :=
  effects.flatMap (fun x => match x with
    | .lamp (.output b) => b
    | _ => [])

/-- R239: the record's bytes; a bad header's own sequence number stands in its record. -/
def Queue.recordOf (k : Queue) (q : Nat) (e : Entry) (r : Result) (halts : Bool) : List Byte :=
  let h := if r.status = stBadHeader then { e.hdr with seq := leAt e.bytes 8 8 } else e.hdr
  recordBytes { e with hdr := h } r halts q k.written k.cqLog2 k.part

/-- The first packet of a queue has its records written. -/
def Dev.writeFirst (d : Dev) (q : Nat) (e : Entry) (rest : List Entry) (r : Result) : Dev :=
  let d := d.putReqRecords q e
  let k := d.queue q
  let bad := isBadHeader e r
  let halts := haltsAfter e r bad || (k.haltDue && recordsOut rest)
  let rec_ := k.recordOf q e r halts
  let d := d.putRecord q e.hdr.seq rec_ (outputOf r.effects)
  let d := d.modQueue q (fun k =>
    { k with entries := rest, lastStatus := r.status, badHeader := k.badHeader || bad
             state := if halts && k.state == .running then .halted else k.state, haltDue := k.haltDue && !halts })
  let d := if e.yielded then d.account q e.hdr.part countYield else d
  let d := if e.hdr.notify then d.notify k.vec else d
  let d := d.noteUpdate e r
  let d := if q = 1 then { d with lamp := { d.lamp with cameBy := terase d.lamp.cameBy e.hdr.seq } } else d
  if (d.queue q).state = .disabled ∧ rest.isEmpty then { d with qs := { d.qs with q := terase d.qs.q q } } else d

/-- R120: whether a member of a command's chain that issued before it has its record yet to come. -/
def Dev.chainOwes (d : Dev) (e : Entry) : Bool :=
  e.chain.isSome && d.live.any (fun x => x.2.chain == e.chain && decide (x.2.order < e.order))

/-- RECORD_WRITE: the record of a queue's first packet, once it has its outcome; a saved queue's records stay held, and a
chain's are written in order of issue (R120). -/
def doRecordWrite (d : Dev) (q : Nat) : Dev :=
  let k := d.queue q
  match k.entries with
  | [] => d
  | e :: rest =>
    match e.phase with
    | .done r => if k.state = .saved ∨ d.chainOwes e then d else d.writeFirst q e rest r
    | _ => d

end Sys2Proof.Machine
end

