-- ==== Sys2Proof/Machine/Pilot.lean ====
section
/-! DEFINITION. Pilot operations (R123 to R126, R138, R139). A gap is counted in whole windows. -/

namespace Sys2Proof.Machine

/-- R138: the fields of a written SPN_PILOT_CFG. -/
def pilotCfgOf (w : Nat) : PilotCfg :=
  { en := bit w 31, high := bits w 19 16, low := bits w 15 12, ramp := bits w 9 8, gapMax := bits w 5 0 }

/-- The word that SPN_PILOT_CFG reads as. -/
def PilotCfg.word (p : PilotCfg) : Nat :=
  setBit p.en 31 + p.high * 2 ^ 16 + p.low * 2 ^ 12 + p.ramp * 2 ^ 8 + p.gapMax

/-- R138: the longest filled gap, in windows of 16 cycles. -/
def PilotCfg.gapWindows (p : PilotCfg) : Nat := min p.gapMax 0x20 * 4

/-- R123: ⌈16 × d⌉, from the command rows of the last 256 cycles. -/
def PilotCfg.target (p : PilotCfg) (rows : Nat) : Nat := max (min p.low p.high) (min p.high (ceilDiv rows 16))

/-- The partition that holds a Spindle. -/
def Dev.ownerOf (d : Dev) (sp : Nat) : Option Nat := (d.parts.p.find? (fun kv => kv.2.spindles.contains sp)).map (·.1)

/-- R126, R543: pilot rows count for the partition that holds the Spindle. -/
def Dev.chargePilots (d : Dev) (sp n : Nat) : Dev :=
  match d.ownerOf sp with
  | some p => d.modPart p (fun x => { x with acct := { x.acct with pilot := (x.acct.pilot + n) % 2 ^ 64 } })
  | none => d

/-- A window with k command rows: one without rows lengthens the present gap; one with rows ends it, and the gap's windows
then stand among the last 256 cycles before the next. -/
def Spindle.window (s : Spindle) (k : Nat) (bubble : Bool) : Spindle :=
  if k = 0 then { s with gap := s.gap + 1, bubbles := if bubble then s.bubbles + 1 else s.bubbles }
  else { s with gap := 0, bubbles := 0, ramp := 0, hist := (k :: (List.replicate (min s.gap 16) 0 ++ s.hist)).take 16 }

/-- R123: whether the present gap, its pass bubbles left out, is longer than pilot rows fill. -/
def Spindle.longGap (s : Spindle) : Bool := decide (s.pilot.gapWindows < s.gap - s.bubbles)

/-- R123, R126, R139: a window ends with some slots that carried command rows; `bubble` marks one whose other slots are of a
pass bubble, which pilot rows fill whatever its length. DESIGN CHOICE (log entry 152): a pass bubble counts as a gap for the
fraction A, and not for GAP_MAX. -/
def doPilotWindow (d : Dev) (sp slots : Nat) (bubble : Bool) : Dev :=
  let k := min slots 16
  let s := (d.spin sp).window k bubble
  let inBand := s.pilot.en && ((k == 0 && bubble) || !s.longGap)
  let occ := if inBand then max k (s.pilot.target s.hist.sum) else if s.pilot.en then max k s.occupied else k
  let pilots := if s.pilot.en then occ - k else 0
  let s := { s with
    occupied := occ, pilotRows := (s.pilotRows + pilots) % 2 ^ 64, ramp := if inBand then 0 else s.ramp + 1,
    pilot := s.pilotNext.getD s.pilot, pilotNext := none }
  (d.setSpin sp s).chargePilots sp pilots

/-- R124: a ramp step of a long gap ends. -/
def doPilotRamp (d : Dev) (sp : Nat) : Dev :=
  let s := d.spin sp
  if s.pilot.en ∧ s.longGap ∧ 2 ^ s.pilot.ramp ≤ s.ramp then
    d.setSpin sp { s with occupied := s.occupied - 1, ramp := 0 }
  else d

/-- R139: a write of SPN_PILOT_CFG waits for the next window boundary. -/
def doPilotCfgWrite (d : Dev) (sp w : Nat) : Dev := d.modSpin sp (fun s => { s with pilotNext := some (pilotCfgOf w) })

end Sys2Proof.Machine
end

