-- ==== Sys2Proof/Machine/Queues.lean ====
section
/-! DEFINITION. The commands of class 0x0 (R276, R281 to R286): NOP, TIMESTAMP, QUEUE_CREATE, QUEUE_DESTROY and
QUEUE_RESUME; and which queues a command holds stopped. -/

namespace Sys2Proof.Machine

/-! ### Stopped queues -/

/-- Whether a command at work stops dispatch on a queue (R284, R285, R546, R558). -/
def Dev.stopsQueue (d : Dev) (e : Entry) (q : Nat) : Bool :=
  e.begun &&
    (match e.payload with
      | .queueDestroy k _ _ => k == q
      | .queueResume k _ _ _ _ => k == q
      | .ctxSave p _ => decide (2 ≤ q) && (d.queue q).part == p
      | .reclaim p _ _ => decide (2 ≤ q) && (d.queue q).part == p
      | .partRelease p _ => decide (2 ≤ q) && (d.queue q).part == p
      | _ => false)

def Dev.queueStopped (d : Dev) (q : Nat) : Bool := d.live.any (fun x => d.stopsQueue x.2 q)

/-- Whether every record that stands before a command's own in a queue, or every record of another queue, is written. -/
def Dev.recordsWritten (d : Dev) (q : Nat) (c : CmdRef) : Bool := ((d.queue q).entries.takeWhile (fun e => e.ref != c)).isEmpty

/-- Whether a bad header stands at a queue's end. -/
def Dev.badAtEnd (d : Dev) (q : Nat) : Bool :=
  let k := d.queue q
  k.badHeader || k.entries.any (fun e => match e.phase with
    | .done r => isBadHeader e r
    | _ => false)

/-- Every undispatched packet of a queue, read or unread, receives ST_FLUSHED. -/
def Dev.flushAll (d : Dev) (q : Nat) (yielded drop : Bool) : Flushed :=
  let w := d.waitingIn q
  let bad := d.badAtEnd q
  let d := d.flushWaiting q yielded
  if bad then ⟨d, w, 0, true⟩
  else
    let r := d.flushUnread q yielded drop (d.queue q).unreadGranules
    { r with flushed := r.flushed + w }

/-! ### NOP and TIMESTAMP -/

def doNop (d : Dev) (c : CmdRef) : Dev :=
  d.onPacket c (fun e => match e.payload with
    | .nop => d.run c e (return okCounts 0 0 0)
    | _ => d)

/-- R240: TIMESTAMP; its counters are read at its commit point. -/
def doTimestamp (d : Dev) (c : CmdRef) : Dev :=
  d.onPacket c (fun e => match e.payload with
    | .timestamp => d.run c e (do
        hold .tick
        return okCounts 0 0 0)
    | _ => d)

/-! ### QUEUE_CREATE (R241 to R243, R247, R283) -/

def queueCreateOk (q part s c share attr : Nat) (rsv : Bool) : Bool :=
  rsv && decide (2 ≤ q) && decide (part < 14) && decide (6 ≤ s) && decide (s ≤ 16) && decide (7 ≤ c) && decide (c ≤ 16) &&
    decide (1 ≤ share) && decide (attr < 2)

def runQueueCreate (q part s c share vec attr sqVa cqVa first : Nat) : Run Counts := do
  let d ← getDev
  require (!d.hasQueue q) stInUse
  require (decide ((d.queuesOf part).length < 64)) stQuota
  let sqLen := 64 * 2 ^ s
  let cqLen := 32 * 2 ^ c
  require (d.ringRangeOk part sqVa sqLen && d.ringRangeOk part cqVa cqLen &&
    (decide (sqVa + sqLen ≤ cqVa) || decide (cqVa + cqLen ≤ sqVa))) stBadParam
  hold (.queueNew q part share vec s c sqVa cqVa first (bit attr 0) (d.ringPieces part sqVa sqLen) (d.ringPieces part cqVa cqLen))
  return okCounts 0 0 0

def doQueueCreate (d : Dev) (c : CmdRef) : Dev :=
  d.onPacket c (fun e => match e.payload with
    | .queueCreate q part s k share vec attr sqVa cqVa first _ =>
      d.runClaimed c e (runQueueCreate q part s k share vec attr sqVa cqVa first)
    | _ => d)

/-! ### Work in stages -/

/-- A command goes on in a stage, with what it has counted so far. -/
def Dev.toStage (d : Dev) (c : CmdRef) (n : Nat) (r : Result) : Dev :=
  d.modEntry c (fun e => { e with phase := .running (.stage n r), issued := true })

/-- A command in stages has done its work: it waits for its commit point. -/
def Dev.stagesDone (d : Dev) (c : CmdRef) (e : Entry) (r : Result) : Dev :=
  let (n, d) := d.spend e
  d.setPhase c (.ran { r with cycles := n, ce := e.ce })

/-- The command `c` in stages has done its work, where its queue still holds it. -/
def Dev.endStages (d : Dev) (c : CmdRef) (r : Result) : Dev :=
  match d.entry c with
  | some e => d.stagesDone c e r
  | none => d

def Result.fresh : Result := Result.failed stOk 0 false

/-- The stage of a command, and what it has counted. -/
def Entry.stage (e : Entry) : Option (Nat × Result) :=
  match e.phase with
  | .running (.stage n r) => some (n, r)
  | _ => none

/-! ### QUEUE_DESTROY (R284) -/

def queueDestroyOk (mode : Nat) (rsv : Bool) : Bool := rsv && decide (mode ≤ 1)

/-- One visit of a destroy: packets are flushed as room allows; once every record is written, it is done. -/
def Dev.destroyGoes (d : Dev) (c : CmdRef) (q : Nat) : Dev :=
  let f := d.flushAll q false false
  let d := f.dev
  if d.recordsWritten q c && (f.bad || (d.fetch q).isNone) then d.endStages c { Result.fresh with effects := [.queueGone q] }
  else d

def doQueueDestroy (d : Dev) (c : CmdRef) : Dev :=
  match d.entry c with
  | none => d
  | some e =>
    match e.payload with
    | .queueDestroy q mode _ =>
      if e.phase = .dispatched then
        if q < 2 ∨ (d.queue q).state = .disabled then d.refuse c e stBadParam
        else
          let mine (x : Entry) : Bool := x.hdr.queue == q && x.ref != c
          let d := if mode = 1 then
              let d := d.commitTerms mine
              d.killFinally stKilled false (d.killable (fun x => mine x && !x.isWaiting))
            else d
          (d.toStage c 1 Result.fresh).destroyGoes c q
      else if e.stage.isSome then d.destroyGoes c q
      else d
    | _ => d

/-! ### QUEUE_RESUME (R260, R285, R286) -/

def queueResumeOk (mode : Nat) (rsv : Bool) : Bool := rsv && decide (mode ≤ 2)

/-- Mode 1 flushes up to the tail that the command found. -/
def Dev.flushTo (d : Dev) (q tail : Nat) : Flushed :=
  let t := (d.queue q).tail
  let r := (d.modQueue q (fun k => { k with tail := tail })).flushAll q false false
  { r with dev := r.dev.modQueue q (fun k => { k with tail := t }) }

/-- One visit of a resume; `r.c0` counts the packets flushed, `r.c1` is the tail that the command found. -/
def Dev.resumeGoes (d : Dev) (c : CmdRef) (q mode newHead newSeq : Nat) (r : Result) : Dev :=
  let f : Flushed := match mode with
    | 0 => ⟨d, 0, 0, false⟩
    | 1 => d.flushTo q r.c1
    | _ => ⟨d.flushWaiting q false, d.waitingIn q, 0, false⟩
  let r := { r with c0 := r.c0 + f.flushed }
  let d := f.dev.toStage c 1 r
  match d.entry c with
  | none => d
  | some e =>
    if mode ≠ 0 ∧ !d.recordsWritten q c then d
    else if mode = 1 ∧ f.bad then d.refuse c e stBadParam
    else if mode = 1 ∧ (d.queue q).head ≠ r.c1 then d
    else d.endStages c { r with c1 := 0, effects := [.queueResume q mode newHead newSeq] }

def doQueueResume (d : Dev) (c : CmdRef) : Dev :=
  match d.entry c with
  | none => d
  | some e =>
    match e.payload with
    | .queueResume q mode newHead newSeq _ =>
      if e.phase = .dispatched then
          let k := d.queue q
          if k.state ≠ .halted ∨ (k.badHeader ∧ mode ≠ 2) ∨ d.queueStopped q then d.refuse c e stBadParam
          else d.resumeGoes c q mode newHead newSeq { Result.fresh with c1 := k.tail }
      else
        match e.stage with
        | some (_, r) => d.resumeGoes c q mode newHead newSeq r
        | none => d
    | _ => d

end Sys2Proof.Machine
end

