-- ==== Sys2Proof/Machine/Partition.lean ====
section
/-! DEFINITION. The commands of class 0x1 (chapter 13), fault teardown (R555 to R557), and the ends of zeroing (R179, R183,
R354, R659). -/

namespace Sys2Proof.Machine

/-! ### Placement and quotas (R164, R533, R534, R549) -/

/-- R534: the free Spindles. -/
def Dev.freeSpindles (d : Dev) : List Nat :=
  (List.range 14).filter (fun s => !thas d.parts.spZero s && !d.parts.p.any (fun kv => kv.2.spindles.contains s))

/-- R533: the w lowest-numbered free Spindles. -/
def Dev.pickSpindles (d : Dev) (w : Nat) : Option (List Nat) :=
  let l := d.freeSpindles.take w
  if l.length = w then some l else none

/-- R164, R549: what one partition counts in the sum of the Skein quotas. -/
def skeinShare (x : Partition) : Nat := if x.state = .saved then x.wickUsed else x.quotaSkein

def Dev.skeinSum (d : Dev) : Nat := (d.parts.p.map (fun kv => skeinShare kv.2)).sum

/-- R537: the partition that a class-0x1 command names. -/
def namedPart (p : Payload) : Option Nat :=
  match p with
  | .partCreate x _ _ _ _ _ _ _ => some x
  | .partRegrow x _ _ => some x
  | .partRelease x _ => some x
  | .partShares 0 x _ _ => some x
  | .ctxSave x _ => some x
  | .ctxRestore x _ _ _ => some x
  | .kill 2 _ x _ _ _ => some x
  | .reclaim x _ _ => some x
  | _ => none

/-- R537: whether an earlier class-0x1 command that names the same partition is at work. -/
def Dev.partBusy (d : Dev) (e : Entry) : Bool :=
  match namedPart e.payload with
  | none => false
  | some p => d.live.any (fun x =>
      x.2.ref != e.ref && namedPart x.2.payload == some p && x.2.inFlight && decide (x.2.order < e.order))

/-- A class-0x1 command starts, or is visited again while it works. -/
def Dev.onPart (d : Dev) (c : CmdRef) (start : Entry → Dev) (more : Entry → Dev) : Dev :=
  match d.entry c with
  | none => d
  | some e =>
    if e.phase = .dispatched then (if d.partBusy e then d else start e)
    else
      match e.phase with
      | .running _ => more e
      | _ => d

/-! ### PART_CREATE and PART_SHARES (R533, R540, R566) -/

def partCreateOk (part w share attr n : Nat) (rsv : Bool) : Bool :=
  rsv && decide (part < 14) && decide (1 ≤ w) && decide (w ≤ 14) && decide (1 ≤ share) && decide (attr < 4) &&
    (!bit attr 1 || (decide (2 ≤ n) && decide (n ≤ 4096)))

def partRegrowOk (part w : Nat) (rsv : Bool) : Bool := rsv && decide (part < 14) && decide (1 ≤ w) && decide (w ≤ 14)

def runPartCreate (part w share attr spanId n iova : Nat) : Run Counts := do
  let d ← getDev
  require ((d.part part).state == .free) stBadParam
  let list ← if bit attr 1 then do
      let b ← readHost iova (2 * n)
      pure ((List.range n).map (fun i => leAt b (2 * i) 2))
    else pure []
  require (!bit attr 1 || list.contains d.links.devNum) stBadParam
  match d.pickSpindles w with
  | none => failWith stInUse
  | some l => do
    hold (.partNew part share (if bit attr 1 then spanId else 0) (bit attr 0) (bit attr 1) list l)
    return okCounts (maskOf l) list.length 0

def runPartRegrow (part w : Nat) : Run Counts := do
  let d ← getDev
  require ((d.part part).state == .reclaimed) stBadParam
  match d.pickSpindles w with
  | none => failWith stInUse
  | some l => do
    hold (.partRegrow part l)
    return okCounts (maskOf l) (d.part part).spanList.length 0

def doPartCreate (d : Dev) (c : CmdRef) : Dev :=
  d.onPart c (fun e => match e.payload with
    | .partCreate part w share attr spanId n iova _ => d.runClaimed c e (runPartCreate part w share attr spanId n iova)
    | _ => d) (fun _ => d)

def doPartCreateRegrow (d : Dev) (c : CmdRef) : Dev :=
  d.onPart c (fun e => match e.payload with
    | .partRegrow part w _ => d.runClaimed c e (runPartRegrow part w)
    | _ => d) (fun _ => d)

def partSharesOk (kind index share : Nat) (rsv : Bool) : Bool :=
  rsv && decide (kind ≤ 1) && (kind != 0 || decide (index < 14)) && decide (1 ≤ share)

def runPartShares (kind index share : Nat) : Run Counts := do
  let d ← getDev
  require (kind == 0 || (decide (2 ≤ index) && d.hasQueue index)) stBadParam
  hold (if kind = 0 then .partShare index share else .queueShare index share)
  return okCounts index share 0

def doPartShares (d : Dev) (c : CmdRef) : Dev :=
  d.onPart c (fun e => match e.payload with
    | .partShares kind index share _ => d.runClaimed c e (runPartShares kind index share)
    | _ => d) (fun _ => d)

/-! ### KILL (R270, R537, R564, R566) -/

def killOk (scope part : Nat) (rsv : Bool) : Bool := rsv && decide (scope ≤ 2) && (scope != 2 || decide (part < 14))

def killSelects (c : CmdRef) (scope queue part seq : Nat) (e : Entry) : Bool :=
  e.ref != c &&
    (match scope with
      | 0 => e.hdr.queue == queue && e.hdr.seq == seq
      | 1 => e.hdr.queue == queue
      | _ => e.hdr.part == part)

def Dev.killTarget (d : Dev) (scope queue part seq : Nat) : Bool :=
  match scope with
  | 0 => (d.entry ⟨queue, seq⟩).isSome
  | 1 => d.hasQueue queue
  | _ => decide ((d.part part).state ≠ .free)

/-- KILL acts on what runs or waits at the commit point of what is in its commit term (R274), and at its own commit point on
what is held for re-run. -/
def Dev.killNow (d : Dev) (c : CmdRef) (scope queue part seq halt : Nat) : Dev :=
  let sel := killSelects c scope queue part seq
  let terms := (d.inTermOf sel).length
  let d := d.commitTerms sel
  let all := d.withChains (d.killable sel)
  let held := all.filter Entry.isHeld
  let now := all.filter (fun e => !e.isHeld)
  let d := d.killFinally stKilled true now
  let qs := nodupNat ((if scope = 2 then d.queuesOf part else [queue]) ++ all.map (·.hdr.queue))
  let d := if halt = 1 then qs.foldl Dev.haltQueue d else d
  d.endStages c { Result.fresh with c0 := all.length, c1 := terms, effects := [.killHeld (held.map Entry.ref)] }

def doKill (d : Dev) (c : CmdRef) : Dev :=
  d.onPart c (fun e => match e.payload with
    | .kill scope queue part halt seq _ =>
      if d.killTarget scope queue part seq then (d.toStage c 1 Result.fresh).killNow c scope queue part seq halt
      else d.refuse c e stBadParam
    | _ => d) (fun _ => d)

/-! ### CTX_SAVE (R546 to R549, R553) -/

def partNameOk (part : Nat) (rsv : Bool) : Bool := rsv && decide (part < 14)

/-- The Skein pages of a partition that CTX_SAVE saves or unmaps. -/
def Partition.skeinData (p : Partition) : Tbl Pte :=
  p.pt.filter (fun kv => match tierOf kv.2.pa with
    | some (.skein, _) => decide (kv.2.kind = .data)
    | _ => false)

/-- R552, R553: the pages of a save area. -/
def Partition.areaPages (p : Partition) : Nat := 2 * p.spindles.length + if p.forerunner then 0 else p.skeinData.length

/-- R546, R553: what a save keeps. -/
def runCtxSave (part held : Nat) (area : List Nat) : Run Counts := do
  let d ← getDev
  let x := d.part part
  let pages ← x.skeinData.mapM (fun kv => match x.forerunner with
    | true => pure (kv.1, [])
    | false => do
      let cells ← readPage kv.2.pa
      pure (kv.1, cells))
  hold (.ctxSaved part ⟨area, pages, x.spindles.map (fun s => (d.spin s).acc), x.spindles.map (fun s => ((d.spin s).tq, (d.spin s).tqHead))⟩)
  return okCounts held (if x.forerunner then 0 else pages.length) area.length

/-- The commands of a partition that are held for re-run. -/
def Dev.heldIn (d : Dev) (part : Nat) : Nat := ((d.live.map (·.2)).filter (fun e => e.hdr.part == part && e.isHeld)).length

/-- The copy of a save; a save that fails gives its area back, and the partition goes on (R271). -/
def Dev.saveCopy (d : Dev) (c : CmdRef) (e : Entry) (part : Nat) (r : Result) : Dev :=
  let area := r.effects.flatMap (fun x => match x with
    | .ctxSaved _ s => s.area
    | _ => [])
  let d := d.run c e (runCtxSave part (d.heldIn part) area)
  if (d.entry c).any Entry.isDone then area.foldl (fun d n => d.setUse .hbm n .free) d else d

/-- R546: the start of a save: its area is taken, and every dispatched command is killed re-runnably. -/
def Dev.saveStart (d : Dev) (c : CmdRef) (part : Nat) (area : List Nat) : Dev :=
  let d := area.foldl (fun d n => d.setUse .hbm n (.saved part)) d
  let d := d.toStage c 1 { Result.fresh with effects := [.ctxSaved part ⟨area, [], [], []⟩] }
  let d := d.commitTerms (fun e => e.hdr.part == part && e.ref != c)
  d.killAgain true none (d.killable (fun e => e.hdr.part == part && e.ref != c && e.inFlight))

def doCtxSave (d : Dev) (c : CmdRef) : Dev :=
  d.onPart c (fun e => match e.payload with
    | .ctxSave part _ =>
      let x := d.part part
      let area := d.claimed.mem.freePages .hbm (fun _ => true) x.areaPages
      if x.state ≠ .active then d.refuse c e stBadParam
      else if area.length < x.areaPages then d.refuse c e stQuota
      else d.saveStart c part area
    | _ => d)
  (fun e => match e.payload, e.stage with
    | .ctxSave part _, some (_, r) =>
      if (d.live.any (fun x => x.2.hdr.part == part && x.2.ref != c && x.2.isRan)) then d else d.saveCopy c e part r
    | _, _ => d)

/-! ### CTX_RESTORE (R550, R551, R554) -/

def ctxRestoreOk (part n va : Nat) (rsv : Bool) : Bool := rsv && decide (part < 14) && decide (n ≤ 4096) && vaOk va

/-- An entry of a reload table. -/
def parseReload (b : List Byte) (i : Nat) : Nat × Nat × Nat × Bool :=
  (leAt b (24 * i) 8, leAt b (24 * i + 8) 8, leAt b (24 * i + 16) 4, zeroAt b (24 * i + 20) 4)

/-- Whether a source range of a reload lies in HBM or DDR5 data pages of the partition. -/
def Dev.reloadSrcOk (d : Dev) (part va n : Nat) : Bool :=
  (piecesOf va n).all (fun p => decide (p.1 < 2 ^ 48) &&
    (match (d.part part).lookup p.1 with
      | some (e, pa) => decide (e.kind = .data) && (match tierOf pa with
        | some (.hbm, _) => true
        | some (.ddr, _) => true
        | _ => false)
      | none => false))

/-- R554: the pages that a reload table fills, as keys with their bytes. -/
def runReload (part n va : Nat) (saved : List Nat) : Run (List (Nat × List Byte)) := do
  let d ← getDev
  let b ← readIn accPlain part va (24 * n)
  let es := (List.range n).map (parseReload b)
  let pages ← es.mapM (fun e => do
    require (e.2.2.2 && e.1 % pageBytes == 0 &&
      (List.range e.2.2.1).all (fun i => saved.contains ((e.1 + pageBytes * i) / 65536)) &&
      d.reloadSrcOk part e.2.1 (pageBytes * e.2.2.1)) stBadParam
    (List.range e.2.2.1).mapM (fun i => do
      return ((e.1 + pageBytes * i) / 65536, ← readIn accPlain part (e.2.1 + pageBytes * i) pageBytes)))
  return pages.flatten

def runCtxRestore (part n va : Nat) : Run Counts := do
  let d ← getDev
  let x := d.part part
  require (x.state == .saved) stBadParam
  require (n == 0 || x.forerunner) stBadParam
  let s := x.saved
  let frames := d.mem.freePages .skein (fun _ => true) s.pages.length
  match d.pickSpindles s.acc.length with
  | none => failWith stInUse
  | some l => do
    require (decide (d.skeinSum - x.wickUsed + x.quotaSkein ≤ 376) && frames.length == s.pages.length) stQuota
    let fresh ← if n = 0 then pure [] else runReload part n va (s.pages.map (·.1))
    (s.pages.zip frames).forM (fun pf => do
      let pa := paOf .skein pf.2
      let cells := (fresh.filter (fun f => f.1 == pf.1.1)).foldl (fun _ f => cellsOf 0 f.2) pf.1.2
      hold (.block pa pageBytes cells)
      hold (.map part pf.1.1 ⟨pa, .data⟩)
      hold (.pageUse .skein pf.2 (.mapped part)))
    hold (.ctxActive part l)
    return okCounts (maskOf l) (if x.forerunner then fresh.length else s.pages.length) (d.heldIn part)

def doCtxRestore (d : Dev) (c : CmdRef) : Dev :=
  d.onPart c (fun e => match e.payload with
    | .ctxRestore part n va _ => d.runClaimed c e (runCtxRestore part n va)
    | _ => d) (fun _ => d)

/-! ### RECLAIM and PART_RELEASE (R558 to R560, R565) -/

def reclaimOk (part : Nat) (rsv : Bool) : Bool := rsv && decide (part < 14)

/-- Whether a queue's submission ring, and its completion ring, are mapped; those of a saved partition may not be. -/
def Dev.sqLive (d : Dev) (q : Nat) : Bool := d.ringRangeOk (d.queue q).part (d.queue q).sqVa (64 * 2 ^ (d.queue q).sqLog2)
def Dev.cqLive (d : Dev) (q : Nat) : Bool := d.ringRangeOk (d.queue q).part (d.queue q).cqVa (32 * 2 ^ (d.queue q).cqLog2)

/-- The records that a queue owes, those of one command aside, are not written. -/
def Dev.dropRecords (d : Dev) (c : CmdRef) (q : Nat) (f : Flushed) : Flushed :=
  { f with dev := d.modQueue q (fun k => { k with entries := k.entries.filter (fun e => e.ref == c) })
           unwritten := f.unwritten + ((d.queue q).entries.filter (fun e => e.ref != c)).length }

/-- Undispatched packets of one queue are flushed. Of a saved queue whose submission ring was saved away only those that the device
has read are; where its completion ring was, none of its records can be written (R560). -/
def Dev.stopFlush (d : Dev) (c : CmdRef) (q : Nat) (yielded : Bool) : Flushed :=
  if (d.queue q).state = .saved then
    let s := d.sqLive q
    let d := d.modQueue q (fun k => { k with state := .halted })
    let f : Flushed := if s then d.flushAll q yielded true else ⟨d.flushWaiting q yielded, d.waitingIn q, 0, true⟩
    if f.dev.cqLive q then f else f.dev.dropRecords c q f
  else d.flushAll q yielded true

/-- Phases 1 and 2: what runs is killed, but a TAKE that has issued; what waits is flushed. The counts are the commands
killed or flushed and the records not written. -/
def Dev.stopAndKill (d : Dev) (c : CmdRef) (part : Nat) (yielded : Bool) : Dev × Nat × Nat :=
  let mine (e : Entry) : Bool := e.hdr.part == part && e.ref != c
  let d := if yielded then d.mapEntries (fun e => if mine e then { e with yielded := true } else e) else d
  let isTake (e : Entry) : Bool := match e.payload with
    | .snapTake _ _ => e.begun
    | _ => false
  let d := d.commitTerms mine
  let victims := d.withChains (d.killable (fun e => mine e && e.inFlight && !isTake e))
  let d := d.killFinally stKilled yielded victims
  (d.queuesOf part).foldl (fun x q =>
    let f := x.1.stopFlush c q yielded
    (f.dev, x.2.1 + f.flushed, x.2.2 + f.unwritten)) (d, victims.length, 0)

/-- R559: whether a RECLAIM takes a snapshot. -/
def Dev.reclaimTakes (d : Dev) (part snap : Nat) : Option Nat :=
  let t := d.trainOf part
  match t.snap with
  | some s => if snap = 1 ∧ (s.gens.head?).map (·.step) ≠ some t.step then some s.nextGen else none
  | none => none

/-- The TAKE of a RECLAIM starts; one that fails at once, or sends nothing, is over. -/
def Dev.reclaimTake (d : Dev) (c : CmdRef) (e : Entry) (part n unwritten : Nat) : Dev :=
  let d := d.takeFor c e part n (leBytes 4 unwritten)
  d.modEntry c (fun x => match x.phase with
    | .done r => { x with phase := .running (.stage 3 { Result.fresh with c1 := unwritten, c2 := r.status }) }
    | .ran r => { x with phase := .running (.coll true (leBytes 4 unwritten) r) }
    | _ => x)

/-- R505, R559: the end of a RECLAIM's TAKE. -/
def Dev.reclaimTaken (d : Dev) (c : CmdRef) (e : Entry) (part : Nat) (own : List Byte) (r : Result) : Dev :=
  let st := r.effects.foldl (fun st x => if st = stOk then d.effectStatus x else st) stOk
  let d := if st = stOk then r.effects.foldl (fun d x => d.apply c e x) d else d.modSnap part SnapSet.untake
  d.toStage c 3 { Result.fresh with c1 := leAt own 0 4, c2 := st }

/-- The page list of a request reads zero where its pages went back (R349). -/
def Dev.clearPageList (d : Dev) (part : Nat) (r : Request) : Dev :=
  r.pages.foldl (fun d kv => d.pokeVa part (pageListAt r.adm kv.1) (zeros 8)) d

/-- R337, R364, R560: the live requests of a partition expire; records that the ring cannot hold are not written. -/
def Dev.expireAll (d : Dev) (c : CmdRef) (part opcode : Nat) (yielded : Bool) : Dev × Nat :=
  let ids := (d.reqs.r.filter (fun kv => kv.2.part == part && kv.2.isLive)).map (·.1)
  let d := ids.foldl (fun d id => match d.request id with
    | some r => (d.clearPageList part r).expireNow c opcode id yielded
    | none => d) d
  let room := (d.queue c.queue).ringRoom - (d.queue c.queue).owed
  let n := ((d.entry c).map (fun e => e.reqRecords.length)).getD 0
  (d.modEntry c (fun e => { e with reqRecords := e.reqRecords.take room, room := e.room + min room n }), n - room)

/-- The queues of a partition end with it; the command's own queue ends after its record. -/
def Dev.dropQueues (d : Dev) (c : CmdRef) (part : Nat) : Dev :=
  (d.queuesOf part).foldl (fun d q => if q = c.queue then d else d.dropQueue q) d

/-- A partition's Spindles and Skein pages wait to be zeroed (R182, R183). -/
def Dev.releaseCores (d : Dev) (part : Nat) : Dev :=
  let x := d.part part
  let out := x.pt.filter (fun kv => (tierOf kv.2.pa).any (fun t => decide (t.1 = .skein)))
  let d := out.foldl (fun d kv => match tierOf kv.2.pa with
    | some (t, n) => d.setUse t n (.releasing part)
    | none => d) d
  let d := x.saved.area.foldl (fun d n => d.freePage .hbm n true) d
  let d := { d with parts := { d.parts with spZero := x.spindles.foldl (fun t s => tins t s part) d.parts.spZero } }
  let d := d.modWick (fun w => { w with descs := w.descs.filter (fun kv => kv.1 / 16 != part) })
  d.modPart part (fun p =>
    { p with spindles := [], saved := .empty, level2Held := p.level2, pt := p.pt.filter (fun kv => !out.any (fun o => o.1 == kv.1)) })

/-- A command that stands for the device itself where an ABORT is formed without a packet. -/
def deviceEntry (part : Nat) : Entry := newEntry { blankHeader 0xFF 0 with part := part } .nop [] 0

/-- R363, R555: every open period of a partition ends as by ABORT. -/
def Dev.abortAll (d : Dev) (part : Nat) : Dev :=
  (List.range 4).foldl (fun d slot =>
    if (d.period part slot).isNone then d
    else
      let e := deviceEntry part
      match (runAbort part slot) (.start d e.ref e) with
      | .ok _ x => x.eff.reverse.foldl (fun d y => d.apply e.ref e y) d
      | .error _ _ => d.abortPeriod part slot) d

/-- The pages that PART_RELEASE returns. -/
def Dev.pagesHeld (d : Dev) (part : Nat) : Nat :=
  let x := d.part part
  (x.pt.filter (fun kv => kv.2.kind == .data || kv.2.kind == .wick)).length + x.kvFrames.length +
    ((d.train.stores.filter (fun kv => kv.2.host == part)).map (fun kv => kv.2.pages.length)).sum

/-- Phase 4 of a RECLAIM. -/
def Dev.reclaimRelease (d : Dev) (c : CmdRef) (part : Nat) (r : Result) : Dev :=
  let w := (d.part part).spindles.length
  let (d, lost) := (d.abortAll part).expireAll c part 0x16 true
  let d := (d.dropQueues c part).releaseCores part
  d.toStage c 4 { r with c0 := w, c1 := r.c1 + lost }

/-- Phase 4 of a PART_RELEASE. -/
def Dev.releaseRelease (d : Dev) (c : CmdRef) (part : Nat) (r : Result) : Dev :=
  let ended := d.liveIn part
  let pages := d.pagesHeld part
  let (d, _) := (d.abortAll part).expireAll c part 0x11 false
  let d := (d.dropQueues c part).releaseCores part
  d.toStage c 4 { r with c1 := ended, c2 := pages }

/-- R183: whether something that a partition released is not yet zero. -/
def Dev.stillZeroing (d : Dev) (part : Nat) : Bool :=
  d.parts.spZero.any (fun kv => kv.2 == part) || d.mem.skein.any (fun kv => kv.2 == .releasing part)

def ownQueueGone (d : Dev) (c : CmdRef) (part : Nat) : List Effect :=
  if 2 ≤ c.queue ∧ (d.queue c.queue).part = part then [.queueGone c.queue] else []

/-- Whether every record of a partition's commands is written, but a command's own. -/
def Dev.partQuiet (d : Dev) (c : CmdRef) (part : Nat) : Bool := (d.queuesOf part).all (fun q => d.recordsWritten q c)

/-- LMP_RECLAIM_STATUS after a RECLAIM. -/
def Dev.noteReclaim (d : Dev) (part : Nat) (r : Result) : Dev :=
  let failed : Bool := r.c2 != max32 && r.c2 != stOk
  { d with parts := { d.parts with reclaim := ⟨part, failed, min 0xFFFF r.c1⟩ } }

def Dev.reclaimGoes (d : Dev) (c : CmdRef) (part snap : Nat) (e : Entry) : Dev :=
  match e.phase with
  | .running (.stage 1 r) =>
    if !d.partQuiet c part then d
    else
      (match d.reclaimTakes part snap with
        | some n => d.reclaimTake c e part n r.c1
        | none => d.toStage c 3 { r with c2 := max32 })
  | .running (.coll _ own r) => if d.awaits c then d else d.reclaimTaken c e part own r
  | .running (.stage 3 r) => d.reclaimRelease c part r
  | .running (.stage 4 r) =>
    if d.stillZeroing part then d
    else (d.noteReclaim part r).stagesDone c e { r with effects := .reclaimed part :: ownQueueGone d c part }
  | _ => d

def doReclaim (d : Dev) (c : CmdRef) : Dev :=
  d.onPart c (fun e => match e.payload with
    | .reclaim part _ _ =>
      let s := (d.part part).state
      if s = .active ∨ s = .saved then
        let (d, _, lost) := d.stopAndKill c part true
        { d with parts := { d.parts with reclaim := { d.parts.reclaim with part := part } } }.toStage c 1
          { Result.fresh with c1 := lost }
      else d.refuse c e stBadParam
    | _ => d)
  (fun e => match e.payload with
    | .reclaim part snap _ => d.reclaimGoes c part snap e
    | _ => d)

def doPartRelease (d : Dev) (c : CmdRef) : Dev :=
  d.onPart c (fun e => match e.payload with
    | .partRelease part _ =>
      if (d.part part).state = .free then d.refuse c e stBadParam
      else
        let (d, n, _) := d.stopAndKill c part false
        d.toStage c 1 { Result.fresh with c0 := n }
    | _ => d)
  (fun e => match e.payload with
    | .partRelease part _ =>
      (match e.stage with
        | some (n, r) =>
          if n = 1 then (if d.partQuiet c part then d.releaseRelease c part r else d)
          else if d.stillZeroing part then d
          else d.stagesDone c e { r with effects := .partFree part :: ownQueueGone d c part }
        | none => d)
    | _ => d)

/-! ### Fault teardown (R555 to R557, R537) -/

/-- R557, R627: a teardown is in progress while records of one are not written. -/
def Dev.tearing (d : Dev) (part : Nat) : Bool :=
  d.live.any (fun x => x.2.hdr.part == part && (match x.2.phase with
    | .done r => r.status == stPartitionReset
    | _ => false))

/-- R537: a CTX_SAVE of the partition, from whatever queue. -/
def Dev.savesOf (d : Dev) (part : Nat) : List CmdRef :=
  (d.live.filter (fun x => x.2.inFlight && (match x.2.payload with
    | .ctxSave p _ => p == part
    | _ => false))).map (·.2.ref)

/-- R537: a RECLAIM of a partition at work, which a teardown of that partition does not stop. -/
def Entry.reclaims (e : Entry) (part : Nat) : Bool :=
  match e.payload with
  | .reclaim p _ _ => p == part && e.begun
  | _ => false

def Dev.teardown (d : Dev) (part : Nat) : Dev :=
  let s := (d.part part).state
  if d.tearing part ∨ (s ≠ .active ∧ s ≠ .saved) then d
  else
    let mine (e : Entry) : Bool := e.hdr.part == part
    let d := (d.savesOf part).foldl (fun d c => d.stopOne stPartitionReset false c) d
    let d := d.commitTerms mine
    let d := d.killFinally stPartitionReset false (d.killable (fun e => mine e && e.inFlight && !e.reclaims part))
    let d := (d.queuesOf part).foldl Dev.haltQueue d
    let d := (d.zeroSpindles (d.part part).spindles).abortAll part
    d.modPart part (fun p => { p with acct := { p.acct with teardown := (p.acct.teardown + 1) % 2 ^ 64 } })

/-- R556: the span reset that goes with a teardown. -/
def Dev.sendSpanReset (d : Dev) (part : Nat) : Dev :=
  let x := d.part part
  if x.span then
    (x.spanList.filter (· != d.links.devNum)).foldl (fun d m => d.answer m (.spanReset x.spanId)) d
  else d

/-- A fault of this device tears a partition down. -/
def Dev.faultTeardown (d : Dev) (part : Nat) : Dev :=
  if d.tearing part then d else (d.teardown part).sendSpanReset part

/-- SPAN_RESET: a member's context of the span is torn down. -/
def doSpanReset (d : Dev) (spanId : Nat) : Dev :=
  ((d.parts.p.filter (fun kv => kv.2.span && kv.2.spanId == spanId)).map (·.1)).foldl Dev.teardown d

/-! ### Ends of zeroing -/

def targetAddr : ZeroTarget → Nat × Nat
  | .skeinPage p => (paOf .skein p, pageBytes)
  | .hbmPage p => (paOf .hbm p, pageBytes)
  | .ddrPage p => (paOf .ddr p, pageBytes)
  | .kvSlot _ f s => (paOf .hbm f + 65536 * s, 65536)

def targetTier : ZeroTarget → Nat
  | .skeinPage _ => 0
  | .ddrPage _ => 2
  | _ => 1

/-- R659: the item that ends: an ordered one only at the front of its tier's queue. -/
def Dev.zeroItem (d : Dev) (t : ZeroTarget) : Option ZeroItem :=
  match d.mem.zeroQ.find? (fun i => i.target == t) with
  | none => none
  | some i =>
    if !i.ordered || (d.mem.zeroQ.find? (fun j => j.ordered && targetTier j.target == targetTier t)) == some i then some i else none

/-- The bytes of an item are zero; its page returns to the free pool. A KV slot becomes free in its frame; a frame whose
last page is freed and whose slots are all zero returns to the pool (R189). -/
def Dev.zeroDone (d : Dev) (i : ZeroItem) : Dev :=
  let a := targetAddr i.target
  let d := (d.pokeBlock a.1 a.2 []).modMem (fun m => { m with zeroQ := m.zeroQ.erase i })
  match i.target with
  | .skeinPage p => d.setUse .skein p .free
  | .hbmPage p => d.setUse .hbm p .free
  | .ddrPage p => d.setUse .ddr p .free
  | .kvSlot part f _ => if d.live.any (fun x => x.2.hdr.part == part && x.2.kvTaking.contains f) then d else d.freeFrame part f

/-- The pages of a region that are not yet zero. -/
def Dev.regionItems (d : Dev) (r : Nat) : List ZeroItem := d.mem.zeroQ.filter (fun i => i.region == some r)

/-- BACKGROUND_ZERO_DONE: one released page or slot is zero; the last page of an unsealed region ends with UNSEAL_ZERO_DONE. -/
def doBackgroundZeroDone (d : Dev) (t : ZeroTarget) : Dev :=
  match d.zeroItem t with
  | none => d
  | some i =>
    match i.region with
    | some r => if (d.regionItems r).length ≤ 1 then d else d.zeroDone i
    | none => d.zeroDone i

/-- UNSEAL_ZERO_DONE: the last page of an unsealed region is zero, and the region ceases to exist (R179). -/
def doUnsealZeroDone (d : Dev) (r : Nat) : Dev :=
  match tfind d.mem.regions r, d.regionItems r with
  | some g, [i] =>
    if g.zeroing && (d.zeroItem i.target).isSome then
      (d.zeroDone i).modMem (fun m => { m with regions := terase m.regions r })
    else d
  | _, _ => d

/-- RELEASE_ZERO_DONE: a released partition's Spindles and Skein pages are zero and free (R183). -/
def doReleaseZeroDone (d : Dev) (part : Nat) : Dev :=
  let sps := (d.parts.spZero.filter (fun kv => kv.2 == part)).map (·.1)
  let pages := (d.mem.skein.filter (fun kv => kv.2 == .releasing part)).map (·.1)
  let d := d.zeroSpindles sps
  let d := { d with parts := { d.parts with spZero := d.parts.spZero.filter (fun kv => kv.2 != part) } }
  pages.foldl (fun d p => (d.pokeBlock (paOf .skein p) pageBytes []).setUse .skein p .free) d

/-- KV_PAGE_ZERO_DONE: a returned KV page is back in its pool (R354). -/
def doKvPageZeroDone (d : Dev) (part pa : Nat) : Dev :=
  match tfind (d.pool part) (pa / 65536) with
  | some g =>
    if g.zeroing then
      (d.pokeBlock (pa / 65536 * 65536) 65536 []).modPool part (fun t => tins t (pa / 65536) { g with zeroing := false })
    else d
  | none => d

end Sys2Proof.Machine
end

