-- ==== Sys2Proof/Machine/Lamp.lean ====
section
/-! DEFINITION. The Lamplighter's error records, error queue and alerts (R624, R631, R633, R634), its side-band messages
(R606 to R608), and its identity and its keys (R617 to R622). -/

namespace Sys2Proof.Machine

def Dev.modLamp (d : Dev) (f : Lamp → Lamp) : Dev := { d with lamp := f d.lamp }

/-! ### Error records -/

/-- R624: the unit that is the Lamplighter, and its island. -/
def lampUnit : UnitId := ⟨9, 0⟩
def lampIsland : Nat := 54

/-- R624: an error of the Lamplighter itself, without a command. -/
def lampError (code detail : Nat) : ErrorInfo := ⟨lampUnit, lampIsland, code, 0xFF, 0xFF, 0, detail⟩

/-- R624: the level at which a code starts; code 0x05 starts one above the unit's present level. -/
def startLevel (code present : Nat) : Nat :=
  match code with
  | 0x02 => 2
  | 0x03 => 1
  | 0x04 => 1
  | 0x05 => min 3 (present + 1)
  | 0x0D => 3
  | 0x10 => 3
  | 0x11 => 3
  | _ => 0

/-- R624: the 32 bytes of an error record. -/
def ErrRecord.bytes (r : ErrRecord) : List Byte :=
  leBytes 8 r.tick ++ leBytes 1 r.unit.cls ++ leBytes 1 r.unit.idx ++ leBytes 1 r.island ++
    leBytes 1 (r.level % 4 + setBit r.escalated 2 + setBit r.fatal 3) ++ leBytes 2 r.code ++ leBytes 1 r.part ++
    leBytes 1 r.queue ++ leBytes 8 r.seq ++ leBytes 6 r.detail ++ leBytes 2 r.number

/-- R633, R634: a record that is an alert event. -/
def ErrRecord.alerts (r : ErrRecord) : Bool := decide (1 ≤ r.level) || r.fatal

/-- R633: MGMT_ALERT_N for an error queue. -/
def alertOf (q : List ErrRecord) : Bool := q.any ErrRecord.alerts

/-- R631: whether the error queue stores a record. -/
def storesRecord (q : List ErrRecord) (level : Nat) : Bool :=
  decide (q.length < 63) || (decide (q.length < 64) && level == 3)

/-- R631: the circular log of 1,024 records in MRAM, oldest first. -/
def logged (log : List ErrRecord) (r : ErrRecord) : List ErrRecord := (log ++ [r]).drop (log.length - 1023)

/-- R634: an alert event counts on each side-band port. -/
def countAlert (ports : Tbl SidePort) : Tbl SidePort :=
  let up (p : SidePort) : SidePort := { p with events := p.events + 1 }
  tmod SidePort.reset (tmod SidePort.reset ports 0 up) 1 up

/-- R624, R631, R633: a record is written, or dropped. -/
def Lamp.addRecord (l : Lamp) (r : ErrRecord) : Lamp :=
  let stored := storesRecord l.errq r.level
  { l with
    errq := if stored then l.errq ++ [r] else l.errq
    dropped := if stored then l.dropped else min 0xFFFF (l.dropped + 1)
    number := (l.number + 1) % 65536
    mram := if 2 ≤ r.level then logged l.mram r else l.mram
    alert := l.alert || (stored && r.alerts)
    ports := if r.alerts then countAlert l.ports else l.ports }

/-- The record of an error that is taken now. -/
def Dev.errRecord (d : Dev) (e : ErrorInfo) (level : Nat) (escalated fatal : Bool) : ErrRecord :=
  ⟨d.clk.tick, e.unit, e.island, level, escalated, fatal, e.code, e.part, e.queue, e.seq, e.detail, d.lamp.number⟩

def Dev.fileError (d : Dev) (e : ErrorInfo) (level : Nat) (escalated fatal : Bool) : Dev :=
  d.modLamp (fun l => l.addRecord (d.errRecord e level escalated fatal))

/-- An error of level 0 that the Lamplighter meets in its own work. -/
def Dev.note (d : Dev) (e : ErrorInfo) : Dev := d.fileError e 0 false false

/-! ### Side-band messages -/

/-- R608: the enterprise number. -/
def vendorNumber : Nat := 0x00028D1A

/-- R608: a vendor message with any other enterprise number is discarded. -/
def Dev.onVendor (d : Dev) (vendor : Nat) (f : Dev → Dev) : Dev := if vendor = vendorNumber then f d else d

/-- R607, R608: a vendor message on a port and with an endpoint ID: its subtype and its body. -/
def Dev.sbSend (d : Dev) (dst : SbEnd) (body : List Byte) : Dev := d.modLamp (fun l => { l with sbOut := l.sbOut ++ [(dst, body)] })

/-- R608: an alert message. -/
def alertBody (events : Nat) (newest : List Byte) : List Byte := 0x06 :: (leBytes 2 (min 0xFFFF events) ++ newest)

/-- R634: an alert message goes on a port. It answers no request, so its endpoint ID is free (log entry 31). -/
def Dev.sendAlert (d : Dev) (port : Nat) (newest : List Byte) : Dev :=
  let p := tget SidePort.reset d.lamp.ports port
  (d.sbSend ⟨port, Config.alertEid port⟩ (alertBody p.events newest)).modLamp (fun l =>
    { l with ports := tput SidePort.reset l.ports port ⟨0, some d.clk.tick⟩ })

/-- R634: at most one message in 10,000 ticks on a port; none for no event, or when the queue is empty. -/
def doAlertSend (d : Dev) (port : Nat) : Dev :=
  let p := tget SidePort.reset d.lamp.ports port
  let due : Bool := match p.lastSent with
    | none => true
    | some t => decide (t + 10000 ≤ d.clk.tick)
  match d.lamp.errq.getLast? with
  | none => d
  | some r => if d.lamp.on ∧ port < 2 ∧ 0 < p.events ∧ due then d.sendAlert port r.bytes else d

/-! ### The device record (R614, R615) -/

/-- The record copy with a number: 0 is A, 1 is B. -/
def Lamp.copy (l : Lamp) (n : Nat) : List Byte := if n = 0 then l.copyA else l.copyB

/-- R614: a record that verifies. The full record begins with the fields of its summary. -/
def recordOk (serial least : Nat) (rec_ : List Byte) : Bool :=
  decide (256 ≤ rec_.length) && Config.recordSigOk rec_ && leAt rec_ 8 8 == serial && decide (least ≤ leAt rec_ 16 4)

def recordCounter (rec_ : List Byte) : Nat := leAt rec_ 16 4

/-- DEVREC_READ op 0: the 256-byte summary of a record. -/
def recordSummary (live : Nat) (rec_ : List Byte) : List Byte :=
  leBytes 4 0x5A424452 ++ leBytes 2 1 ++ leBytes 2 live ++ slice rec_ 8 184 ++ shake256 32 rec_ ++ zeros 32

/-! ### Identity and keys (R617 to R622) -/

def identityLimit : Nat := 1048576

/-- R622: EXHAUSTED and ID_LOW, each with its record when it is first set. -/
def Dev.noteIdentity (d : Dev) : Dev :=
  let low : Bool := decide (identityLimit - d.lamp.idIndex < 4096)
  let out : Bool := decide (identityLimit ≤ d.lamp.idIndex)
  let d := if low && !d.lamp.idLow then (d.note (lampError 0x0F 0)).modLamp (fun l => { l with idLow := true }) else d
  if out && !d.lamp.exhausted then (d.note (lampError 0x0F 0)).modLamp (fun l => { l with exhausted := true }) else d

/-- R618: the next index that the MRAM holds: the larger of the valid copies. -/
def Lamp.storedIndex (l : Lamp) : Option Nat :=
  match l.idA, l.idB with
  | some a, some b => some (max a b)
  | some a, none => some a
  | none, b => b

/-- R618: what a word of MRAM holds after index i + 1 was written to it: none where its check word does not match. -/
def idWord (word i : Nat) : Option Nat := if Config.readBackOk word i then some (i + 1) else none

/-- R618 to R620: an identity index is spent, and a new per-boot key is certified with it. An index that does not read back
from both words makes no signature (R619), and the key that stands stays. -/
def Dev.newKey (d : Dev) : Dev :=
  let i := d.lamp.idIndex
  if identityLimit ≤ i then d.noteIdentity
  else
    let d := (d.modLamp (fun l => { l with idIndex := i + 1, idA := idWord 0 i, idB := idWord 1 i })).noteIdentity
    if Config.readBackOk 0 i && Config.readBackOk 1 i then
      d.modLamp (fun l => { l with key := some ⟨l.keysMade, i, 0⟩, keysMade := l.keysMade + 1 })
    else d.note (lampError 0x0E 0)

/-- Stage 7 (R612, R618, R620). DESIGN CHOICE (log entry 174): where neither word of MRAM is valid the next index is not
known, and attestation is unavailable. -/
def Dev.stage7 (d : Dev) : Dev :=
  match d.lamp.storedIndex with
  | some i => (d.modLamp (fun l => { l with idIndex := i })).newKey
  | none => d

/-- The bytes of a per-boot public key and of a signature: what the device makes of its random numbers and secret seeds. -/
def signatureBytes (n use : Nat) : List Byte := (List.range n).map (Config.signatureByte use)

end Sys2Proof.Machine
end

