-- ==== Sys2Proof/Machine/Boot.lean ====
section
/-! DEFINITION. The boot stages (R612), device reset (R613), power-down and hold-down (R625, R643 to R645), and device-fatal
handling (R630). -/

namespace Sys2Proof.Machine

/-! ### What a reset of the compute die and the I/O dies clears -/

/-- The links and the host bridge in reset. What left the device stays sent; message numbers are not used again. -/
def Links.held (l : Links) : Links := { Links.reset with bridge := l.bridge, nextMsg := l.nextMsg, out := l.out }

/-- R13: what the MGD keeps while the other dies are held in reset. An action of level 3 goes on until stage 8 (R625). -/
def Lamp.bare (l : Lamp) : Lamp :=
  { l with cdUp := false, recovering := l.recovering.filter (·.level == 3), conts := [], cameBy := [], localMem := [] }

/-- R33: what a requester path keeps on the MGD: its latch of TICK_HI, LMP_ACCT_SEL, and its latches of the accounting
counters and of PWR_ENERGY. -/
def PathRegs.onMgd (p : PathRegs) : PathRegs :=
  { PathRegs.reset with
    acctSel := p.acctSel, tickHi := p.tickHi
    hi := p.hi.filter (fun x => match x.1 with
      | .acct _ => true
      | .energy => true
      | _ => false) }

/-- The requester paths when the other dies are held in reset. -/
def pathsOnMgd (t : Tbl PathRegs) : Tbl PathRegs :=
  (t.map (fun kv => (kv.1, kv.2.onMgd))).filter (fun kv => decide (kv.2 ≠ PathRegs.reset))

/-- R13, R613, R630, R645, R651: the compute die, the I/O dies and the links lose what they hold; commands that have not
committed receive no record. Host memory is not the device's. -/
def Dev.bare (d : Dev) : Dev :=
  { Dev.initial with
    clk := { d.clk with cdRefLost := [] }, mem := { Mem.reset with host := d.mem.host }, links := d.links.held,
    lamp := d.lamp.bare, power := d.power, paths := pathsOnMgd d.paths, free := d.free }

/-! ### Queues 0 and 1 (R244, R609) -/

/-- R244: a queue of the operator at a device-physical address. -/
def bootQueue (base vec : Nat) : Queue :=
  { newQueue 14 255 vec 10 11 base (base + 65536) 0 true [base] [base + 65536] with vec := vec }

/-- Queue 1 exists before stage 8, in the Lamplighter's local memory. -/
def Dev.openQueue1 (d : Dev) : Dev := d.setQueue 1 (bootQueue 0x20000 1)

def Dev.openQueues (d : Dev) : Dev := (d.setQueue 0 (bootQueue 0 0)).setQueue 1 (bootQueue 0x20000 1)

/-! ### Stage 4: the device record (R614, R616) -/

def Dev.recordAt (d : Dev) (b : BoardFacts) (n : Nat) : Bool := recordOk b.serial d.lamp.minCounter (d.lamp.copy n)

/-- The copy that stage 4 accepts. -/
def Dev.pickRecord (d : Dev) (b : BoardFacts) : Option Nat :=
  if d.recordAt b d.lamp.live then some d.lamp.live
  else if d.recordAt b (1 - d.lamp.live) then some (1 - d.lamp.live)
  else none

def Dev.takeRecord (d : Dev) (n : Nat) : Dev :=
  (d.modLamp (fun l => { l with live := n, recordBad := false, stage := 4 })).extendMeas 1 (shake256 32 (d.lamp.copy n))

/-! ### Stage 5: power (R642, R643) -/

/-- The enables that are asserted, in order; each waits for the power-good before it. -/
def Dev.raiseRails (d : Dev) (b : BoardFacts) : Dev :=
  d.modLamp (fun l => { l with enIo := true, enCore := b.pgIo, enHbm := b.pgIo && b.pgCore })

def Dev.railsGood (b : BoardFacts) : Bool := b.pgIo && b.pgCore && b.pgHbm

/-- R14: the enabled sites of a record's site map, ascending. -/
def recordSites (rec_ : List Byte) : List Nat := (List.range 16).filter (bit (leAt rec_ 20 2))

/-- The compute die and the I/O dies leave reset with the live record's site map, trims and repair maps in effect (R615);
logical Spindle n is the n-th enabled site (R15), and the sites that no Spindle has stay powered off (R14). -/
def Dev.releaseDies (d : Dev) : Dev :=
  let rec_ := d.lamp.copy d.lamp.live
  { d with lamp := { d.lamp with cdUp := true, stage := 5, applied := rec_, sites := (recordSites rec_).take 14 }
           power := { d.power with coreMv := List.replicate 4 800, sknMv := 800 } }

/-! ### Stage 6: training (R37, R152, R480, R575, R623) -/

/-- R152: the most common of the channels' DIMM counts, the smallest of those as common. -/
def commonCount (l : List Nat) : Nat :=
  (sortNat l).foldl (fun best x => if l.count best < l.count x then x else best) (l.foldl min (l.headD 0))

/-- R152: the DDR5 pages that are populated. -/
def ddrPopulated (dimms pages : List Nat) : Nat :=
  if dimms.all (fun n => n == dimms.headD 0 && n != 0) then 12 * (pages.foldl min (pages.headD 0)) / 12 * 12 else 0

/-- R152: the channels that receive an error record: those without a DIMM, and those whose count is not the most common. -/
def ddrFaults (dimms : List Nat) : List (Nat × Nat) :=
  let idx := (withIdx 0 dimms).map (fun p => (p.2, p.1))
  idx.filter (fun p => p.2 == 0 || p.2 != commonCount dimms)

def Dev.trainMemory (d : Dev) (b : BoardFacts) : Dev :=
  let dimms := (b.dimms ++ List.replicate 12 0).take 12
  let pages := (b.dimmPages ++ List.replicate 12 0).take 12
  let hbm := (List.range 16).foldl (fun t s =>
    tput HbmStack.reset t s ⟨bit b.hbmTrained s, bit b.hbmRepaired s, 0, 0⟩) []
  let d := d.modMem (fun m =>
    { m with hbmPages := min b.hbmPages 524288, ddrPages := min (ddrPopulated dimms pages) 4194304, hbmStacks := hbm })
  (ddrFaults dimms).foldl (fun d p => d.note ⟨⟨4, p.1⟩, 34 + p.1, 0x13, 0xFF, 0xFF, 0, p.2⟩) d

/-- R575, R594, R605: the Lamplighter enables every port; LNK0 and LNK1 may carry the host bridge instead. -/
def Dev.trainPorts (d : Dev) (b : BoardFacts) : Dev :=
  (List.range 8).foldl (fun d j =>
    d.modPort j (fun p =>
      if d.links.bridge && decide (j < 2) then { p with state := .host }
      else { p with enable := true, state := if bit b.linkUp j then .up else .training })) d

/-- R480: the Treadles' self-test; `trdFail` has, for each die, a bit for each rule that differs. -/
def Dev.testTreadles (d : Dev) (b : BoardFacts) : Dev :=
  (List.range 2).foldl (fun d die =>
    let bad := b.trdFail.getD die 0 % 16
    let d := d.modTreadle die (fun t => { t with tested := true, pass := bad == 0, ruleFail := bad, failed := bad != 0 })
    if bad = 0 then d else d.note ⟨⟨7, die⟩, 16 + die, 0x0B, 0xFF, 0xFF, 0, bad⟩) d

/-- R4: LMP_DEV_ID. -/
def devId : Nat := 0x42481601

/-- R605: the code of a port's state. -/
def PortState.code : PortState → Nat
  | .disabled => 0
  | .training => 1
  | .up => 2
  | .retrain => 3
  | .down => 4
  | .host => 5

/-- R623: the training results that M2 measures. -/
def Dev.trainingResults (d : Dev) : List Byte :=
  leBytes 4 devId ++ leBytes 4 d.mem.hbmPages ++ leBytes 4 d.mem.ddrPages ++
    (List.range 8).flatMap (fun j => leBytes 1 (d.port j).state.code)

def Dev.stage6 (d : Dev) (b : BoardFacts) : Dev :=
  let d := ((d.trainMemory b).trainPorts b).testTreadles b
  (d.extendMeas 2 (shake256 32 d.trainingResults)).modLamp (fun l => { l with stage := 6 })

/-! ### Stages 4 to 8 -/

/-- Stages 5 to 8, once a record is accepted. A rail that is not good stops the boot at stage 5. -/
def Dev.bootOn (d : Dev) (b : BoardFacts) : Dev :=
  if d.lamp.held then d
  else
    let d := d.raiseRails b
    if !Dev.railsGood b then d
    else
      let d := (d.releaseDies.stage6 b).stage7
      d.openQueues.modLamp (fun l => { l with stage := 8, recovering := [] })

/-- R649, R650: the power controller at boot: the cap, and the target and the limit that hold while PWR_BRAKE_N acts. -/
def Power.booted (p : Power) : Power :=
  { p with memLevel := if p.brake then min 16 Config.shareLevel else 16, target := if p.brake then 950 else 1900, avg := 0
           cap := p.stored.getD 1900000, coreMv := [], sknMv := 0 }

/-- Stages 4 to 8 (R612). -/
def Dev.boot4 (d : Dev) : Dev :=
  match d.lamp.board with
  | none => d
  | some b =>
    let d := { d with power := d.power.booted
                      lamp := { d.lamp with stage := 3, bootCount := (d.lamp.bootCount + 1) % 2 ^ 32, key := none, enIo := false,
                                            enCore := false, enHbm := false, recordBad := false } }
    let d := d.openQueue1
    match d.pickRecord b with
    | none => d.modLamp (fun l => { l with recordBad := true })
    | some n => (d.takeRecord n).bootOn b

/-! ### Stages 1 to 3 -/

/-- R612: the image that a slot of the flash shows, 8 MiB at most and of a version that MRAM allows. -/
def slotRuns (least : Nat) (x : ImageSlot) : Bool :=
  x.verified && decide (least ≤ x.version) && decide (x.image.length ≤ 8388608)

/-- What slot B holds: the image of the board, or what recovery mode has written over it. -/
def Dev.flashSlotB (d : Dev) (b : BoardFacts) : ImageSlot :=
  if d.lamp.flashB.isEmpty then b.slotB
  else ⟨Config.imageOk d.lamp.flashB, Config.imageVersion d.lamp.flashB, d.lamp.flashB⟩

/-- Stage 2 (R612): whether slot B's image runs, and the image. -/
def Dev.pickImage (d : Dev) (b : BoardFacts) : Option (Bool × List Byte) :=
  if slotRuns d.lamp.minVersion b.slotA then some (false, b.slotA.image)
  else if slotRuns d.lamp.minVersion (d.flashSlotB b) then some (true, (d.flashSlotB b).image)
  else none

def Dev.toRecovery (d : Dev) (stage : Nat) : Dev := d.modLamp (fun l => { l with recovery := true, stage := stage })

/-- Stage 3: every measurement is zero, then M0 is extended with the image. -/
def Dev.runImage (d : Dev) (slotB : Bool) (image : List Byte) : Dev :=
  let d := d.modLamp (fun l => { l with meas := [], slotB := slotB })
  let d := d.extendMeas 0 (shake256 32 image)
  if slotB then d.note (lampError 0x0F 0) else d

/-- Stages 1 to 8 (R612). -/
def Dev.bootFrom1 (d : Dev) : Dev :=
  match d.lamp.board with
  | none => d
  | some b =>
    let d := d.modLamp (fun l => { l with on := true, recovery := false, slotB := false, meas := [], stage := 0, key := none })
    if !b.flashOk then d.toRecovery 0
    else
      match d.pickImage b with
      | none => d.toRecovery 1
      | some (slotB, image) => (d.runImage slotB image).boot4

/-! ### Device reset (R613) and hold-down (R625) -/

/-- R613: M1 to M15 are zero; M0 stays. -/
def onlyM0 (m : Tbl (List Byte)) : Tbl (List Byte) := m.filter (fun kv => kv.1 == 0)

/-- R652: THERMTRIP_N is released by a device reset of SB_RST_N once every sensor reads 90 °C or less. -/
def Power.released (p : Power) : Power := { p with tripped := p.tripped && !p.cool }

/-- R613, R625: a device reset. Only that of SB_RST_N ends a hold-down, and not while a trip stands. -/
def Dev.deviceReset (d : Dev) (pin : Bool) : Dev :=
  if !d.lamp.on || d.lamp.recovery || d.lamp.board.isNone then d
  else
    let d := d.bare
    let p := if pin then d.power.released else d.power
    { d with power := p
             lamp := { d.lamp with meas := onlyM0 d.lamp.meas, held := if pin then p.tripped else d.lamp.held } }.boot4

/-- R625, R644, R645: the compute die and the I/O dies are held down until a device reset. -/
def Dev.holdDown (d : Dev) : Dev :=
  let d := d.bare.openQueue1
  { d with lamp := { d.lamp with held := true, enIo := false, enCore := false, enHbm := false, stage := min d.lamp.stage 4 }
           power := { d.power with coreMv := [], sknMv := 0 } }

/-- R630: device-fatal handling: FATAL and its record, an alert on each side-band port, then a restart from stage 1. -/
def Dev.fatalError (d : Dev) (e : ErrorInfo) (escalated : Bool) : Dev :=
  let r := d.errRecord e 3 escalated true
  let d := d.modLamp (fun l => { l.addRecord r with fatal := true, alert := true })
  let d := (d.sendAlert 0 r.bytes).sendAlert 1 r.bytes
  d.bare.bootFrom1

end Sys2Proof.Machine
end

