-- ==== Sys2Proof/Machine/Errors.lean ====
section
/-! DEFINITION. Errors and their escalation (R624 to R630): the level of an error, the actions of the levels, the ends of
those actions, and the re-issue of commands held for re-run (R271). -/

namespace Sys2Proof.Machine

/-! ### Units and commands -/

/-- R624: the unit on which a command runs. -/
def Dev.unitOf (d : Dev) (e : Entry) : UnitId :=
  match islandOf e.hdr.opcode with
  | .spindle => ⟨0, d.spindleOf e⟩
  | .skein => ⟨1, 0⟩
  | .lamplighter => lampUnit
  | .iod => if e.hdr.opcode / 16 = 9 then ⟨8, 0⟩ else ⟨7, (dieJob e).getD 0⟩

/-- Whether a command in flight has sent a message that leaves by a port. -/
def Dev.sendsBy (d : Dev) (e : Entry) (port : Nat) : Bool :=
  d.links.sent.any (fun s => s.cmd == some e.ref && bit (d.route s.msg.dst) 15 && d.route s.msg.dst % 8 == port)

/-- R625: whether a command is in flight on a unit. A memory unit and the network serve every command that has begun and that
the Lamplighter does not run itself. -/
def Dev.onUnit (d : Dev) (u : UnitId) (e : Entry) : Bool :=
  e.inFlight &&
    (e.heldBy == some u ||
      (match u.cls with
        | 0 => islandOf e.hdr.opcode == .spindle && d.runsOnSpindle u.idx e && decide (e.hdr.part < 14)
        | 1 => e.begun && islandOf e.hdr.opcode != .lamplighter
        | 2 => e.begun && islandOf e.hdr.opcode != .lamplighter
        | 3 => e.begun && islandOf e.hdr.opcode != .lamplighter
        | 4 => e.begun && islandOf e.hdr.opcode != .lamplighter
        | 5 => d.sendsBy e u.idx
        | 7 => dieJob e == some u.idx
        | 8 => e.hdr.opcode == 0x90 || e.hdr.opcode == 0x91
        | 9 => islandOf e.hdr.opcode == .lamplighter
        | _ => false))

/-! ### Recovering units (R626) -/

/-- Whether an action goes on: one of level 2 ends when every teardown has its records, one of level 3 at stage 8. -/
def Dev.recoveryActive (d : Dev) (r : Recovering) : Bool := r.level == 1 || r.level == 3 || r.parts.any d.tearing

def Dev.recoveringOf (d : Dev) (u : UnitId) : Option Recovering :=
  d.lamp.recovering.find? (fun r => r.unit == u && d.recoveryActive r)

/-- The present action of a unit is replaced. -/
def Dev.setRecovering (d : Dev) (r : Recovering) : Dev :=
  d.modLamp (fun l => { l with recovering := l.recovering.filter (fun x => x.unit != r.unit) ++ [r] })

/-! ### The actions (R625) -/

/-- Level 1: every command in flight on the unit is killed re-runnably and waits for the unit. -/
def Dev.restartUnit (d : Dev) (u : UnitId) : Dev :=
  let d := (d.setRecovering ⟨u, 1, d.clk.tick, []⟩).commitTerms (d.onUnit u)
  d.killAgain false (some u) (d.killable (d.onUnit u))

/-- Level 2: the partitions that hold the unit or have a command in flight on it. -/
def Dev.partsOn (d : Dev) (u : UnitId) : List Nat :=
  let holders := if u.cls = 0 then (d.parts.p.filter (fun kv => kv.2.spindles.contains u.idx)).map (·.1) else []
  sortNat (holders ++ ((d.live.map (·.2)).filter (fun e => d.onUnit u e && decide (e.hdr.part < 14))).map (·.hdr.part))

def Dev.tearUnit (d : Dev) (u : UnitId) : Dev :=
  let ps := d.partsOn u
  ps.foldl Dev.faultTeardown (d.setRecovering ⟨u, 2, d.clk.tick, ps⟩)

/-- Level 3: a device reset, or a hold-down for a trip and for a power-good. The unit recovers until stage 8 completes. -/
def Dev.resetFor (d : Dev) (u : UnitId) (code : Nat) : Dev :=
  let d := d.setRecovering ⟨u, 3, d.clk.tick, []⟩
  if code = 0x10 ∨ code = 0x11 then d.holdDown else d.deviceReset false

/-- R625: the record and the action of a level. -/
def Dev.actOn (d : Dev) (e : ErrorInfo) (level : Nat) (escalated : Bool) : Dev :=
  if e.code = 0x0D then (d.setRecovering ⟨e.unit, 3, d.clk.tick, []⟩).fatalError e escalated
  else
    let d := d.fileError e level escalated false
    match level with
    | 0 => d
    | 1 => d.restartUnit e.unit
    | 2 => d.tearUnit e.unit
    | _ => d.resetFor e.unit e.code

/-- R626: an error is taken, one level above the present one where its unit is recovering. -/
def Dev.takeError (d : Dev) (e : ErrorInfo) : Dev :=
  if !d.lamp.on then d
  else
    match d.recoveringOf e.unit with
    | none => d.actOn e (startLevel e.code 0) false
    | some r => d.actOn e (max (startLevel e.code r.level) (min 3 (r.level + 1))) true

/-- R629: errors taken together, in ascending unit class and index. -/
def unitBefore (a b : ErrorInfo) : Bool :=
  decide (a.unit.cls < b.unit.cls) || (a.unit.cls == b.unit.cls && decide (a.unit.idx < b.unit.idx))

/-- The errors that wait are taken, then those that this met, in at most n rounds. A round that meets an error ends a command
in flight, so that the rounds that `settle` gives are enough; what were left after them would have its records only. -/
def Dev.settleIn (d : Dev) : Nat → Dev
  | 0 => d.errDue.foldl Dev.note { d with errDue := [] }
  | n + 1 =>
    match d.errDue with
    | [] => d
    | es => Dev.settleIn ((sortBy unitBefore es).foldl Dev.takeError { d with errDue := [] }) n

/-- The errors that a command's effects met are taken with them. -/
def Dev.settle (d : Dev) : Dev := d.settleIn (d.live.length + 2)

/-- R137, R231, R268, R329, R372, R408: an uncorrectable error in state that a command holds or reads: its engine's registers,
a tile, a stored map, an entry of a table. The command that the error names fails. -/
def Dev.failNamed (d : Dev) (e : ErrorInfo) : Dev :=
  match if e.code = 0x01 then d.entry ⟨e.queue, e.seq⟩ else none with
  | some x =>
    if x.inFlight && !x.isHeld && !x.released then
      (((((d.untakeFor x).forget x.ref).unwait x).unsave x).untakeKv x).failEntry x.ref x ⟨stUncorrectable, none, none⟩ x.runCycles
    else d
  | none => d

/-- ERROR_TAKEN. -/
def doErrorTaken (d : Dev) (e : ErrorInfo) : Dev := (d.failNamed e).takeError e

/-! ### Re-issue (R271) -/

/-- Whether a CTX_SAVE of a partition is at work: its dispatched commands wait for the resume (R271). -/
def Dev.saving (d : Dev) (part : Nat) : Bool :=
  d.live.any (fun x => x.2.begun && (match x.2.payload with
    | .ctxSave p _ => p == part
    | _ => false))

/-- Whether a command held for re-run may issue: it is the first of its queue, its partition is active, its unit works. -/
def Dev.mayReissue (d : Dev) (e : Entry) : Bool :=
  e.isHeld && ((d.queue e.hdr.queue).entries.find? Entry.isHeld).any (fun x => x.ref == e.ref) &&
    (decide (14 ≤ e.hdr.part) || (d.part e.hdr.part).state == .active) && !d.saving e.hdr.part &&
    (match e.heldBy with
      | some u => (d.recoveringOf u).isNone
      | none => true)

def Dev.reissue (d : Dev) (c : CmdRef) : Dev :=
  match d.entry c with
  | some e => if d.mayReissue e then d.modEntry c (fun x => { x with phase := .dispatched, heldBy := none, since := d.qs.nextOrder }) else d
  | none => d

def doRerunIssue (d : Dev) (c : CmdRef) : Dev := d.reissue c

/-- UNIT_RESTART_DONE: a level-1 action ends, and the commands that waited for the unit issue again. -/
def doUnitRestartDone (d : Dev) (u : UnitId) : Dev :=
  match d.recoveringOf u with
  | some r =>
    if r.level = 1 then
      let mine := (d.live.map (·.2)).filter (fun e => e.heldBy == some u)
      let d := d.modLamp (fun l => { l with recovering := l.recovering.filter (fun x => x.unit != u) })
      mine.foldl (fun d e => d.reissue e.ref) d
    else d
  | none => d

/-- R628: a level-1 action has not ended within 10,000 ticks. -/
def doRecoveryTimeout (d : Dev) (u : UnitId) : Dev :=
  match d.recoveringOf u with
  | some r =>
    if r.level = 1 ∧ r.since + 10000 < d.clk.tick then d.takeError ⟨u, unitIsland u, 0x05, 0xFF, 0xFF, 0, 0⟩ else d
  | none => d

/-- R624: a command runs for four times its worst-case count. -/
def doWatchdog (d : Dev) (c : CmdRef) : Dev :=
  match d.entry c with
  | some e =>
    if e.inFlight ∧ !e.isHeld ∧ !d.inTerm e then
      let u := d.unitOf e
      d.takeError ⟨u, unitIsland u, 0x04, e.hdr.part, e.hdr.queue, e.hdr.seq, e.hdr.opcode⟩
    else d
  | none => d

/-- LOCKSTEP_FAULT (R630). -/
def doLockstepFault (d : Dev) : Dev := d.takeError (lampError 0x0D 0)

/-! ### Clocks (R28 to R32, R646) -/

/-- R32: a loss or a return of the MGD's reference clock. -/
def doRefclkLost (d : Dev) : Dev :=
  if d.clk.standby ∧ d.clk.refPresent then
    { d with clk := { d.clk with refPresent := false, refReturning := false, tickFree := true } }.takeError (lampError 0x08 0)
  else d

/-- R32: the MGD changes back at the next tick boundary. -/
def doRefclkReturn (d : Dev) : Dev :=
  if d.clk.standby ∧ !d.clk.refPresent then { d with clk := { d.clk with refPresent := true, refReturning := true } }.takeError (lampError 0x08 1)
  else d

/-- R30: an island's copy of the tick count: the count, or the count before it. -/
def copyOf (use now prev island : Nat) : Nat := if Config.tickLag use island then prev else now

/-- R28 to R32: a tick. While the reference is absent, or until the boundary at which it is used again, the tick is counted
from the internal oscillator. -/
def Clock.next (k : Clock) (use : Nat) : Clock :=
  let t := (k.tick + 1) % 2 ^ 64
  { k with tick := t, copies := (List.range k.copies.length).map (fun i => if i = 54 then t else copyOf use t k.tick i)
           refReturning := false, tickFree := k.tickFree || !k.refPresent || k.refReturning }

/-- R646: the islands that a reference clock feeds: 0 REFCLK_CD, 1 REFCLK_IODA, 2 REFCLK_IODB. -/
def clockUnits (clock : Nat) : List UnitId :=
  let span (cls lo n : Nat) : List UnitId := (List.range' lo n).map (fun i => ⟨cls, i⟩)
  match clock with
  | 0 => span 0 0 14 ++ [⟨1, 0⟩, ⟨2, 0⟩] ++ span 3 0 16
  | 1 => [⟨7, 0⟩] ++ span 4 0 6 ++ span 5 0 4
  | 2 => [⟨7, 1⟩] ++ span 4 6 6 ++ span 5 4 4
  | _ => []

/-- CD_REFCLK_LOST: code 0x03 for each island that the clock feeds (R646, R629). -/
def doCdRefclkLost (d : Dev) (clock : Nat) : Dev :=
  if d.lamp.cdUp ∧ clock < 3 then
    let lost : Dev := { d with clk := { d.clk with cdRefLost := sortNat (d.clk.cdRefLost ++ [clock]) } }
    ((clockUnits clock).foldl (fun (d : Dev) u => d.due ⟨u, unitIsland u, 0x03, 0xFF, 0xFF, 0, clock⟩) lost).settle
  else d

end Sys2Proof.Machine
end

