-- ==== Sys2Proof/Machine/Power.lean ====
section
/-! DEFINITION. Standby power, reset inputs, power-goods (R612, R613, R632, R643 to R645), the power controller (R647 to R650),
the sensors (R651, R652) and telemetry (R635). -/

namespace Sys2Proof.Machine

/-! ### Standby power -/

/-- R29, R612: the rise of the standby rails. The record copies that manufacture left count at the first rise. -/
def doStandbyPowerUp (d : Dev) (b : BoardFacts) : Dev :=
  if d.clk.standby then d
  else
    let first := d.lamp.copyA.isEmpty && d.lamp.copyB.isEmpty
    let d := { d with
      clk := { Clock.reset with standby := true, refPresent := true }
      links := { d.links with bridge := b.hostEn }
      power := { Power.reset with stored := d.power.stored }
      lamp := { d.lamp with board := some b, on := true, copyA := if first then b.mramA else d.lamp.copyA
                            copyB := if first then b.mramB else d.lamp.copyB
                            minVersion := if first then b.minVersion else d.lamp.minVersion } }
    d.bootFrom1

/-- What MRAM and flash keep without power (R609, R617, R631, R650). -/
def Lamp.mramOnly (l : Lamp) : Lamp :=
  { Lamp.off with live := l.live, copyA := l.copyA, copyB := l.copyB, minCounter := l.minCounter, minVersion := l.minVersion, idA := l.idA, idB := l.idB,
                  keysMade := l.keysMade, bootCount := l.bootCount, mram := l.mram, flashB := l.flashB, sbOut := l.sbOut }

/-- R29: the loss of the standby rails. -/
def doStandbyPowerLoss (d : Dev) : Dev :=
  if d.clk.standby then
    { Dev.initial with
      mem := { Mem.reset with host := d.mem.host }, lamp := d.lamp.mramOnly, power := { Power.reset with stored := d.power.stored }
      links := { d.links.held with bridge := false }, free := d.free }
  else d

/-! ### Reset inputs (R632) -/

/-- 100 ms and 1 µs, in ns. -/
def stuckNs : Nat := 100000000
def filterNs : Nat := 1000

/-- The filtered resets of the last 1,000,000 ticks. -/
def recentPulses (now : Nat) (ts : List Nat) : List Nat := ts.filter (fun t => decide (now < t + 1000000))

/-- An input that chattered is ignored until it has been high for 100 ms: no filtered reset for 100,000 ticks. -/
def ResetInput.quiet (r : ResetInput) (now : Nat) : Bool :=
  match r.pulses.getLast? with
  | some t => decide (t + 100000 ≤ now)
  | none => true

/-- Whether a pulse now is ignored. -/
def ResetInput.ignores (r : ResetInput) (now : Nat) : Bool := r.ignored && !r.quiet now

/-- A filtered pulse of an input that is not ignored. -/
def ResetInput.pulse (r : ResetInput) (now : Nat) : ResetInput :=
  { r with ignored := false, pulses := recentPulses now r.pulses ++ [now], level := true, stuckLow := false }

/-- A pulse that an ignored input shows delays the end of its chatter. -/
def ResetInput.noise (r : ResetInput) (now : Nat) : ResetInput := { r with pulses := recentPulses now r.pulses ++ [now] }

/-- The inputs: 0 is SB_RST_N, 1 is HOST_PERST_N. -/
def Lamp.input (l : Lamp) (i : Nat) : ResetInput := if i = 0 then l.rst else l.perst
def Lamp.setInput (l : Lamp) (i : Nat) (r : ResetInput) : Lamp := if i = 0 then { l with rst := r } else { l with perst := r }
def Dev.modInput (d : Dev) (i : Nat) (f : ResetInput → ResetInput) : Dev := d.modLamp (fun l => l.setInput i (f (l.input i)))

/-- R624: an error of an input. -/
def inputError (i : Nat) : ErrorInfo := ⟨⟨10, i⟩, lampIsland, 0x0A, 0xFF, 0xFF, 0, 0⟩

/-- R632: low for more than 100 ms; the reset is released. -/
def Dev.latchStuck (d : Dev) (i : Nat) : Dev := (d.modInput i (fun r => { r with stuck := true })).takeError (inputError i)

/-- An input goes high after a low level that was latched STUCK: nothing more comes of that level. -/
def ResetInput.rise (r : ResetInput) : ResetInput := { r with level := true, stuckLow := false }

/-- R632: eight filtered resets within 1,000,000 ticks. -/
def Dev.latchChatter (d : Dev) (i : Nat) : Dev :=
  (d.modInput i (fun r => { r with chatter := true, ignored := true })).takeError (inputError i)

def Dev.chatters (d : Dev) (i : Nat) : Bool := decide (8 ≤ (recentPulses d.clk.tick (d.lamp.input i).pulses).length)

/-- R613, R594: HOST_PERST_N resets the host bridge alone. -/
def Dev.resetBridge (d : Dev) : Dev :=
  if d.links.bridge then
    d.modLinks (fun l =>
      { l with l0 := false, bme := false, pasidEn := false, speed := 0, width := 0, hostUp := false, msixMask := [], msixPend := [],
               msixSent := [], msixAgain := [] })
  else d

/-- A filtered low pulse of an input, `lowNs` long. -/
def Dev.inputPulse (d : Dev) (i lowNs : Nat) : Dev :=
  if lowNs < filterNs ∨ !d.lamp.on then d
  else if (d.lamp.input i).ignores d.clk.tick then d.modInput i (fun r => r.noise d.clk.tick)
  else
    let d := d.modInput i (fun r => r.pulse d.clk.tick)
    let d := if i = 0 then d.deviceReset true else d.resetBridge
    let d := if stuckNs < lowNs then d.latchStuck i else d
    if d.chatters i then d.latchChatter i else d

/-- R632: whether stage 1 of a boot, or of the restart after a device-fatal fault, has yet to complete. -/
def Dev.beforeStage1 (d : Dev) : Bool := d.lamp.on && d.lamp.stage == 0

/-- SB_RST_N goes high after it was low for a time. -/
def doSbRstN (d : Dev) (lowNs : Nat) : Dev :=
  if d.beforeStage1 then d
  else if d.lamp.rst.stuckLow ∧ stuckNs < lowNs then d.modInput 0 ResetInput.rise
  else d.inputPulse 0 lowNs

/-- R632: an input has been low for more than 100 ms and is low still: its reset is released. An input that chattered is
ignored. -/
def Dev.inputSticks (d : Dev) (i : Nat) : Dev :=
  if (d.lamp.input i).stuckLow || (d.lamp.input i).ignores d.clk.tick then d
  else (d.modInput i (fun r => { r with level := false, stuckLow := true })).latchStuck i

/-- HOST_PERST_N has gone low and stays low: its filtered reset, or a pulse that is ignored. -/
def Dev.perstFalls (d : Dev) : Dev :=
  if (d.lamp.input 1).ignores d.clk.tick then d.modInput 1 (fun r => { r.noise d.clk.tick with level := false, seen := true })
  else
    let d := (d.modInput 1 (fun r => { r.pulse d.clk.tick with level := false, seen := true })).resetBridge
    if d.chatters 1 then d.latchChatter 1 else d

/-- HOST_PERST_N has held a level without a break for a time; the host bridge's reset is held while it is low, until STUCK
releases it. -/
def doHostPerstN (d : Dev) (high : Bool) (heldNs : Nat) : Dev :=
  if heldNs < filterNs ∨ !d.lamp.on then d
  else if high then d.modInput 1 (fun r => { r.rise with seen := false, ignored := r.ignored && decide (heldNs < stuckNs) })
  else if d.beforeStage1 then d.modInput 1 (fun r => { r with level := false })
  else
    let d := if d.lamp.perst.seen then d else d.perstFalls
    if stuckNs < heldNs then d.inputSticks 1 else d

/-- INPUT_STUCK: an input has been low for more than 100 ms and is low still. Its reset, which began when the filter saw the
level, is released; the model takes that reset here where the input's own event has not come yet. -/
def doInputStuck (d : Dev) (i : Nat) : Dev :=
  if d.lamp.on ∧ i < 2 then
    let d := if d.beforeStage1 ∨ !(d.lamp.input i).level then d else if i = 0 then d.inputPulse 0 filterNs else d.perstFalls
    d.inputSticks i
  else d

/-- INPUT_CHATTER: an input has made eight filtered resets within 1,000,000 ticks. -/
def doInputChatter (d : Dev) (i : Nat) : Dev := if d.lamp.on ∧ i < 2 ∧ d.chatters i then d.latchChatter i else d

/-! ### Power-goods (R643, R645) -/

/-- R624: an error of the power controller; unit is a SOURCE code or a rail. -/
def powerError (code unit detail : Nat) : ErrorInfo := ⟨⟨11, unit⟩, lampIsland, code, 0xFF, 0xFF, 0, detail⟩

/-- The first rail whose enable is asserted and whose power-good is not: 0 PG_IO, 1 PG_CORE, 2 PG_HBM. -/
def Dev.waitingRail (d : Dev) : Option Nat :=
  match d.lamp.board with
  | none => none
  | some b =>
    if d.lamp.cdUp then none
    else if d.lamp.enIo && !b.pgIo then some 0
    else if d.lamp.enCore && !b.pgCore then some 1
    else if d.lamp.enHbm && !b.pgHbm then some 2
    else none

/-- POWER_GOOD_TIMEOUT (R643). -/
def doPowerGoodTimeout (d : Dev) : Dev :=
  match d.waitingRail with
  | some r => d.takeError (powerError 0x11 r 0)
  | none => d

/-- POWER_GOOD_LOST (R645). -/
def doPowerGoodLost (d : Dev) (rail : Nat) : Dev :=
  let good : Bool := match rail with
    | 0 => d.lamp.enIo && d.lamp.board.any (·.pgIo)
    | 1 => d.lamp.enCore && d.lamp.board.any (·.pgCore)
    | 2 => d.lamp.enHbm && d.lamp.board.any (·.pgHbm)
    | _ => false
  if good then d.takeError (powerError 0x11 rail 0) else d

/-! ### The power controller (R642, R647 to R649) -/

def Dev.modPower (d : Dev) (f : Power → Power) : Dev := { d with power := f d.power }

/-- R19, R642: the highest frequency among the islands that a VDD_CORE supply feeds: its Spindles', and the network's. -/
def Power.supplyMhz (p : Power) (supply : Nat) : Nat :=
  if Config.networkSupply % 4 = supply then max 1600 p.target else p.target

/-- R642: what AVSBus requests for a target frequency. -/
def Power.trimmed (p : Power) : Power :=
  { p with coreMv := (List.range 4).map (fun i => Config.trimMv i (p.supplyMhz i)), sknMv := Config.trimMv 4 p.target }

/-- R647: one step down. -/
def Power.lower (p : Power) : Power :=
  if 950 < p.target then { p with target := p.target - 25 } else { p with memLevel := p.memLevel - 1 }

/-- R647: one step up. -/
def Power.lift (p : Power) : Power :=
  if p.memLevel < 16 then { p with memLevel := p.memLevel + 1 }
  else if p.target < 1900 then { p with target := p.target + 25 }
  else p

/-- R647, R649: an evaluation with an average power, in mW. While the brake acts the target and the limit stay at its values. -/
def Power.eval (p : Power) (avg : Nat) : Power :=
  let p := { p with avg := avg }
  if p.brake then p
  else if p.therm || decide (p.cap < avg) then p.lower
  else if 100 * avg < 97 * p.cap then p.lift
  else p

/-- Whether something that happens once in a number of ticks is due again. -/
def dueAgain (last : Option Nat) (period now : Nat) : Bool := last.all (fun t => decide (t + period ≤ now))

/-- POWER_EVAL: every 100 ticks (R647). -/
def doPowerEval (d : Dev) (avg : Nat) : Dev :=
  if d.lamp.on ∧ dueAgain d.power.evalAt 100 d.clk.tick then
    d.modPower (fun p =>
      let p := { p with evalAt := some d.clk.tick }
      if d.lamp.cdUp then (p.eval avg).trimmed else { p with avg := avg })
  else d

/-- R649: PWR_BRAKE_N takes a level, which passes its filter once it has held it for 1 µs. -/
def doPwrBrake (d : Dev) (low : Bool) (heldNs : Nat) : Dev :=
  if d.lamp.on ∧ filterNs ≤ heldNs then
    d.modPower (fun p =>
      if low then
        let p := { p with brake := true, target := 950, memLevel := min 16 Config.shareLevel }
        if d.lamp.cdUp then p.trimmed else p
      else { p with brake := false })
  else d

/-! ### Sensors (R649, R651, R652) -/

/-- Every sensor as (source, index, reading in 0.125 °C). Sensors of a die that is down read too. -/
def sensorList (s : Sensors) : List (Nat × Nat × Int) :=
  let of (source : Nat) (l : List Int) : List (Nat × Nat × Int) := (withIdx 0 l).map (fun p => (source, p.2, p.1))
  of 0 (s.cd.take 36) ++ of 1 (s.iodA.take 6) ++ of 2 (s.iodB.take 6) ++ of 3 (s.hbm.take 16) ++ [(4, 0, s.mgd)]

/-- Trip and throttle points, in °C. The MGD's sensor has no throttle point. -/
def tripPoint (source : Nat) : Int :=
  match source with
  | 3 => 105
  | 4 => 125
  | _ => 115

def throttlePoint (source : Nat) : Option Int :=
  match source with
  | 3 => some 95
  | 4 => none
  | _ => some 100

def atTrip (x : Nat × Nat × Int) : Bool := decide (8 * tripPoint x.1 ≤ x.2.2)
def atThrottle (x : Nat × Nat × Int) : Bool := (throttlePoint x.1).any (fun t => decide (8 * t ≤ x.2.2))

/-- R649: at least 5 °C below the throttle point. -/
def belowThrottle (x : Nat × Nat × Int) : Bool := (throttlePoint x.1).all (fun t => decide (x.2.2 ≤ 8 * (t - 5)))

/-- R652: 90 °C or less. -/
def isCool (x : Nat × Nat × Int) : Bool := decide (x.2.2 ≤ 720)

def sensorKey (x : Nat × Nat × Int) : Nat := 64 * x.1 + x.2.1

/-- R651: the counts of consecutive comparisons at a trip point. -/
def hotCounts (old : Tbl Nat) (xs : List (Nat × Nat × Int)) : Tbl Nat :=
  xs.foldl (fun t x => tput 0 t (sensorKey x) (if atTrip x then min 10 (tget 0 old (sensorKey x) + 1) else 0)) []

/-- The HBM stacks' temperatures in their status registers. -/
def Dev.readStacks (d : Dev) (s : Sensors) : Dev :=
  if d.lamp.cdUp then
    (withIdx 0 (s.hbm.take 16)).foldl (fun d p =>
      d.modMem (fun m => { m with hbmStacks := tmod HbmStack.reset m.hbmStacks p.2 (fun h => { h with tempC := (p.1 / 8).toNat % 256 }) })) d
  else d

/-- THERMAL_COMPARE: the comparison of every sensor, every 1 µs (R651). -/
def doThermalCompare (d : Dev) (s : Sensors) : Dev :=
  if !d.lamp.on || !dueAgain d.power.comparedAt 1 d.clk.tick then d
  else
    let xs := sensorList s
    let hot := hotCounts d.power.hot xs
    let enter := !d.power.therm && xs.any atThrottle
    let leave := d.power.therm && xs.all belowThrottle
    let d := (d.readStacks s).modPower (fun p =>
      { p with comparedAt := some d.clk.tick, hot := hot, cool := xs.all isCool, therm := (p.therm || enter) && !leave })
    match enter, xs.find? atThrottle with
    | true, some x => d.takeError (powerError 0x12 x.1 x.2.1)
    | _, _ => d

/-- R652: a trip of the MGD's sensor stops the Lamplighter until the standby rails are cycled. -/
def Dev.stopLamp (d : Dev) : Dev := d.modLamp (fun l => { l with on := false })

/-- THERMAL_TRIP: a sensor has stayed at its trip point for ten comparisons (R651). -/
def doThermalTrip (d : Dev) (source index : Nat) (s : Sensors) : Dev :=
  if d.lamp.on ∧ 10 ≤ tget 0 d.power.hot (64 * source + index) then
    let top := (sensorList s).foldl (fun (m : Int) x => max m x.2.2) 0
    let d := d.modPower (fun p =>
      { p with tripped := true, cool := (sensorList s).all isCool
               latched := true, source := source, index := index, tempC := min 255 (top / 8) })
    let d := d.takeError (powerError 0x10 source index)
    if source = 4 then d.stopLamp else d
  else d

/-! ### Island clocks and telemetry (R23, R635) -/

/-- Whether an island is clocked and out of reset. -/
def Dev.islandRuns (d : Dev) (n : Nat) : Bool :=
  if n = 54 then d.lamp.on
  else d.lamp.cdUp &&
    !(d.clk.cdRefLost.any (fun k => (clockUnits k).any (fun u => unitIsland u == n)))

/-- R19, R23: the present frequency of an island, in MHz. -/
def Dev.islandMhz (d : Dev) (n : Nat) : Nat :=
  if !d.islandRuns n then 0
  else if n < 15 then d.power.target
  else if n = 15 then 1600
  else if n < 18 then 1400
  else if n < 34 then 1600
  else if n < 46 then (if d.lamp.board.any (·.ddrSlow) then 1300 else 1600)
  else if n < 54 then 1328
  else 500

/-- R642: the voltage, in mV, to which an on-die regulator sets the rail of an adaptive island: 0 to 13 the Spindles, 15 the
network. The Skein's island runs from VDD_SKN. -/
def Dev.islandRail (d : Dev) (n : Nat) : Nat := if n = 14 then d.power.sknMv else Config.railMv n (d.islandMhz n)

def hottest (l : List Int) : Int := l.foldl max (l.headD 0)

/-- A signed 16-bit reading. -/
def tempBytes (t : Int) : List Byte := leBytes 2 (t % 65536).toNat

/-- R658: whether the cap, or the brake, holds the target or the memory limit down. -/
def Power.limited (p : Power) : Bool := !p.therm && !p.brake && (decide (p.target < 1900) || decide (p.memLevel < 16))

/-- R635: the 256 bytes of a telemetry record. -/
def Dev.sampleBytes (d : Dev) (s : Sensors) (powerMw : Nat) : List Byte :=
  leBytes 8 d.clk.tick ++ leBytes 4 powerMw ++ leBytes 4 d.power.cap ++ tempBytes (hottest s.cd) ++ tempBytes (hottest s.iodA) ++
    tempBytes (hottest s.iodB) ++ tempBytes s.mgd ++ tempBytes (hottest s.hbm) ++
    leBytes 2 (setBit d.power.limited 0 + setBit d.power.therm 1) ++ zeros 4 ++
    (List.range 55).flatMap (fun n => leBytes 2 (d.islandMhz n)) ++ zeros 114

/-- TELEMETRY_SAMPLE: every 100 ticks (R635); the energy since the last sample is a free value. -/
def doTelemetrySample (d : Dev) (s : Sensors) (powerMw : Nat) : Dev :=
  if d.lamp.on ∧ dueAgain d.power.sampledAt 100 d.clk.tick then
    let sample := d.sampleBytes s powerMw
    let (u, d) := (d.readStacks s).useFree
    (d.modLamp (fun l => { l with sample := sample })).modPower (fun p => { p with sampledAt := some d.clk.tick, energy := (p.energy + Config.energyStep u) % 2 ^ 64 })
  else d

end Sys2Proof.Machine
end

