-- ==== Sys2Proof/Machine/LampCmd.lean ====
section
/-! DEFINITION. The commands of class 0xB (R610, R611, R615, R621, R623, R631, R635, R656), and the side-band messages that
carry packets and continuation data (R608, R611). -/

namespace Sys2Proof.Machine

/-! ### Static checks (R610, R637, R657) -/

/-- R610: the output of a command from queue 1 follows its record; from another queue it goes to host memory. -/
def outOk (q out : Nat) : Bool := if q = 1 then out == 0 else out != 0

def attestReportOk (q out : Nat) (rsv : Bool) : Bool := rsv && outOk q out
def attestExtendOk (reg out : Nat) (rsv : Bool) : Bool := rsv && decide (8 ≤ reg) && decide (reg ≤ 15) && out == 0
def devrecReadOk (q op out : Nat) (rsv : Bool) : Bool := rsv && decide (op ≤ 1) && outOk q out
def devrecInstallOk (len : Nat) (rsv : Bool) : Bool := rsv && decide (1 ≤ len) && decide (len ≤ 65536)
def telemetryOk (q out : Nat) (rsv : Bool) : Bool := rsv && outOk q out
def errqReadOk (q n source out : Nat) (rsv : Bool) : Bool :=
  rsv && decide (1 ≤ n) && decide (n ≤ 64) && decide (source ≤ 1) && outOk q out
def powerCapOk (mw : Nat) (rsv : Bool) : Bool := rsv && decide (900000 ≤ mw) && decide (mw ≤ 1900000)

/-! ### Running -/

/-- Whether another class-0xB command has run and not committed. -/
def Dev.lampBusy (d : Dev) : Bool := d.live.any (fun x => x.2.hdr.opcode / 16 == 0xB && x.2.isRan)

/-- The Lamplighter's command processor runs one command at a time. -/
def Dev.onLamp (d : Dev) (c : CmdRef) (f : Entry → Dev) : Dev := d.onPacket c (fun e => if d.lampBusy then d else f e)

/-- Command output: with the record, or to host memory (R610, R601). -/
def putOutput (q out : Nat) (data : List Byte) : Run Unit := do
  if q = 1 then hold (.lamp (.output data))
  else
    require (← getDev).links.hostUp stLinkDown
    hold (.host out data)

/-! ### ATTEST (R620 to R623) -/

/-- The measurements that a mask includes. -/
def measBytes (m : Tbl (List Byte)) (mask : Nat) : List Byte :=
  (List.range 16).flatMap (fun i => if bit mask i then fitBytes 32 (tget [] m i) else zeros 32)

/-- The attestation report that the per-boot key k signs with index k.next. -/
def Dev.report (d : Dev) (k : BootKey) (mask : Nat) (nonce : List Byte) : List Byte :=
  leBytes 4 0x5A424154 ++ leBytes 2 1 ++ leBytes 2 mask ++ leBytes 8 ((d.lamp.board.map (·.serial)).getD 0) ++ leBytes 4 devId ++
    leBytes 4 d.lamp.bootCount ++ leBytes 8 d.clk.tick ++ fitBytes 32 nonce ++ leBytes 4 k.next ++ zeros 60 ++
    measBytes d.lamp.meas mask ++ signatureBytes 68 (4 * k.key) ++ zeros 12 ++ signatureBytes 2820 (4 * k.key + 1) ++
    signatureBytes 2500 (4 * (1024 * k.key + k.next) + 2)

def runReport (q out : Nat) (k : BootKey) (mask : Nat) (nonce : List Byte) : Run Counts := do
  let d ← getDev
  putOutput q out (d.report k mask nonce)
  return okCounts 6040 k.next (identityLimit - d.lamp.idIndex)

/-- R621: the key that signs the next report, its index spent; a key whose indices are used up is replaced. -/
def Dev.spendKey (d : Dev) : Option BootKey × Dev :=
  match d.lamp.key with
  | none => (none, d)
  | some k =>
    let d := if k.next < 1024 then d else d.newKey
    match d.lamp.key with
    | some k => if k.next < 1024 then (some k, d.modLamp (fun l => { l with key := some { k with next := k.next + 1 } })) else (none, d)
    | none => (none, d)

def doAttestReport (d : Dev) (c : CmdRef) : Dev :=
  d.onLamp c (fun e => match e.payload with
    | .attestReport mask out nonce _ =>
      let (k, d) := d.spendKey
      match k with
      | some k => d.run c e (runReport e.hdr.queue out k mask nonce)
      | none => d.refuse c e stUnavailable
    | _ => d)

/-- EXTEND uses no per-boot index, and the manual gives its record's ak_index no value: a free value. -/
def runExtend (reg : Nat) (digest : List Byte) (ak : Nat) : Run Counts := do
  hold (.lamp (.extend reg digest))
  return okCounts 0 ak (identityLimit - (← getDev).lamp.idIndex)

def doExtend (d : Dev) (c : CmdRef) : Dev :=
  d.onLamp c (fun e => match e.payload with
    | .attestExtend reg _ digest _ =>
      let (u, d) := d.useFree
      d.run c e (runExtend reg digest (Config.freeWord u).toNat)
    | _ => d)

/-! ### DEVREC_READ and DEVREC_INSTALL (R611, R614 to R616) -/

def runDevrecRead (q op out : Nat) : Run Counts := do
  let l := (← getDev).lamp
  let rec_ := l.copy l.live
  let data := if op = 0 then recordSummary l.live rec_ else rec_
  putOutput q out data
  return okCounts data.length (recordCounter rec_) l.live

def doDevrecRead (d : Dev) (c : CmdRef) : Dev :=
  d.onLamp c (fun e => match e.payload with
    | .devrecRead op out _ => d.run c e (runDevrecRead e.hdr.queue op out)
    | _ => d)

/-- R615: a new record into the copy that is not live. -/
def installRecord (rec_ : List Byte) : Run Counts := do
  let d ← getDev
  let l := d.lamp
  require (recordOk ((l.board.map (·.serial)).getD 0) l.minCounter rec_ &&
    decide (recordCounter (l.copy l.live) ≤ recordCounter rec_)) stBadSignature
  hold (.lamp (.install rec_))
  return okCounts (recordCounter rec_) (1 - l.live) 0

def runInstall (len iova : Nat) : Run Counts := do
  let rec_ ← readHost iova len
  installRecord rec_

/-- R611: whether a packet takes its record from continuation messages. -/
def Entry.continues (e : Entry) : Option Nat :=
  match e.payload with
  | .devrecInstall len iova _ => if e.hdr.queue = 1 ∧ iova = 0 then some len else none
  | _ => none

/-- The port that carried a queue-1 packet. -/
def Dev.portOf (d : Dev) (e : Entry) : Nat := ((tfind d.lamp.cameBy e.hdr.seq).map (·.port)).getD 0

/-- The continuation data that a command has so far; before the first message its wait counts from its packet. -/
def Dev.contOf (d : Dev) (e : Entry) : Continuation :=
  (d.lamp.conts.find? (fun k => k.cmd == e.ref)).getD ⟨e.ref, d.portOf e, [], e.submitted⟩

/-- R611: the commands of queue 1 that wait for continuation messages, in order, each with its length and its data so far. -/
def Dev.awaiting (d : Dev) : List (Nat × Continuation) :=
  (d.queue 1).entries.filterMap (fun e =>
    match e.continues with
    | some len => if !e.isDone && !e.isRan && decide ((d.contOf e).data.length < len) then some (len, d.contOf e) else none
    | none => none)

def Dev.dropCont (d : Dev) (c : CmdRef) : Dev := d.modLamp (fun l => { l with conts := l.conts.filter (fun k => k.cmd != c) })
def Dev.setCont (d : Dev) (k : Continuation) : Dev := (d.dropCont k.cmd).modLamp (fun l => { l with conts := l.conts ++ [k] })

/-- A record whose last byte is in, of a command that has issued. -/
def Dev.contDone (d : Dev) (k : Continuation) : Dev :=
  match d.entry k.cmd with
  | some e =>
    if e.stage.isSome && e.continues == some k.data.length then (d.dropCont k.cmd).run k.cmd e (installRecord k.data) else d
  | none => d

/-- R611: a continuation that breaks the order, or that is late. -/
def Dev.contFails (d : Dev) (k : Continuation) : Dev :=
  match d.entry k.cmd with
  | some e => (d.dropCont k.cmd).failEntry k.cmd e ⟨stBadParam, none, none⟩ e.runCycles
  | none => d.dropCont k.cmd

/-- SB_CONTINUATION: the next bytes of the record of the oldest command that waits for them on the port. -/
def doSbContinuation (d : Dev) (port offset : Nat) (data : List Byte) : Dev :=
  if !d.lamp.on || d.lamp.recovery then d
  else
    match d.awaiting.find? (fun x => x.2.port == port) with
    | none => d
    | some (len, k) =>
      if offset = k.data.length ∧ 1 ≤ data.length ∧ data.length ≤ 1024 ∧ offset + data.length ≤ len then
        let k := { k with data := k.data ++ data, tick := d.clk.tick }
        (d.setCont k).contDone k
      else d.contFails k

/-- CONTINUATION_TIMEOUT: 1,000,000 ticks without the next message, or without the first after the packet. -/
def doContinuationTimeout (d : Dev) : Dev :=
  (d.awaiting.filter (fun x => decide (x.2.tick + 1000000 < d.clk.tick))).foldl (fun d x => d.contFails x.2) d

def doDevrecInstall (d : Dev) (c : CmdRef) : Dev :=
  d.onLamp c (fun e => match e.payload with
    | .devrecInstall len iova _ =>
      if e.continues.isSome then
        (d.toStage c 1 Result.fresh).contDone (d.contOf e)
      else d.run c e (runInstall len iova)
    | _ => d)

/-! ### TELEMETRY, ERRQ_READ, POWER_CAP -/

/-- The latest sample; before the first one the bytes are free values. -/
def Dev.latestSample (d : Dev) : List Byte × Dev :=
  if d.lamp.sample.isEmpty then
    ((List.range 256).map (fun i => BitVec.ofNat 8 (Config.freeWord (d.free + i)).toNat), { d with free := d.free + 256 })
  else (d.lamp.sample, d)

def runTelemetry (q out : Nat) (sample : List Byte) : Run Counts := do
  putOutput q out sample
  return okCounts sample.length 0 0

def doTelemetry (d : Dev) (c : CmdRef) : Dev :=
  d.onLamp c (fun e => match e.payload with
    | .telemetry out _ =>
      let (s, d) := d.latestSample
      d.run c e (runTelemetry e.hdr.queue out s)
    | _ => d)

/-- R631: records of the error queue leave it at the commit point; the log's records stay, oldest first. DEDUCED: the
records left are those that the error queue holds unread, whatever the source. -/
def runErrqRead (q n source first out : Nat) : Run Counts := do
  let l := (← getDev).lamp
  let all := if source = 0 then l.errq else l.mram.drop first
  let rs := all.take n
  putOutput q out (rs.flatMap ErrRecord.bytes)
  if source = 0 then hold (.lamp (.errqTake rs.length))
  return okCounts rs.length (l.errq.length - (if source = 0 then rs.length else 0)) l.dropped

def doErrqRead (d : Dev) (c : CmdRef) : Dev :=
  d.onLamp c (fun e => match e.payload with
    | .errqRead n source first out _ => d.run c e (runErrqRead e.hdr.queue n source first out)
    | _ => d)

/-- R650, R656. -/
def runPowerCap (mw persist : Nat) : Run Counts := do
  hold (.lamp (.cap mw (persist == 1)))
  return okCounts mw (← getDev).power.cap 0

def doPowerCap (d : Dev) (c : CmdRef) : Dev :=
  d.onLamp c (fun e => match e.payload with
    | .powerCap mw persist _ => d.run c e (runPowerCap mw persist)
    | _ => d)

/-! ### Packets and answers on the side-band (R608) -/

/-- R249: whether a queue's ring has room for granules. -/
def Queue.sqRoom (k : Queue) (n : Nat) : Bool := decide (dist32 (k.tail + n) k.head ≤ 2 ^ k.sqLog2)

/-- A packet's granules laid in queue 1's ring from its tail. -/
def Dev.appendGranules (d : Dev) (n : Nat) (b : List Byte) : Dev :=
  let k := d.queue 1
  let d := (List.range n).foldl (fun d i => d.putRing 1 k.sqPages (k.granuleOff (k.tail + i)) (slice b (64 * i) 64)) d
  d.modQueue 1 (fun k => { k with tail := (k.tail + n) % 2 ^ 32 })

/-- SB_COMMAND_PACKET: a packet is appended to queue 1, its doorbell implied. -/
def doSbCommandPacket (d : Dev) (src : SbEnd) (packet : List Byte) : Dev :=
  if !d.lamp.on || d.lamp.recovery || (d.queue 1).state == .disabled || decide (2 ≤ src.port) then d
  else
    let n := granulesOf (byteAt packet 2)
    if (d.queue 1).sqRoom n then
      (d.appendGranules n (fitBytes (64 * n) packet)).modLamp (fun l =>
        { l with cameBy := tins l.cameBy (leAt packet 8 8) src })
    else d.modQueue 1 (fun k => { k with dbIgnored := min max32 (k.dbIgnored + 1), overrun := true })

/-- GET_VENDOR_DEFINED_MESSAGE_SUPPORT. -/
def doGetVendor (d : Dev) (src : SbEnd) : Dev :=
  if d.lamp.on && !d.lamp.recovery && decide (src.port < 2) then d.sbSend src (leBytes 4 vendorNumber) else d

end Sys2Proof.Machine
end

