-- ==== Sys2Proof/Machine/Submit.lean ====
section
/-! DEFINITION. Doorbells (R248 to R250) and submission: the checks of a packet (R235 to R238, R277, R301, R661, R662). -/

namespace Sys2Proof.Machine

/-! ### Doorbells -/

def doSubmissionDoorbell (d : Dev) (head value : Nat) : Dev := if bellKind head = 0 then d.doorbell head value else d
def doCompletionDoorbell (d : Dev) (head value : Nat) : Dev := if bellKind head = 1 then d.doorbell head value else d

/-! ### Privilege (R237, R242, R276, R508) -/

/-- Whether a queue may hold a command. -/
def Dev.permitted (d : Dev) (q op : Nat) (p : Payload) : Bool :=
  let k := d.queue q
  let operator := decide (q < 2) || k.operator
  match p with
  | .snapStore _ _ _ _ _ _ _ _ => operator
  | .queueResume n _ _ _ _ => operator || (n != q && d.hasQueue n && (d.queue n).part == k.part)
  | _ =>
    match rightOf op with
    | .any => true
    | .operator => operator
    | .operatorOrSame => operator
    | .partition => decide (2 ≤ q)

/-! ### Static parameters (R238) -/

/-- R238: the unit field. -/
def unitOk (op unit w : Nat) (p : Payload) : Bool :=
  let rank := decide (unit < w)
  let zero := unit == 0
  match op / 16 with
  | 2 => rank
  | 4 => rank
  | 5 =>
    match p with
    | .wickStep _ 4 _ _ => zero
    | .wickStep _ _ _ _ => rank
    | _ => zero
  | 6 => if op = 0x64 then zero else rank
  | 8 => if op = 0x83 then rank else decide (unit < 2)
  | _ => zero

/-- R233: a token field names a token or none. -/
def tokenOk (t : Nat) : Bool := decide (t < 64) || t == 0xFF

/-- The static checks of a payload, as its chapter gives them. -/
def payloadOk (q w unit : Nat) (p : Payload) : Bool :=
  match p with
  | .nop => true
  | .timestamp => true
  | .queueCreate n part s c share _ attr _ _ _ rsv => queueCreateOk n part s c share attr rsv
  | .queueDestroy _ mode rsv => queueDestroyOk mode rsv
  | .queueResume _ mode _ _ rsv => queueResumeOk mode rsv
  | .partCreate part w share attr _ n _ rsv => partCreateOk part w share attr n rsv
  | .partRegrow part w rsv => partRegrowOk part w rsv
  | .partRelease part rsv => partNameOk part rsv
  | .partShares kind index share rsv => partSharesOk kind index share rsv
  | .ctxSave part rsv => partNameOk part rsv
  | .ctxRestore part n va rsv => ctxRestoreOk part n va rsv
  | .kill scope _ part _ _ rsv => killOk scope part rsv
  | .reclaim part _ rsv => reclaimOk part rsv
  | .arrMatmul p => matmulOk p false
  | .arrStream p => matmulOk p true
  | .arrConv x f g ctl ab fo dr seed wid d rsv => rsv && convOk x f g ctl ab fo dr seed wid d
  | .arrShallow p => shallowOk p
  | .arrQuad mode mask seed blocks rsv => rsv && quadOk mode mask seed blocks
  | .arrAcc op tile count half d rsv => rsv && accOk op tile count half d
  | .memCopy src dst rows cols rsv => memCopyOk src dst rows cols rsv
  | .memFill dst rows rowB _ rsv => memFillOk dst rows rowB rsv
  | .memAlloc va pages tier flags rsv => memAllocOk va pages tier flags rsv
  | .memFree va pages _ flags rsv => mapFieldsOk va pages flags rsv
  | .memMigrate va pages tier flags rsv => memMigrateOk va pages tier flags rsv
  | .memSealed op region part pages va rsv => memSealedOk op region part pages va rsv
  | .vecRun p => vecRunOk p
  | .vecTqFlush n rsv => vecTqFlushOk n rsv
  | .wickDesc x => wickDescOk x w
  | .wickStep desc op mb rsv => wickStepFieldsOk desc op mb rsv
  | .wickMerge desc op mb rsv => wickMergeFieldsOk desc op mb rsv
  | .wickTokmap slot n src rsv => wickTokmapOk slot n src rsv
  | .reqAdmit a => admissionOk a
  | .poolAdd va pages rsv => poolFieldsOk va pages rsv
  | .poolRemove va pages rsv => poolFieldsOk va pages rsv
  | .reqRelease id _ rsv => rsv && decide (id < 16384)
  | .decodeOpen slot n batch step rsv => openFieldsOk slot n batch step rsv
  | .decodeClose slot x vocab draft rsv => closeFieldsOk slot x vocab draft rsv
  | .decodeAbort slot rsv => rsv && decide (slot < 4)
  | .prefill slot n batch step rsv => openFieldsOk slot n batch step rsv
  | .tenantSet t op part maxLive _ rsv => rsv && tenantFieldsOk t op part maxLive
  | .draftConfig ctl id _ rsv => rsv && draftCtlOk ctl && decide (id < 16384)
  | .draftDraw slot n vocab items draft x rsv => drawFieldsOk slot n vocab items draft x rsv
  | .xchConfig c => xchConfigOk c
  | .xchSend ctx _ rsv => rsv && decide (ctx < 16)
  | .xchRemove ctx rsv => rsv && decide (ctx < 16)
  | .stepWait ctx replay _ mask rsv => rsv && decide (ctx < 16) && vaOk mask && (replay == 1 || mask == 0)
  | .actOffload src dst pages ranks rsv => actFieldsOk src dst pages ranks w rsv
  | .actPrefetch src dst pages ranks rsv => actFieldsOk src dst pages ranks w rsv
  | .trdNorm _ _ _ maxNorm n table norm rsv => trdNormOk unit maxNorm n table norm rsv
  | .trdUpdate p => trdUpdateOk unit p
  | .trdVerify p part n va rsv => trdVerifyOk unit p part n va rsv
  | .root a x work n p it tol eps rsv => rootOk a x work n p it tol eps rsv
  | .snapStore i source srcPart host slot _ _ rsv => snapStoreOk i srcPart host slot source rsv
  | .snapConfig c => snapConfigOk c
  | .snapTake _ rsv => rsv
  | .restoreState store buddy position _ _ _ _ rsv => rsv && decide (store < 16) && decide (buddy < 16384) && decide (position < 4096)
  | .restoreLog store buddy position _ rsv => rsv && decide (store < 16) && decide (buddy < 16384) && decide (position < 4096)
  | .stepVote _ _ _ _ window rsv => stepVoteOk window rsv
  | .stepQuery _ _ _ window rsv => stepVoteOk window rsv
  | .logConfig a b pa pb rsv => logConfigOk a b pa pb rsv
  | .logMark _ _ _ rsv => rsv
  | .spareBegin part position _ rsv => spareOk part position rsv
  | .spareEnd part position rsv => spareOk part position rsv
  | .spareAbandon part position rsv => spareOk part position rsv
  | .routeSet runs rsv => routeSetOk runs rsv
  | .groupDeclare g n va rsv => groupDeclareOk g n va rsv
  | .groupRemove g rsv => rsv && decide (g < 65535)
  | .linkWrite _ position n va src rsv => linkWriteOk position n va src rsv
  | .chainReduce g op w n _ outFmt inVa inStride inFmt outVa rsv => chainReduceOk g op w n outFmt inVa inStride inFmt outVa rsv
  | .linkSignal _ position tok _ rsv => linkSignalOk position tok rsv
  | .attestReport _ out _ rsv => attestReportOk q out rsv
  | .attestExtend reg out _ rsv => attestExtendOk reg out rsv
  | .devrecRead op out rsv => devrecReadOk q op out rsv
  | .devrecInstall len _ rsv => devrecInstallOk len rsv
  | .telemetry out rsv => telemetryOk q out rsv
  | .errqRead n source _ out rsv => errqReadOk q n source out rsv
  | .powerCap mw _ rsv => powerCapOk mw rsv

/-- R301: whether a token is the release token of a live descriptor. -/
def Dev.isRelToken (d : Dev) (part t : Nat) : Bool :=
  d.wick.descs.any (fun kv => kv.1 / 16 == part && kv.2.desc.relTok == t)

def Dev.paramsOk (d : Dev) (q : Nat) (h : Header) (p : Payload) : Bool :=
  let w := (d.part h.part).spindles.length
  unitOk h.opcode h.unit w p && tokenOk h.wait0 && tokenOk h.wait1 && tokenOk h.sig && !d.isRelToken h.part h.sig &&
    payloadOk q w h.unit p

/-! ### WICK drains (R291, R292) -/

/-- R300: the wick_id and the job of a command that drains into a Wick frame. -/
def wickDrain (p : Payload) : Option (Nat × ArrJob) :=
  let of (j : ArrJob) : Option (Nat × ArrJob) := if j.drain = 3 then some (j.wickId, j) else none
  match p with
  | .arrMatmul p => of (matmulJob p false)
  | .arrStream p => of (matmulJob p true)
  | .arrShallow p => of (shallowJob p)
  | .arrConv _ _ g ctl ab fo dr seed wid d _ => of (convJob g ctl ab fo dr seed wid d)
  | _ => none

/-- R292: the status of a WICK drain's checks; 0 where it passes. -/
def Dev.wickStatus (d : Dev) (part : Nat) (p : Payload) : Nat :=
  match wickDrain p with
  | none => stOk
  | some (id, j) =>
    match d.wickLive part (wickIdx id) with
    | none => stBadParam
    | some w =>
      if wickRole id ≥ 2 || bits id 7 4 != 0 || j.n % 256 != 0 || decide (j.m < w.desc.rows) then stBadParam
      else if j.m > w.desc.rows ∨ 256 * wickCb id + j.n > (if wickRole id = 0 then w.vT else w.vS) then stQuota
      else stOk

/-- R277, R480: whether a unit that a command needs is down. -/
def Dev.unavailable (d : Dev) (e : Entry) : Bool :=
  (!d.lamp.cdUp && e.hdr.opcode != 0 && e.hdr.opcode / 16 != 0xB) ||
    ((e.hdr.opcode == 0x80 || e.hdr.opcode == 0x81) && (d.treadle e.hdr.unit).failed)

/-- The status with which a packet leaves submission; 0 for one that passes. `ue` is whether its payload is unreadable. -/
def Dev.submitStatus (d : Dev) (q : Nat) (e : Entry) (ue : Bool) : Nat :=
  let p := parsePayload e.hdr.opcode (slice e.bytes 64 (16 * e.hdr.units))
  if ue then stUncorrectable
  else if !isOpcode e.hdr.opcode then stBadOpcode
  else if !d.permitted q e.hdr.opcode (p.getD .nop) then stPrivilege
  else
    match p with
    | none => stBadParam
    | some p =>
      if !d.paramsOk q e.hdr p then stBadParam
      else if d.wickStatus e.hdr.part p != stOk then d.wickStatus e.hdr.part p
      else if d.unavailable e then stUnavailable else stOk

/-! ### Worst-case counts (R540, R541) -/

/-- R136: the passes of a product at their fixed least: one for each K_pass of its reduction and each stationary tile. -/
def ArrJob.leastPasses (j : ArrJob) : Nat :=
  if j.shallow then ceilDiv j.k (1024 * 2 ^ j.mode) else ceilDiv j.k 256 * ceilDiv j.n j.np

/-- R136: the cycles of a product that its payload gives, all byte terms aside. -/
def ArrJob.leastCycles (j : ArrJob) : Nat :=
  if j.shallow then 1490 + j.leastPasses * max j.n 256
  else 912 + j.leastPasses * max j.m 256 + (if j.foldEn then j.named.length * ceilDiv j.k 4096 * ceilDiv j.m 2 else 0)

/-- R136: the cycles of the longest quadrant of an ARR_QUAD. -/
def quadCycles (blocks : List QuadBlock) (mask : Nat) : Nat :=
  ((quadJobs 0 mask 0 blocks).map (fun p => ceilDiv p.1.k 128 * max p.1.m 128)).foldl max 0

/-- The part of a command's worst-case formula that its payload gives, and whether that is all of it. -/
def Dev.worstCaseBase (d : Dev) (p : Payload) : Nat × Bool :=
  match p with
  | .nop => (48, true)
  | .timestamp => (48, true)
  | .queueCreate _ _ _ c _ _ _ _ _ _ _ => (144 + ceilDiv (32 * 2 ^ c) 64, true)
  | .partCreate _ w _ attr _ n _ _ => (144 + 512 * w + if bit attr 1 then 64 * ceilDiv n 32 else 0, true)
  | .partRegrow _ w _ => (144 + 512 * w, true)
  | .partShares _ _ _ _ => (144, true)
  | .arrMatmul p => ((matmulJob p false).leastCycles, false)
  | .arrStream p => ((matmulJob p true).leastCycles, false)
  | .arrShallow p => ((shallowJob p).leastCycles, false)
  | .arrConv _ _ g ctl ab fo dr seed wid x _ => ((convJob g ctl ab fo dr seed wid x).leastCycles, false)
  | .arrQuad _ mask _ blocks _ => (528 + quadCycles blocks mask, false)
  | .arrAcc 0 _ count _ _ _ => (144 + 32 * count, true)
  | .arrAcc 3 tile count half _ _ => (144 + 256 * (accPosts tile count half).length, true)
  | .arrAcc _ _ count _ _ _ => (144 + 256 * count, false)
  | .xchConfig _ => (144, true)
  | .xchRemove _ _ => (144, true)
  | .trdNorm _ pair _ _ n _ _ _ => (144 + 32 * n + 16 * pair, false)
  | .trdUpdate x => (144 + 32 * (x.nDesc + x.nLayers), false)
  | .trdVerify _ _ n _ _ => (144 + 16256 * n, true)
  | .snapConfig c => (144 + 64 * c.nRegions, true)
  | .logConfig _ _ _ _ _ => (144, true)
  | .logMark _ _ _ _ => (144, true)
  | .spareBegin _ _ _ _ => (144, true)
  | .spareAbandon _ _ _ => (144, true)
  | .attestReport _ _ _ _ => (68164 + (if d.lamp.key.all (fun k => decide (k.next < 1024)) then 0 else 57700000), true)
  | .attestExtend _ _ _ _ => (240, true)
  | .devrecRead op _ _ => (144 + ceilDiv (if op = 0 then 256 else (d.lamp.copy d.lamp.live).length) 2, true)
  | .devrecInstall len _ _ => (60144 + ceilDiv len 2 + ceilDiv len 4, true)
  | .telemetry _ _ => (272, true)
  | .errqRead n _ _ _ _ => (144 + 16 * n, true)
  | .powerCap _ persist _ => (if persist = 1 then 2144 else 144, true)
  | _ => (144, false)

/-- R541: wc at submission; what the payload does not give is a free value. -/
def Dev.worstCase (d : Dev) (p : Payload) : Nat × Dev :=
  let b := d.worstCaseBase p
  if b.2 then (sat max32 b.1, d)
  else
    let (u, d) := d.useFree
    (sat max32 (b.1 + Config.worstCaseExtra u), d)

/-! ### SUBMISSION -/

/-- A packet that passes: it waits, with its place in the order of acceptance. -/
def Dev.accept (d : Dev) (q : Nat) (f : Fetched) : Dev :=
  let (wc, d) := d.worstCase f.entry.payload
  let d := d.take q f { f.entry with wc := wc, accepted := d.qs.nextOrder }
  { d with qs := { d.qs with nextOrder := d.qs.nextOrder + 1 } }

/-- Whether the device reads a queue's next packet now (R246, R259, R662). -/
def Dev.reads (d : Dev) (q : Nat) : Bool :=
  let k := d.queue q
  k.state == .running && !k.haltDue && !d.queueStopped q && !d.badAtEnd q && k.mayRead

/-- Whether a fetched packet has a bad or unreadable header. -/
def Fetched.isBad (f : Fetched) : Bool := f.status == stBadHeader || (f.status == stUncorrectable && f.entry.bytes.isEmpty)

/-- SUBMISSION: the next packet of a queue is read and checked. -/
def doSubmission (d : Dev) (q : Nat) : Dev :=
  if !d.reads q then d
  else
    match d.fetch q with
    | none => d
    | some f =>
      let st := if f.isBad then f.status else d.submitStatus q f.entry f.ue.isSome
      if st = stOk then d.accept q f else d.take q f (f.entry.ended st)

end Sys2Proof.Machine
end

