-- ==== Sys2Proof/Machine/Schedule.lean ====
section
/-! DEFINITION. Dispatch (R252 to R260, R162, R300, R366), fair queuing of the shared engines (R540, R541), wait limits
(R257), and the tick (R28 to R30). -/

namespace Sys2Proof.Machine

/-! ### Waits (R252, R256, R300) -/

/-- R255: the token set of a partition field. -/
def setOf (part : Nat) : Nat := if part < 14 then part else 14

def Dev.waitMet (d : Dev) (part t v : Nat) : Bool := decide (64 ≤ t) || decide (v ≤ d.token (setOf part) t)

/-- R300: the implicit wait on the descriptor's releases. -/
def Dev.frameFree (d : Dev) (e : Entry) : Bool :=
  match wickDrain e.payload with
  | none => true
  | some (id, _) =>
    match d.wickLive e.hdr.part (wickIdx id) with
    | none => true
    | some w => decide ((wickMb id + (4096 - w.r % 4096)) % 4096 < w.desc.depth)

def Dev.waitsMet (d : Dev) (e : Entry) : Bool :=
  d.waitMet e.hdr.part e.hdr.wait0 e.hdr.wait0Val && d.waitMet e.hdr.part e.hdr.wait1 e.hdr.wait1Val && d.frameFree e

/-! ### Mapping barriers (R162) -/

/-- The partition of a mapping command. -/
def barrierPart (e : Entry) : Option Nat :=
  match e.payload with
  | .memAlloc _ _ _ _ _ => some e.hdr.part
  | .memFree _ _ _ _ _ => some e.hdr.part
  | .memMigrate _ _ _ _ _ => some e.hdr.part
  | .memSealed 0 _ _ _ _ _ => some e.hdr.part
  | .memSealed 1 _ n _ _ _ => some n
  | .memSealed 2 _ n _ _ _ => some n
  | _ => none

/-- Whether a command belongs to a partition: it was issued there, or maps there. -/
def inPart (p : Nat) (e : Entry) : Bool := (e.hdr.part == p && decide (p < 14)) || barrierPart e == some p

/-- R162: an earlier mapping command of its partition, or, for a mapping command, any earlier command of its partition,
holds a command back. -/
def Dev.barred (d : Dev) (e : Entry) : Bool :=
  d.live.any (fun x =>
    x.2.ref != e.ref && !x.2.isDone && decide (x.2.accepted < e.accepted) &&
      ((barrierPart x.2).any (fun p => inPart p e) || (barrierPart e).any (fun p => inPart p x.2)))

/-! ### Room (R252, R366) -/

/-- The requests that an opener of a period slot names. -/
def Entry.opens (e : Entry) (slot : Nat) : Nat :=
  match e.payload with
  | .decodeOpen s n _ _ _ => if s = slot then n else 0
  | .prefill s n _ _ _ => if s = slot then n else 0
  | _ => 0

/-- R366: the records that a command may make. A closer names the requests of its slot's period, which an opener that is still in
flight may have yet to open. -/
def Dev.roomFor (d : Dev) (e : Entry) : Nat :=
  let rows (slot : Nat) : Nat :=
    ((d.live.map (·.2)).filter (fun x => x.inFlight && x.hdr.part == e.hdr.part)).foldl (fun n x => max n (x.opens slot))
      (((d.period e.hdr.part slot).map (fun p => p.rows.length)).getD 0)
  match e.payload with
  | .decodeOpen _ n _ _ _ => n + 65
  | .prefill _ n _ _ _ => n + 65
  | .decodeClose slot _ _ _ _ => rows slot + 65
  | .decodeAbort slot _ => rows slot + 65
  | _ => 1

def Dev.roomOk (d : Dev) (k : Queue) (e : Entry) : Bool := decide (k.owed - e.room + d.roomFor e ≤ k.ringRoom)

/-! ### Readiness (R252, R259, R271) -/

/-- A queue's head: its first packet that has passed submission and has not been dispatched. -/
def Queue.headEntry (k : Queue) : Option Entry := k.entries.find? Entry.isWaiting

/-- R252: fence. -/
def Queue.fenceOk (k : Queue) (e : Entry) : Bool := !e.hdr.fence || (k.entries.head?).any (fun x => x.ref == e.ref)

/-- R532: a partition's commands run while it is ACTIVE. -/
def Dev.partActive (d : Dev) (e : Entry) : Bool := decide (14 ≤ e.hdr.part) || (d.part e.hdr.part).state == .active

/-- A unit that is being restarted takes no command. -/
def Dev.unitFree (d : Dev) (e : Entry) : Bool := !((d.recoveringOf (d.unitOf e)).any (fun r => r.level == 1))

/-- Whether a queue dispatches a command now, but for the choice among queues. -/
def Dev.ready (d : Dev) (q : Nat) (e : Entry) : Bool :=
  let k := d.queue q
  k.state == .running && !k.haltDue && !d.queueStopped q && !k.entries.any Entry.isHeld && !e.lapsed && d.waitsMet e && k.fenceOk e &&
    d.roomOk k e && !d.barred e && d.partActive e && d.unitFree e

/-- The head of a queue, where it may be dispatched. -/
def Dev.readyHead (d : Dev) (q : Nat) : Option Entry := (d.queue q).headEntry.filter (d.ready q)

/-! ### Fair queuing (R540, R541) -/

/-- The engine that a command competes for: 0 and 1 the dies' order, 2 the Bobbins, 3 the Lamplighter's command processor,
4 + 16 s + n the engine of Spindle s for opcode class n, where queues of one partition compete. -/
def Dev.engineOf (d : Dev) (e : Entry) : Option Nat :=
  match dieJob e, islandOf e.hdr.opcode with
  | some die, .iod => some die
  | _, .lamplighter => some 3
  | _, .spindle => some (4 + 16 * d.spindleOf e + e.hdr.opcode / 16)
  | _, .iod => if e.hdr.opcode = 0x90 ∨ e.hdr.opcode = 0x91 then some 2 else none
  | _, _ => none

/-- The queues with a ready head for an engine, as (partition group, queue, head). -/
def Dev.rivals (d : Dev) (engine : Nat) : List (Nat × Nat × Entry) :=
  d.qs.q.filterMap (fun kv => (d.readyHead kv.1).bind (fun e =>
    if d.engineOf e = some engine then some (setOf kv.2.part, kv.1, e) else none))

/-- The tag of a partition group at an engine. -/
def Dev.ptag (d : Dev) (g p : Nat) : Nat := tget 0 d.qs.ptags (16 * g + p)

/-- The tag of a queue at an engine. -/
def Queue.tagAt (k : Queue) (g : Nat) : Nat := tget 0 k.qtags g

/-- The lowest of some tags. -/
def lowestTag (ts : List Nat) : Nat := ts.foldl min (ts.headD 0)

/-- The index with the lowest tag, the lower index where tags are equal. -/
def lowestBy (tag : Nat → Nat) (l : List Nat) : Option Nat :=
  (sortNat l).foldl (fun best i => match best with
    | none => some i
    | some b => if tag i < tag b then some i else best) none

/-- R540: the queue that an engine takes next. -/
def Dev.chosenQueue (d : Dev) (g : Nat) (rivals : List (Nat × Nat × Entry)) : Option Nat :=
  (lowestBy (d.ptag g) (rivals.map (·.1))).bind (fun p =>
    lowestBy (fun q => (d.queue q).tagAt g) ((rivals.filter (fun r => r.1 == p)).map (·.2.1)))

/-- R540: the share of a partition group. -/
def Dev.pshare (d : Dev) (p : Nat) : Nat := if p = 14 then 255 else max 1 (d.part p).share

/-- Entries of a table under some keys, each lowered; an entry of 0 is none. -/
def lowered (mine : Nat → Bool) (low : Nat) (t : Tbl Nat) : Tbl Nat :=
  (t.map (fun kv => if mine kv.1 then (kv.1, kv.2 - low) else kv)).filter (fun kv => kv.2 != 0)

/-- R541: a tag that passes 2⁶⁴ − 1 lowers every tag at its level by the lowest. -/
def Dev.setPtag (d : Dev) (g p v : Nat) : Dev :=
  let ts := tput 0 d.qs.ptags (16 * g + p) v
  let low := lowestTag ((List.range 15).map (fun i => tget 0 ts (16 * g + i)))
  { d with qs := { d.qs with ptags := if v < 2 ^ 64 then ts else lowered (fun k => k / 16 == g) low ts } }

def Dev.setQtag (d : Dev) (g q v : Nat) : Dev :=
  let d := d.modQueue q (fun k => { k with qtags := tput 0 k.qtags g v })
  if v < 2 ^ 64 then d
  else
    let mine := setOf (d.queue q).part
    let low := lowestTag ((d.qs.q.filter (fun kv => setOf kv.2.part == mine)).map (fun kv => kv.2.tagAt g))
    { d with qs := { d.qs with q := d.qs.q.map (fun kv => if setOf kv.2.part = mine
        then (kv.1, { kv.2 with qtags := lowered (fun k => k == g) low kv.2.qtags }) else kv) } }

/-- R540: the tags after a dispatch; at a Spindle's engines only the queue level applies. -/
def Dev.advanceTags (d : Dev) (g : Nat) (rivals : List (Nat × Nat × Entry)) (q : Nat) (e : Entry) : Dev :=
  let p := setOf (d.queue q).part
  let pvt := lowestTag (rivals.map (fun r => d.ptag g r.1))
  let qvt := lowestTag ((rivals.filter (fun r => r.1 == p)).map (fun r => (d.queue r.2.1).tagAt g))
  let d' := if g < 4 then d.setPtag g p (max (d.ptag g p) pvt + e.wc * 256 / d.pshare p) else d
  d'.setQtag g q (max ((d.queue q).tagAt g) qvt + e.wc * 256 / max 1 (d.queue q).share)

/-- R422, R540: whether a shared engine can accept a command: it holds none. A STEP_WAIT that waits for its decision tick
holds no datapath (R430), and a command that is held for a re-run holds no engine (R271). -/
def Dev.engineAccepts (d : Dev) (g : Nat) : Bool :=
  decide (4 ≤ g) ||
    !d.live.any (fun x => x.2.inFlight && x.2.phase != .rerun && d.engineOf x.2 == some g && !d.undecided x.2)

/-- Whether fair queuing lets a queue's head go now. -/
def Dev.goesNext (d : Dev) (q : Nat) (e : Entry) : Bool :=
  match d.engineOf e with
  | none => true
  | some g => d.engineAccepts g && d.chosenQueue g (d.rivals g) == some q

/-! ### DISPATCH -/

/-- A command leaves its queue for its engine; WAIT counts the ticks since its submission (R543). -/
def Dev.leaveQueue (d : Dev) (q : Nat) (e : Entry) : Dev :=
  let n := d.qs.nextOrder
  let room := d.roomFor e
  let d := d.account q e.hdr.part (fun a => { a with wait := (a.wait + (d.clk.tick - e.submitted)) % 2 ^ 64 })
  let d := d.modQueue q (fun k => k.modEntry e.hdr.seq (fun x => { x with phase := .dispatched, order := n, since := n, room := room }))
  { d with qs := { d.qs with nextOrder := n + 1 } }

def doDispatch (d : Dev) (q : Nat) : Dev :=
  match d.readyHead q with
  | none => d
  | some e =>
    if d.goesNext q e then
      let d' := match d.engineOf e with
        | none => d
        | some g => d.advanceTags g (d.rivals g) q e
      d'.leaveQueue q e
    else d

/-! ### Wait limits (R257) -/

/-- WAIT_TIMEOUT: the head's limit has passed with a wait unmet. -/
def doWaitTimeout (d : Dev) (q : Nat) : Dev :=
  match (d.queue q).headEntry with
  | none => d
  | some e => if e.lapsed then d.modQueue q (fun k => k.modEntry e.hdr.seq (fun x => x.ended stWaitTimeout)) else d

/-- R31, R257: whether a head's limit passes in the tick that ends now, with a wait unmet; a wait that was met in that tick
counts as met. -/
def Dev.lapses (d : Dev) (e : Entry) : Bool :=
  match e.headSince with
  | some t => e.hdr.waitLimit != 0 && decide (t + e.hdr.waitLimit < d.tickAt 14) && !d.waitsMet e
  | none => false

/-- The heads that reached the front of their queues since the last tick: their limits start at the present count. -/
def Queue.markHead (k : Queue) (now : Nat) : Queue :=
  match k.headEntry with
  | some e => if e.headSince.isNone then k.modEntry e.hdr.seq (fun x => { x with headSince := some now }) else k
  | none => k

def Dev.markHeads (d : Dev) : Dev :=
  let now := d.tickAt 14
  { d with qs := { d.qs with q := d.qs.q.map (fun kv => (kv.1, kv.2.markHead now)) } }

/-- The heads whose limits pass as a tick ends. -/
def Dev.markLapsed (d : Dev) : Dev :=
  { d with qs := { d.qs with q := d.qs.q.map (fun kv => (kv.1, match kv.2.headEntry with
      | some e => if d.lapses e then kv.2.modEntry e.hdr.seq (fun x => { x with lapsed := true }) else kv.2
      | none => kv.2)) } }

/-- DEVICE_TICK (R28 to R32); vectors may send again in a new tick (R600). -/
def doDeviceTick (d : Dev) : Dev :=
  if d.clk.standby then
    let (u, d) := d.markLapsed.markHeads.useFree
    ({ d with clk := d.clk.next u } : Dev).modLinks (fun l => { l with msixSent := [] })
  else d

end Sys2Proof.Machine
end

