-- ==== Sys2Proof/Machine/RegRead.lean ====
section
/-! DEFINITION. Reads of the register space (R33 to R43): the registers of every block as their layouts state them, and the
latches of the requester paths. -/

namespace Sys2Proof.Machine

/-! ### Requester paths (R33, R288, R598) -/

def pathKey : Path → Nat
  | .host => 0
  | .group => 1
  | .sb0 => 2
  | .sb1 => 3
  | .lamplighter => 4

def Dev.pathOf (d : Dev) (p : Path) : PathRegs := tget PathRegs.reset d.paths (pathKey p)
def Dev.modPath (d : Dev) (p : Path) (f : PathRegs → PathRegs) : Dev :=
  { d with paths := tmod PathRegs.reset d.paths (pathKey p) f }

/-! ### The 64-bit counters (R33 to R35) -/

def iodBase (die : Nat) : Nat := die * 0x80000

/-- R42, R138, R232, R330, R373, R410, R488, R531, R567, R605, R658: the offset of a counter's low half. -/
def counterOff : Counter → Nat
  | .arrRows n => n * 0x100000 + 0x210
  | .arrFreeze n => n * 0x100000 + 0x218
  | .pilotRows n => n * 0x100000 + 0x220
  | .vecInstr n => n * 0x100000 + 0x80040
  | .vecBusy n => n * 0x100000 + 0x80048
  | .wickNonfinite => 0x1103000
  | .rqtExpired => 0x1200020
  | .rqtTokens => 0x1200048
  | .rqtDraftNodes => 0x1200050
  | .rqtDraftAccepted => 0x1200058
  | .tenantBalance => 0x1200404
  | .tenantReserved => 0x120040C
  | .trdElems die => 0x1300020 + iodBase die
  | .trdSkips die => 0x1300028 + iodBase die
  | .trdOvf die => 0x1300030 + iodBase die
  | .trdWatch die => 0x1300038 + iodBase die
  | .rvlEntries s => 0x1500100 + iodBase s
  | .rvlDropped s => 0x1500108 + iodBase s
  | .lnkRetry j => 0x1600200 + iodBase (j / 4) + 16 * (j % 4)
  | .lnkDrop j => 0x1600208 + iodBase (j / 4) + 16 * (j % 4)
  | .hostDiscard => 0x1600408
  | .energy => 0x1700010
  | .acct f => 0x1802110 + 8 * f

def spinCounters (n : Nat) : List Counter :=
  [Counter.arrRows n, Counter.arrFreeze n, Counter.pilotRows n, Counter.vecInstr n, Counter.vecBusy n]

def dieCounters (i : Nat) : List Counter :=
  [Counter.trdElems i, Counter.trdSkips i, Counter.trdOvf i, Counter.trdWatch i, Counter.rvlEntries i, Counter.rvlDropped i]

def portCounters (j : Nat) : List Counter := [Counter.lnkRetry j, Counter.lnkDrop j]

def singleCounters : List Counter :=
  [Counter.wickNonfinite, Counter.rqtExpired, Counter.rqtTokens, Counter.rqtDraftNodes, Counter.rqtDraftAccepted,
   Counter.tenantBalance, Counter.tenantReserved, Counter.hostDiscard, Counter.energy]

/-- The counters of the device. -/
def allCounters : List Counter :=
  List.flatten [(List.range 14).flatMap spinCounters, singleCounters, (List.range 2).flatMap dieCounters,
    (List.range 8).flatMap portCounters, (List.range 9).map Counter.acct]

/-- R543, R567: an accounting counter, by its place in the table of R567. -/
def Acct.field (a : Acct) : Nat → Nat
  | 0 => a.busySpn
  | 1 => a.busyIod
  | 2 => a.pilot
  | 3 => a.wait
  | 4 => a.killRerun
  | 5 => a.killFinal
  | 6 => a.lost
  | 7 => a.yielded
  | 8 => a.teardown
  | _ => 0

/-- R567: a counter of the owner that a path's LMP_ACCT_SEL names. -/
def Dev.acctField (d : Dev) (sel f : Nat) : Nat :=
  let i := bits sel 7 0
  if bit sel 8 then (if f = 2 ∨ f = 8 then 0 else (tget Acct.zero d.qs.qAcct i).field f)
  else if i < 14 then (d.part i).acct.field f else 0

def Dev.counter (d : Dev) (p : Path) : Counter → Nat
  | .arrRows n => (d.spin n).rows
  | .arrFreeze n => (d.spin n).freeze
  | .pilotRows n => (d.spin n).pilotRows
  | .vecInstr n => (d.spin n).vecInstr
  | .vecBusy n => (d.spin n).vecBusy
  | .wickNonfinite => d.wick.nonfinite
  | .rqtExpired => d.reqs.expired
  | .rqtTokens => d.reqs.streamed
  | .rqtDraftNodes => d.reqs.draftNodes
  | .rqtDraftAccepted => d.reqs.draftAccepted
  | .tenantBalance => unsigned64 (d.tenant (d.pathOf p).tenSel).balance
  | .tenantReserved => (d.tenant (d.pathOf p).tenSel).reserved
  | .trdElems i => (d.treadle i).elems
  | .trdSkips i => (d.treadle i).skips
  | .trdOvf i => (d.treadle i).ovfBlocks
  | .trdWatch i => (d.treadle i).watchEvents
  | .rvlEntries s => tget 0 d.train.entries s
  | .rvlDropped s => tget 0 d.train.dropped s
  | .lnkRetry j => (d.port j).retry
  | .lnkDrop j => (d.port j).drop
  | .hostDiscard => d.links.hostDiscard
  | .energy => d.power.energy
  | .acct f => d.acctField (d.pathOf p).acctSel f

def latchOf (l : List (Counter × Nat)) (c : Counter) : Nat := ((l.find? (fun x => decide (x.1 = c))).map (·.2)).getD 0

/-- R33: a path latches a counter's high half. -/
def setLatch (l : List (Counter × Nat)) (c : Counter) (v : Nat) : List (Counter × Nat) :=
  (c, v) :: l.filter (fun x => decide (x.1 ≠ c))

/-! ### Arrays of registers -/

/-- Whether an offset is that of a register in an array of n, with its base and its step. -/
def inArr (base step n o : Nat) : Bool := decide (base ≤ o) && (o - base) % step == 0 && decide ((o - base) / step < n)

/-- Which register of the array it is. -/
def idxIn (base step o : Nat) : Nat := (o - base) / step

/-! ### SPN_ and VEC_ (R74, R138, R232) -/

/-- SPN_ACC_META_h. DEDUCED (log entry 161): a count that has reached its limit has saturated. -/
def Dev.accMeta (d : Dev) (sp h : Nat) : Nat :=
  let v := d.half sp h
  setBit v.fp16 31 + setBit (decide (countMax ≤ v.count)) 30 + sat countMax v.count

/-- The tiles with a working image or a tile-queue entry. -/
def Dev.accPending (d : Dev) (sp : Nat) : List Nat :=
  sortNat (d.postedTiles sp ++ (d.arrFlight sp).flatMap (fun e =>
    if e.isRan then ((accUses e.payload).filter (fun u => u.2.writes)).map (fun u => u.1 / 2) else []))

/-- The length of the longest open chain of a Spindle. -/
def Dev.chainLen (d : Dev) (sp : Nat) : Nat :=
  let fl := d.arrFlight sp
  (fl.map (fun e => match e.chain with
    | some n => (fl.filter (fun x => x.chain == some n)).length
    | none => 0)).foldl max 0

/-- R95, R138: the products of a Spindle that hold rows in the array, in order of issue, at most three: of those that have
issued and not committed, which ones do is a free value. -/
def Dev.inArray (d : Dev) (sp : Nat) : List Entry :=
  ((d.arrFlight sp).filter (fun e =>
    e.isRan && isProduct e.hdr.opcode && Config.inArray e.hdr.queue e.hdr.seq d.clk.tick)).take 3

/-- The product that injects its rows: the last of those in the array, while it has rows left. -/
def Dev.injecting (d : Dev) (sp : Nat) : Option Entry :=
  (d.inArray sp).getLast?.filter (fun e => Config.injecting e.hdr.queue e.hdr.seq d.clk.tick)

/-- The mode of an array command. -/
def arrMode : Payload → Nat
  | .arrMatmul p => p.ctl % 4
  | .arrStream p => p.ctl % 4
  | .arrShallow p => p.ctl % 4
  | .arrConv _ _ _ ctl _ _ _ _ _ _ _ => ctl % 4
  | .arrQuad mode _ _ _ _ => mode
  | _ => 0

/-- SPN_ARR_STATUS. -/
def Dev.arrStatus (d : Dev) (sp : Nat) : Nat :=
  let s := d.spin sp
  let now := d.injecting sp
  setBit (!(d.arrFlight sp).isEmpty) 31 + (d.inArray sp).length * 2 ^ 28 + d.chainLen sp * 2 ^ 25 +
    ((now.map (fun e => arrMode e.payload)).getD 0) * 2 ^ 20 + setBit (now.any (fun e => e.hdr.opcode == 0x23)) 19 +
    setBit (now.any (fun e => e.hdr.opcode == 0x24)) 18 +
    setBit (s.pilot.en && decide (0 < s.gap) && decide (0 < s.occupied)) 16 + maskOf (d.accPending sp)

/-- SPN_PILOT_CFG reads as it was last written, though a write takes effect at the next window boundary (R9, R139). -/
def Dev.spnReg (d : Dev) (sp o : Nat) : Nat :=
  if o = 0x200 then d.arrStatus sp
  else if o = 0x204 then ((d.spin sp).pilotNext.getD (d.spin sp).pilot).word
  else if inArr 0x400 4 32 o then d.accMeta sp (idxIn 0x400 4 o)
  else 0

/-- The context of the vector program that waits on a Spindle. -/
def Dev.vecWait (d : Dev) (sp : Nat) : Option VecCtx :=
  ((d.live.map (·.2)).filter (fun e => d.spindleOf e == sp)).findSome? (fun e => match e.phase with
    | .running (.vec v _) => some v
    | _ => none)

def Dev.vecStatus (d : Dev) (sp : Nat) : Nat :=
  let busy := d.live.any (fun x => x.2.hdr.opcode / 16 == 4 && x.2.inFlight && d.spindleOf x.2 == sp)
  setBit busy 31 + setBit (d.vecWait sp).isSome 30 + setBit (d.spin sp).permRange 29 + ((d.vecWait sp).map (·.pc)).getD 0 % 64

/-- VEC_TQ_ENTRY_e: the slots follow the oldest entry's. -/
def Spindle.tqSlot (s : Spindle) (e : Nat) : Nat :=
  match s.tq[(e + 8 - s.tqHead) % 8]? with
  | some t => setBit true 31 + setBit t.taken 30 + setBit t.fp16 29 + bits t.seq 15 0 * 2 ^ 8 + t.tile
  | none => 0

def Dev.vecReg (d : Dev) (sp o : Nat) : Nat :=
  let s := d.spin sp
  if o = 0 then d.vecStatus sp
  else if o = 4 then (s.tq.filter (·.taken)).length * 2 ^ 8 + s.tqHead * 2 ^ 4 + s.tq.length
  else if inArr 0x10 4 8 o then s.tqSlot (idxIn 0x10 4 o)
  else 0

/-! ### SKN_ (R193, R287, R288) -/

/-- R184, R659: whether background zeroing of pages is pending. The zeroing of Spindles (R183) is not counted. -/
def Dev.scrubBusy (d : Dev) : Bool := !d.mem.zeroQ.isEmpty

/-- The word at 4 × w of a byte string, least significant byte first. -/
def digestWord (b : List Byte) (w : Nat) : Nat := leAt b (4 * w) 4

/-- SKN_SEAL_r. -/
def Dev.sealReg (d : Dev) (r : Nat) : Nat :=
  match tfind d.mem.regions r with
  | some g => setBit true 31 + setBit g.damaged 30 + setBit g.zeroing 29 + d.mapsOf r * 2 ^ 24 + g.pages.length
  | none => 0

def FaultLatch.info (f : FaultLatch) : Nat := setBit f.valid 31 + f.reason * 2 ^ 24 + f.source * 2 ^ 20 + bits f.seq 15 0

/-- SKN_FAULT_VA_LO_n, SKN_FAULT_VA_HI_n, SKN_FAULT_INFO_n. -/
def FaultLatch.word (f : FaultLatch) : Nat → Nat
  | 0 => bits f.va 31 0
  | 4 => bits f.va 47 32
  | 8 => f.info
  | _ => 0

def HbmStack.word (s : HbmStack) : Nat := setBit s.trained 31 + setBit s.repaired 30 + s.tempC % 256 * 2 ^ 16 + s.ce

/-- The STATE code of SKN_Q_CFG_q. -/
def QState.code : QState → Nat
  | .disabled => 0
  | .running => 1
  | .halted => 2
  | .saved => 3

def Queue.cfgWord (k : Queue) : Nat :=
  if k.state == .disabled then 0
  else
    setBit true 31 + setBit k.operator 30 + k.state.code * 2 ^ 28 + (if k.part < 14 then k.part else 0xF) * 2 ^ 24 +
      k.sqLog2 * 2 ^ 19 + k.cqLog2 * 2 ^ 14 + k.share

/-- SKN_Q_STATUS_q. INFLIGHT counts every command that was dispatched and has no record. -/
def Dev.queueStatus (d : Dev) (q : Nat) : Nat :=
  let k := d.queue q
  let wait : Bool := k.headEntry.any (fun e => !d.waitsMet e || !k.fenceOk e)
  let full : Bool := k.headEntry.any (fun e => !d.roomOk k e)
  setBit wait 31 + setBit full 30 + setBit k.badHeader 29 + setBit k.overrun 28 +
    min 255 (k.entries.filter (fun e => e.order != 0)).length * 2 ^ 16 + k.lastStatus

/-- R287: a queue's eight registers. -/
def Dev.queueReg (d : Dev) (q w : Nat) : Nat :=
  let k := d.queue q
  match w with
  | 0 => k.cfgWord
  | 1 => d.queueStatus q
  | 2 => k.head
  | 3 => k.tail
  | 4 => k.written
  | 5 => k.cqHead
  | 6 => k.nextSeq % 2 ^ 32
  | 7 => k.dbIgnored
  | _ => 0

/-- R288: the token that a path's SKN_TOK_SEL names; SET 0xE names none. -/
def Dev.selectedToken (d : Dev) (p : Path) : Nat :=
  let sel := (d.pathOf p).tokSel
  let set := bits sel 11 8
  if set = 14 then 0 else d.token (if set = 15 then 14 else set) (bits sel 5 0)

def Dev.sknReg (d : Dev) (p : Path) (o : Nat) : Nat :=
  let m := d.mem
  if o = 0 then setBit d.scrubBusy 31 + setBit m.quotaRej 30 + maskOf (m.regions.map (·.1))
  else if o = 4 then m.freeCount .skein
  else if o = 8 then m.freeCount .hbm
  else if o = 0xC then m.freeCount .ddr
  else if o = 0x10 then setBit m.ueFlag 31 + m.ueBank * 2 ^ 16 + m.ceCount
  else if inArr 0x100 4 14 o then
    let x := d.part (idxIn 0x100 4 o)
    x.quotaWick * 2 ^ 16 + x.quotaSkein
  else if inArr 0x140 4 14 o then (d.part (idxIn 0x140 4 o)).quotaHbm
  else if inArr 0x180 4 14 o then (d.part (idxIn 0x180 4 o)).quotaDdr
  else if inArr 0x200 4 14 o then
    let x := d.part (idxIn 0x200 4 o)
    x.wickUsed * 2 ^ 16 + x.skeinUsed
  else if inArr 0x240 4 14 o then (d.part (idxIn 0x240 4 o)).hbmUsed
  else if inArr 0x280 4 14 o then (d.part (idxIn 0x280 4 o)).ddrUsed
  else if inArr 0x300 4 16 o then d.sealReg (idxIn 0x300 4 o)
  else if inArr 0x400 4 128 o then
    let i := idxIn 0x400 4 o
    ((tfind m.regions (i / 8)).map (fun g => digestWord g.digest (i % 8))).getD 0
  else if inArr 0x600 4 56 o then (d.part ((o - 0x600) / 16)).fault.word ((o - 0x600) % 16)
  else if inArr 0x1000 4 16 o then (tget HbmStack.reset m.hbmStacks (idxIn 0x1000 4 o)).word
  else if inArr 0x4000 4 2048 o then d.queueReg ((o - 0x4000) / 32) ((o - 0x4000) % 32 / 4)
  else if o = 0x6000 then (d.pathOf p).tokSel
  else if o = 0x6008 then (if bits (d.pathOf p).tokSel 11 8 = 14 then 0 else (d.pathOf p).tokHi)
  else 0

/-! ### WCK_ (R330) -/

def Frame.word (w : WickLive) (f : Frame) : Nat :=
  f.phase * 2 ^ 28 + f.mb % 4096 * 2 ^ 16 + f.ranks.length * 2 ^ 12 +
    setBit (decide (f.phase ≠ 0) && (List.range (w.vT / 256)).all f.tBlocks.contains) 11 +
    setBit (decide (f.phase ≠ 0) && (List.range (w.vS / 256)).all f.sBlocks.contains) 10 +
    setBit f.nonfinite 9 + setBit f.labelRange 8

def Dev.wckReg (d : Dev) (o : Nat) : Nat :=
  if inArr 0 4 14 o then maskOf ((List.range 16).filter (fun i => (d.wickLive (idxIn 0 4 o) i).isSome))
  else if inArr 0x100 4 224 o then
    match tfind d.wick.descs (idxIn 0x100 4 o) with
    | some w => w.r % 4096 * 2 ^ 20 + w.p * 2 ^ 8 + w.desc.relTok
    | none => 0
  else if inArr 0x1000 4 896 o then
    let i := idxIn 0x1000 4 o
    match tfind d.wick.descs (i / 4) with
    | some w => ((w.frames[i % 4]?).map (Frame.word w)).getD 0
    | none => 0
  else if inArr 0x2000 4 56 o then
    let i := idxIn 0x2000 4 o
    match tfind d.wick.maps i with
    | some l =>
      setBit true 31 + setBit (d.wick.descs.any (fun kv => kv.1 / 16 == i / 4 && kv.2.desc.map && kv.2.desc.mapSlot == i % 4)) 30 +
        l.length
    | none => 0
  else 0

/-! ### RQT_ (R373, R410) -/

def Request.word (r : Request) : Nat :=
  r.state * 2 ^ 28 + r.part * 2 ^ 24 + setBit r.inPeriod 23 + (if r.inPeriod then r.period * 2 ^ 21 else 0) + r.adm.tenant

def Tenant.info (t : Tenant) : Nat := setBit t.bound.isSome 31 + setBit t.overdrawn 30 + t.bound.getD 0 * 2 ^ 24 + t.live

/-- Whether a KV page or a KV slot awaits zeroing. -/
def Dev.poolScrub (d : Dev) : Bool := d.reqs.pools.any (fun kv => kv.2.any (fun p => p.2.zeroing))

def Dev.rqtReg (d : Dev) (p : Path) (o : Nat) : Nat :=
  let x := d.reqs
  if o = 0 then setBit d.poolScrub 31 + x.r.length
  else if o = 0x40 then
    let holding := (x.r.filter (fun kv => !kv.2.held.isEmpty)).length
    setBit x.ringBad 31 + setBit (!d.links.hostUp && decide (0 < holding)) 30 + holding
  else if inArr 0x100 4 14 o then tget 0 x.maxReq (idxIn 0x100 4 o)
  else if inArr 0x140 4 14 o then
    let n := idxIn 0x140 4 o
    maskOf ((List.range 4).filter (fun k => (d.period n k).isSome)) * 2 ^ 16 + d.liveIn n
  else if inArr 0x180 4 14 o then
    let t := d.pool (idxIn 0x180 4 o)
    t.length * 2 ^ 16 + (freePool t).length
  else if o = 0x400 then (d.pathOf p).tenSel
  else if o = 0x414 then (d.tenant (d.pathOf p).tenSel).info
  else if inArr 0x10000 4 16384 o then ((d.request (idxIn 0x10000 4 o)).map Request.word).getD 0
  else 0

/-! ### TRD_, BOB_ and RVL_ (R445, R488, R530, R531) -/

/-- The code of a Treadle command in TRD_STATUS. -/
def trdCmd (op : Nat) : Nat := if op = 0x80 then 1 else if op = 0x81 then 2 else 3

/-- The Treadle command that runs on a die. -/
def Dev.trdRunning (d : Dev) (die : Nat) : Option Entry :=
  (d.live.map (·.2)).find? (fun e => decide (0x80 ≤ e.hdr.opcode) && decide (e.hdr.opcode ≤ 0x82) && e.begun && e.hdr.unit == die)

def Dev.trdStatus (d : Dev) (die : Nat) : Nat :=
  setBit (d.treadle die).failed 30 +
    (match d.trdRunning die with
      | some e =>
        setBit true 31 + trdCmd e.hdr.opcode * 2 ^ 20 + (if e.hdr.part < 14 then e.hdr.part else 0xF) * 2 ^ 16 +
          Config.progress e.hdr.queue e.hdr.seq % 2 ^ 16
      | none => 0)

def Treadle.flags (t : Treadle) : Nat :=
  setBit t.lastSkipped 31 + setBit (bit t.lastFlags 0) 30 + setBit (bit t.lastFlags 1) 29 + setBit (bit t.lastFlags 2) 28 + t.lastOvf

def Treadle.watch (t : Treadle) : Nat := setBit t.event 31 + setBit t.zeroSeen 30 + setBit t.ratioSeen 29 + t.watchLayer

def Treadle.selftest (t : Treadle) : Nat := setBit t.tested 31 + setBit t.pass 30 + t.ruleFail % 16

/-- Whether a STEP_WAIT of a context waits for its decision tick, or replays. -/
def Dev.stepWaits (d : Dev) (ctx : Nat) (replay : Bool) : Bool :=
  d.live.any (fun x => x.2.begun && (match x.2.payload with
    | .stepWait k r _ _ _ => k == ctx && (if replay then r == 1 else d.undecided x.2)
    | _ => false))

/-- R445: the four registers of an exchange context. -/
def Dev.xchReg (d : Dev) (ctx w : Nat) : Nat :=
  match d.xchOf ctx with
  | none => 0
  | some x =>
    match w with
    | 0 =>
      setBit true 31 + x.cfg.policy * 2 ^ 30 + x.cfg.comp * 2 ^ 28 + x.cfg.topkLog2 * 2 ^ 24 + x.part * 2 ^ 20 + x.cfg.group
    | 1 => x.step
    | 2 => setBit (d.stepWaits ctx false) 31 + x.epoch * 2 ^ 30 + setBit (d.stepWaits ctx true) 29 + x.lastPresent
    | _ => x.dropped * 2 ^ 16 + x.heldCount

def Dev.trdReg (d : Dev) (die o : Nat) : Nat :=
  let t := d.treadle die
  if o = 0 then d.trdStatus die
  else if o = 4 then t.lastStep
  else if o = 8 then t.flags
  else if o = 0x10 then t.watch
  else if o = 0x14 then t.selftest
  else if inArr 0x4000 4 32 o then d.xchReg (8 * die + (o - 0x4000) / 16) ((o - 0x4000) % 16 / 4)
  else 0

/-- The OP code of BOB_STATUS. -/
def bobOp : Payload → Nat
  | .snapTake _ _ => 1
  | .reclaim _ _ _ => 1
  | .restoreState _ _ _ _ _ _ _ _ => 2
  | .restoreLog _ _ _ _ _ => 3
  | _ => 0

/-- The command that the Bobbins run; a RECLAIM runs them while its TAKE is in flight. -/
def Dev.bobRunning (d : Dev) : Option Entry :=
  (d.live.map (·.2)).find? (fun e => e.begun && decide (0 < bobOp e.payload) &&
    (match e.payload, e.phase with
      | .reclaim _ _ _, .running (.coll _ _ _) => true
      | .reclaim _ _ _, _ => false
      | _, _ => true))

def bobPart (e : Entry) : Nat :=
  match e.payload with
  | .reclaim p _ _ => p
  | _ => e.hdr.part

/-- The granules of a partition's set that the Bobbin of a die copies. -/
def Dev.granulesOn (d : Dev) (part die : Nat) (gs : List Nat) : List Nat :=
  gs.filter (fun g => ((d.trainOf part).snap.bind (fun s => granuleAt s.regions g)).any (fun x => x.1.die == die))

/-- Whether a command runs on the Bobbin of a die. Its cycles count on IOD-A; a region names the die that copies it, and share B
of a log lies on IOD-B. -/
def Dev.bobOn (d : Dev) (die : Nat) (e : Entry) : Bool :=
  die == 0 ||
    (match e.payload with
      | .restoreLog _ _ _ _ _ => true
      | _ => ((d.trainOf (bobPart e)).snap.map (·.regions)).any (fun rs => rs.any (fun r => r.die == die)))

/-- R530: the granules that a running command has done on a die: those of a TAKE that the buddy has acknowledged, and all of a
RESTORE STATE that waits for its commit point. -/
def Dev.bobDone (d : Dev) (die : Nat) (e : Entry) : Nat :=
  let part := bobPart e
  let set := (d.trainOf part).snap
  match e.payload with
  | .restoreState _ _ _ _ _ _ _ _ =>
    if e.isRan then (d.granulesOn part die (List.range (totalGranules ((set.map (·.regions)).getD [])))).length else 0
  | .restoreLog _ _ _ _ _ => 0
  | _ =>
    let out := d.links.sent.filterMap (fun s => match s.msg.body with
      | .snapWrite _ _ off _ => if s.cmd = some e.ref then some (off / granuleBytes - 1) else none
      | _ => none)
    let held := d.links.heldMsgs.filterMap (fun m => match m.msg.body with
      | .snapWrite _ _ off _ => if m.cmd = some e.ref then some (off / granuleBytes - 1) else none
      | _ => none)
    (d.granulesOn part die (((set.bind (·.taking)).map (·.2)).getD [])).foldl
      (fun n g => if out.contains g || held.contains g then n else n + 1) 0

/-- R530: BOB_STATUS of a die. OP reads 4 in the tick in which its Bobbin has served a buddy and runs no command. -/
def Dev.bobStatus (d : Dev) (die : Nat) : Nat :=
  let serving : Nat := if tfind d.train.serving die = some d.clk.tick then 4 * 2 ^ 28 else 0
  match d.bobRunning with
  | some e =>
    if d.bobOn die e then
      setBit true 31 + bobOp e.payload * 2 ^ 28 + bobPart e * 2 ^ 24 + d.bobDone die e % 2 ^ 24
    else serving
  | none => serving

/-- BOB_GEN_n. -/
def Dev.genWord (d : Dev) (n : Nat) : Nat :=
  match (d.trainOf n).snap.bind (fun s => s.gens.head?) with
  | some g => g.n % 2 ^ 32
  | none => max32

def Dev.recoveryWord (d : Dev) : Nat :=
  match d.train.recovery with
  | some r =>
    setBit true 31 + setBit r.stateDone 30 + setBit r.logDone 29 + setBit (d.teacherOk r) 28 + r.part * 2 ^ 24 +
      r.position * 2 ^ 12 + r.gen % 4096
  | none => 0

def Dev.bobReg (d : Dev) (die o : Nat) : Nat :=
  if o = 0 then d.bobStatus die
  else if inArr 0x100 4 14 o then (d.trainOf (idxIn 0x100 4 o)).step
  else if inArr 0x140 4 14 o then d.genWord (idxIn 0x140 4 o)
  else if o = 0x200 then d.recoveryWord
  else 0

/-- RVL_STATUS_n of a share. -/
def Dev.rvlReg (d : Dev) (share o : Nat) : Nat :=
  if inArr 0 4 14 o then
    match (d.trainOf (idxIn 0 4 o)).log with
    | some l =>
      let n := (l.unsecured.filter (fun u => u.share == share)).length
      setBit true 31 + setBit l.overrun 30 + setBit (decide (0 < n)) 29 + min 0xFFFF n
    | none => 0
  else 0

/-! ### LNK_ (R605) -/

def Port.ctl (p : Port) : Nat := setBit p.enable 31 + setBit p.dateline 30

def Port.status (p : Port) (now : Nat) : Nat :=
  p.state.code * 2 ^ 29 + setBit p.chatter 28 + setBit p.spareUsed 27 + p.badLane % 16 * 2 ^ 23 +
    min 255 (recentRetrains now p.retrains).length * 2 ^ 8

def Links.hostStatus (l : Links) : Nat :=
  setBit l.bridge 31 + setBit l.l0 30 + setBit l.bme 29 + setBit l.pasidEn 28 + l.speed % 8 * 2 ^ 24 + l.width % 32 * 2 ^ 19

/-- The registers that lie in the IOD-A instance only. -/
def Dev.lnkHostReg (d : Dev) (o : Nat) : Nat :=
  if o = 0 then setBit d.links.numRej 31 + d.links.devNum
  else if o = 0x400 then d.links.hostStatus
  else if inArr 0x414 4 7 o then tget 0 d.links.slotPath (idxIn 0x410 4 o)
  else 0

def Dev.lnkReg (d : Dev) (p : Path) (die o : Nat) : Nat :=
  if inArr 0x100 16 4 o then (d.port (4 * die + idxIn 0x100 16 o)).ctl
  else if inArr 0x104 16 4 o then (d.port (4 * die + idxIn 0x104 16 o)).status d.clk.tick
  else if o = 0x300 then (d.pathOf p).routeSel
  else if o = 0x304 then d.route (d.pathOf p).routeSel
  else if die = 0 then d.lnkHostReg o
  else 0

/-! ### PWR_ (R23, R658) -/

def Power.status (p : Power) : Nat :=
  setBit p.tripped 31 + setBit p.brake 30 + setBit p.limited 29 + setBit p.therm 28 + p.memLevel * 2 ^ 16 + p.target

def Power.tripStatus (p : Power) : Nat :=
  setBit p.latched 31 + p.source * 2 ^ 24 + p.index % 256 * 2 ^ 16 + (max 0 (min 255 p.tempC)).toNat

/-- PWR_ISLAND_CLK_n. DESIGN CHOICE (log entry 151): the Lamplighter sets ADJUSTABLE with the assignment of the Spindles, at
boot stage 5. -/
def Dev.islandReg (d : Dev) (n : Nat) : Nat :=
  setBit (d.islandRuns n) 31 + setBit (decide (n < 15) && !d.lamp.sites.isEmpty) 30 + d.islandMhz n

def Dev.pwrReg (d : Dev) (o : Nat) : Nat :=
  if o = 0 then d.power.status
  else if o = 4 then d.power.cap / 1000
  else if o = 8 then d.power.tripStatus
  else if inArr 0x100 4 55 o then d.islandReg (idxIn 0x100 4 o)
  else 0

/-! ### LMP_ (R4, R33, R567, R638) -/

/-- The code of R532. -/
def PartState.code : PartState → Nat
  | .free => 0
  | .active => 1
  | .saved => 2
  | .reclaimed => 3

/-- Whether a CTX_SAVE or a CTX_RESTORE of a partition runs. -/
def Dev.savingPart (d : Dev) (n : Nat) : Bool :=
  d.live.any (fun x => x.2.begun && (match x.2.payload with
    | .ctxSave p _ => p == n
    | .ctxRestore p _ _ _ => p == n
    | _ => false))

/-- The RECLAIM that runs: its partition and its phase. -/
def Dev.reclaimRuns (d : Dev) : Option (Nat × Nat) :=
  (d.live.map (·.2)).findSome? (fun e => match e.payload, e.phase with
    | .reclaim p _ _, .running (.stage n _) => some (p, if n = 1 then 2 else n)
    | .reclaim p _ _, .running (.coll _ _ _) => some (p, 3)
    | .reclaim p _ _, .ran _ => some (p, 5)
    | _, _ => none)

/-- LMP_PART_n. -/
def Dev.partReg (d : Dev) (n : Nat) : Nat :=
  let x := d.part n
  x.state.code * 2 ^ 28 + setBit x.forerunner 27 + setBit x.span 26 + setBit (d.savingPart n) 25 +
    setBit (d.reclaimRuns.any (fun r => r.1 == n)) 24 + x.share * 2 ^ 16 + maskOf x.spindles

def Dev.reclaimReg (d : Dev) : Nat :=
  let r := d.parts.reclaim
  setBit d.reclaimRuns.isSome 31 + (d.reclaimRuns.map (·.2)).getD 0 * 2 ^ 28 + r.part * 2 ^ 24 + setBit r.snapFailed 23 + r.unwritten

def Lamp.bootStatus (l : Lamp) : Nat := setBit l.recovery 30 + setBit l.slotB 29 + setBit l.recordBad 28 + l.stage

def Dev.errStatus (d : Dev) : Nat :=
  setBit d.lamp.fatal 31 + setBit d.lamp.downAccess 30 +
    maskOf (nodupNat ((d.lamp.recovering.filter d.recoveryActive).map (·.unit.cls)))

def Lamp.inputStatus (l : Lamp) : Nat :=
  setBit l.rst.stuck 31 + setBit l.rst.chatter 30 + setBit l.perst.stuck 29 + setBit l.perst.chatter 28 + setBit l.rst.level 1 +
    setBit l.perst.level 0

def Lamp.xmssStatus (l : Lamp) : Nat := setBit l.exhausted 31 + setBit l.idLow 30 + setBit l.key.isSome 29 + l.idIndex

def Dev.lmpReg (d : Dev) (p : Path) (o : Nat) : Nat :=
  let l := d.lamp
  if o = 0 then devId
  else if o = 0x14 then (d.pathOf p).tickHi
  else if o = 0x18 then setBit d.clk.refPresent 1 + setBit d.clk.tickFree 0
  else if o = 0x20 then l.bootStatus
  else if o = 0x28 then vendorNumber
  else if o = 0x30 then d.errStatus
  else if o = 0x34 then l.dropped * 2 ^ 16 + l.errq.length
  else if o = 0x38 then l.inputStatus
  else if o = 0x40 then l.xmssStatus
  else if inArr 0x400 4 128 o then
    let i := idxIn 0x400 4 o
    digestWord (tget (zeros 32) l.meas (i / 8)) (i % 8)
  else if inArr 0x2000 4 14 o then d.partReg (idxIn 0x2000 4 o)
  else if o = 0x2100 then (d.pathOf p).acctSel
  else if o = 0x2200 then d.reclaimReg
  else 0

/-! ### The register space (R40, R42, R43) -/

/-- The word that a register reads as, apart from the counters and the two registers whose reads latch. -/
def Dev.regWord (d : Dev) (p : Path) (off : Nat) : Nat :=
  let b := off / 0x100000
  let o := off % 0x100000
  let h := o / 0x80000
  let r := o % 0x80000
  if b < 14 then (if h = 0 then d.spnReg b r else d.vecReg b r)
  else if b = 0x10 then d.sknReg p o
  else if b = 0x11 then d.wckReg o
  else if b = 0x12 then d.rqtReg p o
  else if b = 0x13 then d.trdReg h r
  else if b = 0x14 then d.bobReg h r
  else if b = 0x15 then d.rvlReg h r
  else if b = 0x16 then d.lnkReg p h r
  else if b = 0x17 then d.pwrReg o
  else if b = 0x18 then d.lmpReg p o
  else 0

/-- R43: the unit whose block stands at an offset, for a block that is not on the MGD. -/
def blockUnit (off : Nat) : Option UnitId :=
  let b := off / 0x100000
  let h := off % 0x100000 / 0x80000
  if b < 14 then some ⟨0, b⟩
  else if b = 0x10 ∨ b = 0x11 ∨ b = 0x12 then some ⟨1, 0⟩
  else if b = 0x13 then some ⟨7, h⟩
  else if b = 0x14 ∨ b = 0x15 then some ⟨8, h⟩
  else if b = 0x16 then some (if h = 0 ∧ 0x400 ≤ off % 0x80000 then ⟨6, 0⟩ else ⟨5, 4 * h⟩)
  else none

/-- The base of the register space in the device-physical map. -/
def regBase : Nat := 0xF001000000000

/-- R43: an access to a block on a die that is down: the error that it reports. -/
def Dev.downError (d : Dev) (off : Nat) : Option ErrorInfo :=
  if d.lamp.cdUp then none
  else (blockUnit off).map (fun u => ⟨u, unitIsland u, 0x07, 0xFF, 0xFF, 0, off⟩)

/-- R43: DOWN_ACCESS and the error record. -/
def Dev.reportDown (d : Dev) (e : ErrorInfo) : Dev := (d.modLamp (fun l => { l with downAccess := true })).due e

def tickLoOff : Nat := 0x1800010
def tokLoOff : Nat := 0x1006004

/-- A read of a block that is up: its value, and what it latches. -/
def Dev.readUp (d : Dev) (p : Path) (off : Nat) : Nat × Dev :=
  match allCounters.find? (fun c => counterOff c == off) with
  | some c =>
    let v := d.counter p c
    (v % 2 ^ 32, d.modPath p (fun x => { x with hi := setLatch x.hi c (v / 2 ^ 32) }))
  | none =>
    match allCounters.find? (fun c => counterOff c + 4 == off) with
    | some c => (latchOf (d.pathOf p).hi c, d)
    | none =>
      if off = tickLoOff then (d.clk.tick % 2 ^ 32, d.modPath p (fun x => { x with tickHi := d.clk.tick / 2 ^ 32 }))
      else if off = tokLoOff then
        let v := d.selectedToken p
        (v % 2 ^ 32, d.modPath p (fun x => { x with tokHi := v / 2 ^ 32 }))
      else (d.regWord p off % 2 ^ 32, d)

/-- R43: one read of a register on a path; zero from a die that is down. -/
def Dev.readReg (d : Dev) (p : Path) (off : Nat) : Nat × Dev :=
  match d.downError off with
  | some e => (0, d.reportDown e)
  | none => d.readUp p off

/-- What the last read access returned. -/
def Dev.setRead (d : Dev) (data : List Byte) (poisoned : Bool) : Dev :=
  d.modLinks (fun l => { l with readData := data, poisoned := poisoned })

/-- Whether an offset is of the LMP_ block, which recovery mode serves (R612). -/
def inLmpOff (off : Nat) : Bool := decide (off / 0x100000 = 0x18)

/-- R39, R598, R608: whether a register access can reach the register space on a path: through BAR0 of a host bridge that
works, through the group window, through a side-band port, from the Lamplighter. In recovery mode the boot ROM serves the
LMP_ block alone. -/
def Dev.reaches (d : Dev) (p : Path) (off : Nat) : Bool :=
  match p with
  | .host => d.links.bridge && d.lamp.cdUp
  | .group => d.lamp.cdUp
  | _ => d.lamp.on && (!d.lamp.recovery || inLmpOff off)

/-- A read whose word goes to its requester. -/
def Dev.readFor (d : Dev) (p : Path) (off : Nat) : Dev :=
  if d.reaches p off then
    let r := d.readReg p off
    r.2.setRead (leBytes 4 r.1) false
  else d

/-- R34: one aligned 8-byte read of a 64-bit count through the host bridge: the low half's read, which latches the high half,
and the high half that it latched. -/
def Dev.readPair (d : Dev) (off : Nat) : Dev :=
  if d.reaches .host off then
    let lo := d.readReg .host off
    let hi := lo.2.readReg .host (off + 4)
    hi.2.setRead (leBytes 4 lo.1 ++ leBytes 4 hi.1) false
  else d

/-- R34: a read of a low half; through the host bridge it may be of 8 bytes where the pair is 8-byte aligned. -/
def Dev.readCount (d : Dev) (p : Path) (off : Nat) (wide : Bool) : Dev :=
  if wide ∧ p = .host ∧ off % 8 = 0 then d.readPair off else d.readFor p off

def doTickLoRead (d : Dev) (p : Path) (wide : Bool) : Dev := d.readCount p tickLoOff wide
def doTokenLoRead (d : Dev) (p : Path) : Dev := d.readFor p tokLoOff
def doCounterLoRead (d : Dev) (p : Path) (c : Counter) (wide : Bool) : Dev :=
  if allCounters.contains c then d.readCount p (counterOff c) wide else d

/-- DOWN_ACCESS_READ: a read that reaches a die that is down. -/
def doDownAccessRead (d : Dev) (p : Path) (off : Nat) : Dev := if (d.downError off).isSome then d.readFor p off else d

end Sys2Proof.Machine
end

