-- ==== Sys2Proof/Machine/RegWrite.lean ====
section
/-! DEFINITION. Writes of the register space (R9, R40, R43), the side-band's accesses (R173, R608), and the host's windows
(R595 to R598, R660). -/

namespace Sys2Proof.Machine

/-! ### SPN_ and VEC_ -/

def Dev.writeSpn (d : Dev) (sp o v : Nat) : Dev := if o = 0x204 then doPilotCfgWrite d sp v else d

def Dev.writeVec (d : Dev) (sp o v : Nat) : Dev :=
  if o = 0 ∧ bit v 29 then d.modSpin sp (fun s => { s with permRange := false }) else d

/-! ### SKN_ (R164, R165, R193, R194, R288) -/

/-- R194, R373, R605: the paths that may write a quota or a link register. -/
def mayWrite (p : Path) : Bool := decide (p ≠ .lamplighter)

/-- R164: the sum of the Skein quotas with one partition's field replaced. -/
def Dev.skeinSumWith (d : Dev) (n pages : Nat) : Nat :=
  d.skeinSum - skeinShare (d.part n) + (if (d.part n).state = .saved then (d.part n).wickUsed else pages)

/-- R164: a write of SKN_QUOTA_SKEIN_n that would raise the sum above 376 is refused whole. -/
def Dev.writeSkeinQuota (d : Dev) (n v : Nat) : Dev :=
  let after := d.skeinSumWith n (bits v 8 0)
  if 376 < after ∧ d.skeinSum < after then d.modMem (fun m => { m with quotaRej := true })
  else d.modPart n (fun x => { x with quotaSkein := bits v 8 0, quotaWick := bits v 24 16 })

/-- SKN_ECC_STATUS: UE is cleared by writing 1, CE_CLR clears CE_COUNT. -/
def Mem.writeEcc (m : Mem) (v : Nat) : Mem :=
  { m with ueFlag := m.ueFlag && !bit v 31, ceCount := if bit v 30 then 0 else m.ceCount }

def Dev.clearDamaged (d : Dev) (r : Nat) : Dev :=
  match tfind d.mem.regions r with
  | some g => d.modMem (fun m => { m with regions := tins m.regions r { g with damaged := false } })
  | none => d

def Dev.writeSkn (d : Dev) (p : Path) (o v : Nat) : Dev :=
  if o = 0 then (if bit v 30 then d.modMem (fun m => { m with quotaRej := false }) else d)
  else if o = 0x10 then d.modMem (fun m => m.writeEcc v)
  else if inArr 0x100 4 14 o then (if mayWrite p then d.writeSkeinQuota (idxIn 0x100 4 o) v else d)
  else if inArr 0x140 4 14 o then
    (if mayWrite p then d.modPart (idxIn 0x140 4 o) (fun x => { x with quotaHbm := bits v 22 0 }) else d)
  else if inArr 0x180 4 14 o then
    (if mayWrite p then d.modPart (idxIn 0x180 4 o) (fun x => { x with quotaDdr := bits v 22 0 }) else d)
  else if inArr 0x300 4 16 o then (if bit v 30 then d.clearDamaged (idxIn 0x300 4 o) else d)
  else if inArr 0x608 16 14 o then
    (if bit v 31 then d.modPart (idxIn 0x608 16 o) (fun x => { x with fault := { x.fault with valid := false } }) else d)
  else if o = 0x6000 then d.modPath p (fun x => { x with tokSel := bits v 11 8 * 2 ^ 8 + bits v 5 0 })
  else d

/-! ### RQT_ and TRD_ (R373, R410, R488) -/

def Dev.writeRqt (d : Dev) (p : Path) (o v : Nat) : Dev :=
  if o = 0x40 then (if bit v 31 then { d with reqs := { d.reqs with ringBad := false } } else d)
  else if inArr 0x100 4 14 o then
    (if mayWrite p then { d with reqs := { d.reqs with maxReq := tput 0 d.reqs.maxReq (idxIn 0x100 4 o) (bits v 14 0) } } else d)
  else if o = 0x400 then d.modPath p (fun x => { x with tenSel := bits v 11 0 })
  else if o = 0x414 ∧ bit v 30 then
    { d with reqs := { d.reqs with
        tenants := tmod Tenant.reset d.reqs.tenants (d.pathOf p).tenSel (fun t => { t with overdrawn := false }) } }
  else d

def Dev.writeTrd (d : Dev) (die o v : Nat) : Dev :=
  if o = 0x10 then
    d.modTreadle die (fun t =>
      { t with event := t.event && !bit v 31, zeroSeen := t.zeroSeen && !bit v 30, ratioSeen := t.ratioSeen && !bit v 29 })
  else d

/-! ### LNK_ and PWR_ (R577, R575, R597, R605, R658) -/

def Dev.writeLnk (d : Dev) (p : Path) (die o v : Nat) : Dev :=
  if !mayWrite p then d
  else if inArr 0x100 16 4 o then d.writePortCtl (4 * die + idxIn 0x100 16 o) v
  else if inArr 0x104 16 4 o then
    (if bit v 28 then d.modPort (4 * die + idxIn 0x104 16 o) (fun x => { x with chatter := false }) else d)
  else if o = 0x300 then d.modPath p (fun x => { x with routeSel := bits v 13 0 })
  else if die ≠ 0 then d
  else if o = 0 then d.writeDevNum v
  else if o = 0x400 then d.modLinks (fun l => { l with pasidEn := bit v 28 })
  else if inArr 0x414 4 7 o then
    d.modLinks (fun l => { l with slotPath := tput 0 l.slotPath (idxIn 0x410 4 o) (bits v 31 27 * 2 ^ 27 + bits v 23 0) })
  else d

def Dev.writePwr (d : Dev) (o v : Nat) : Dev :=
  if o = 8 ∧ bit v 31 then d.modPower (fun p => { p with latched := false }) else d

/-! ### LMP_ (R32, R567, R612, R638) -/

/-- R612: RESTART repeats stage 1 in recovery mode. -/
def Dev.restart (d : Dev) : Dev := if d.lamp.recovery then d.bootFrom1 else d

/-- R612: LMP_RECOVERY_DATA programs flash slot B in recovery mode. -/
def Dev.programSlotB (d : Dev) (v : Nat) : Dev :=
  if d.lamp.recovery then d.modLamp (fun l => { l with flashB := l.flashB ++ leBytes 4 v }) else d

def ResetInput.clear (r : ResetInput) (stuck chatter : Bool) : ResetInput :=
  { r with stuck := r.stuck && !stuck, chatter := r.chatter && !chatter }

def Dev.writeLmp (d : Dev) (p : Path) (o v : Nat) : Dev :=
  if o = 0x18 then { d with clk := { d.clk with tickFree := d.clk.tickFree && !bit v 0 } }
  else if o = 0x20 then (if bit v 31 then d.restart else d)
  else if o = 0x30 then
    d.modLamp (fun l => { l with fatal := l.fatal && !bit v 31, downAccess := l.downAccess && !bit v 30 })
  else if o = 0x38 then
    d.modLamp (fun l => { l with rst := l.rst.clear (bit v 31) (bit v 30), perst := l.perst.clear (bit v 29) (bit v 28) })
  else if o = 0x80 then d.programSlotB v
  else if o = 0x2100 then d.modPath p (fun x => { x with acctSel := bits v 8 0 })
  else if o = 0x2200 ∧ bit v 23 then
    { d with parts := { d.parts with reclaim := { d.parts.reclaim with snapFailed := false } } }
  else d

/-! ### The register space -/

/-- A write to a block that is up. A read-only or reserved offset takes no write (R9, R40). -/
def Dev.writeUp (d : Dev) (p : Path) (off v : Nat) : Dev :=
  let b := off / 0x100000
  let o := off % 0x100000
  let h := o / 0x80000
  let r := o % 0x80000
  if b < 14 then (if h = 0 then d.writeSpn b r v else d.writeVec b r v)
  else if b = 0x10 then d.writeSkn p o v
  else if b = 0x12 then d.writeRqt p o v
  else if b = 0x13 then d.writeTrd h r v
  else if b = 0x16 then d.writeLnk p h r v
  else if b = 0x17 then d.writePwr o v
  else if b = 0x18 then d.writeLmp p o v
  else d

/-- R39, R43: one write of a register on a path; a die that is down ignores it. -/
def Dev.writeReg (d : Dev) (p : Path) (off v : Nat) : Dev :=
  if d.reaches p off then
    match d.downError off with
    | some e => d.reportDown e
    | none => d.writeUp p off v
  else d

def doRegisterWrite (d : Dev) (p : Path) (off : Nat) (v : Word) : Dev := d.writeReg p off v.toNat

/-- SKN_QUOTA_WRITE: kind 0 is the Skein's quota, 1 HBM's, 2 DDR5's. -/
def doSknQuotaWrite (d : Dev) (p : Path) (part kind : Nat) (v : Word) : Dev :=
  if part < 14 ∧ kind < 3 then d.writeReg p (0x1000100 + 0x40 * kind + 4 * part) v.toNat else d

def doCeClr (d : Dev) (p : Path) : Dev := d.writeReg p 0x1000010 0x40000000

def doPilotWrite (d : Dev) (p : Path) (sp : Nat) (v : Word) : Dev :=
  if sp < 14 then d.writeReg p (sp * 0x100000 + 0x204) v.toNat else d

def doDevNumWrite (d : Dev) (p : Path) (v : Word) : Dev := d.writeReg p 0x1600000 v.toNat

def doPortEnableWrite (d : Dev) (p : Path) (port : Nat) (v : Word) : Dev :=
  if port < 8 then d.writeReg p (0x1600100 + iodBase (port / 4) + 16 * (port % 4)) v.toNat else d

def doRestart (d : Dev) (p : Path) : Dev := d.writeReg p 0x1800020 0x80000000

def doRecoveryDataWrite (d : Dev) (p : Path) (v : Word) : Dev := d.writeReg p 0x1800080 v.toNat

/-! ### The side-band's accesses (R38, R40, R173, R608) -/

/-- R173: whether a page takes no access from outside commands: a sealed page or a Wick page. -/
def Dev.closedPage (d : Dev) (pa : Nat) : Bool :=
  d.mem.isSealed pa || d.parts.p.any (fun kv => kv.2.pt.any (fun e => decide (e.2.kind = .wick) && e.2.pa / pageBytes == pa / pageBytes))

/-- R173, R624: a refused access is logged. -/
def refusedError (pa : Nat) : ErrorInfo := ⟨memUnit pa, unitIsland (memUnit pa), 0x06, 0xFF, 0xFF, 0, pa⟩

def inRegs (a : Nat) : Bool := decide (regBase ≤ a) && decide (a < regBase + 0x2000000)

def sbPath (port : Nat) : Path := if port = 0 then .sb0 else .sb1

/-- Four bytes of memory for a side-band port. -/
def Dev.sbMemRead (d : Dev) (a : Nat) : List Byte × Dev :=
  if !d.lamp.cdUp || !d.mem.populated a then (zeros 4, d)
  else if d.closedPage a then (zeros 4, d.due (refusedError a))
  else if d.mem.ue.contains (a / 64) then
    let (u, d) := d.useFree
    ((List.range 4).map (Config.poisonByte u), d.meetUe a)
  else (d.memBytes a 4, d.correctAll [a / 64])

def Dev.sbReadWord (d : Dev) (port a : Nat) : List Byte × Dev :=
  if inRegs a then
    let r := d.readReg (sbPath port) (a - regBase)
    (leBytes 4 r.1, r.2)
  else d.sbMemRead a

/-- Whether the Lamplighter, or in recovery mode the boot ROM, serves an access of a side-band port now. -/
def Dev.sbServes (d : Dev) (port a : Nat) : Bool :=
  d.lamp.on && decide (port < 2) && (!d.lamp.recovery || (inRegs a && inLmpOff (a - regBase)))

/-- SB_REGISTER_READ: subtype 0x03, answered with 0x05: the values, or the result 1 for a count or an address that the
layout does not allow. -/
def doSbRegisterRead (d : Dev) (src : SbEnd) (tag addr words : Nat) : Dev :=
  if !d.sbServes src.port addr then d
  else if words = 0 ∨ 16 < words ∨ addr % 4 ≠ 0 then d.sbSend src (0x05 :: (leBytes 1 tag ++ [1]))
  else
    let r := (List.range words).foldl (fun (x : List Byte × Dev) i =>
      let y := x.2.sbReadWord src.port (addr + 4 * i)
      (x.1 ++ y.1, y.2)) (([] : List Byte), d)
    r.2.sbSend src (0x05 :: (leBytes 1 tag ++ r.1))

/-- R181: whether an address lies in a page of the free pool, which holds zeros. -/
def Mem.inFreePool (m : Mem) (pa : Nat) : Bool :=
  match tierOf pa with
  | some (t, n) => decide (firstPage t ≤ n) && decide (m.use t n = .free)
  | none => false

/-- Four bytes of memory written by a side-band port: whether they were, and the device after it. Only request commands write
the request entries (R331). DESIGN CHOICE (log entry 162): a page of the free pool takes no write, so that it holds zeros
(R181). -/
def Dev.sbMemWrite (d : Dev) (a : Nat) (data : List Byte) : Bool × Dev :=
  if !d.lamp.cdUp || !d.mem.populated a || d.mem.inFreePool a || inEntries a then (false, d)
  else if d.closedPage a then (false, d.due (refusedError a))
  else if d.mem.ue.contains (a / 64) then (false, d.meetUe a)
  else (true, d.poke false a data)

/-- SB_REGISTER_WRITE: subtype 0x04, answered with 0x05 and its result. -/
def doSbRegisterWrite (d : Dev) (src : SbEnd) (tag addr : Nat) (v : Word) : Dev :=
  if !d.sbServes src.port addr then d
  else if addr % 4 ≠ 0 then d.sbSend src (0x05 :: (leBytes 1 tag ++ [1]))
  else if inRegs addr then (d.writeReg (sbPath src.port) (addr - regBase) v.toNat).sbSend src (0x05 :: (leBytes 1 tag ++ [0]))
  else
    let r := d.sbMemWrite addr (leBytes 4 v.toNat)
    r.2.sbSend src (0x05 :: (leBytes 1 tag ++ [if r.1 then 0 else 1]))

/-! ### Queue windows (R595, R660) -/

/-- Whether a queue's ring stands in memory: a saved queue's does while its pages are mapped. -/
def Dev.ringHere (d : Dev) (k : Queue) (va len : Nat) : Bool := k.state != .saved || d.ringRangeOk k.part va len

/-- The device-physical address of a byte of a queue window; none beyond the rings, and none for a queue that does not
exist. A ring in the Skein whose pages CTX_SAVE has taken away (R552) stands at no address until CTX_RESTORE. -/
def Dev.windowAddr (d : Dev) (q off : Nat) : Option Nat :=
  let k := d.queue q
  if k.state == .disabled || d.localQueue q then none
  else if off < 0x400000 then (if off < 64 * 2 ^ k.sqLog2 && d.ringHere k k.sqVa (64 * 2 ^ k.sqLog2) then some (ringAddr k.sqPages off) else none)
  else if off - 0x400000 < 32 * 2 ^ k.cqLog2 && d.ringHere k k.cqVa (32 * 2 ^ k.cqLog2) then some (ringAddr k.cqPages (off - 0x400000)) else none

/-- A range cut where 64-byte sectors begin: the pieces' offsets and lengths. -/
def sectorPieces (off n : Nat) : List (Nat × Nat) :=
  (List.range (n / 64 + 2)).filterMap (fun i =>
    let lo := max off (64 * (off / 64 + i))
    let hi := min (off + n) (64 * (off / 64 + i) + 64)
    if lo < hi then some (lo, hi - lo) else none)

/-- R660: the error of an access that meets an uncorrectable error in a ring. -/
def ringError (q pa : Nat) : ErrorInfo := ⟨memUnit pa, unitIsland (memUnit pa), 0x01, 0xFF, q, 0, pa⟩

/-- R660: what such an access leaves. -/
def Dev.ringUe (d : Dev) (q pa : Nat) : Dev :=
  ((d.modMem (fun m => m.noteUe pa)).modLinks (fun l => { l with aer := l.aer + 1 })).due (ringError q pa)

def Dev.hitsUe (d : Dev) (q : Nat) (ps : List (Nat × Nat)) : Option Nat :=
  (ps.filterMap (fun p => d.windowAddr q p.1)).find? (fun a => d.mem.ue.contains (a / 64))

/-- A read of a queue window. -/
def Dev.windowRead (d : Dev) (q off n : Nat) : Dev :=
  let ps := sectorPieces off n
  match d.hitsUe q ps with
  | some a =>
    let (u, d) := d.useFree
    (d.ringUe q a).setRead ((List.range n).map (Config.poisonByte u)) true
  | none =>
    let addrs := ps.filterMap (fun p => d.windowAddr q p.1)
    let data := ps.flatMap (fun p => match d.windowAddr q p.1 with
      | some a => getBytes d.mem.bytes a p.2
      | none => zeros p.2)
    (d.correctAll (addrs.map (· / 64))).setRead data false

/-- A write of a queue window; one that covers only part of a sector with an uncorrectable error is dropped. -/
def Dev.windowWrite (d : Dev) (q off : Nat) (data : List Byte) : Dev :=
  let ps := sectorPieces off data.length
  match d.hitsUe q (ps.filter (fun p => decide (p.2 < 64))) with
  | some a => d.ringUe q a
  | none => ps.foldl (fun (d : Dev) p => match d.windowAddr q p.1 with
      | some a => d.poke false a (slice data (p.1 - off) p.2)
      | none => d) d

/-- QUEUE_WINDOW_ACCESS: a read of len bytes, or a write. -/
def doQueueWindow (d : Dev) (q off len : Nat) (write : Option (List Byte)) : Dev :=
  if !d.lamp.cdUp || decide (256 ≤ q) then d
  else match write with
    | none => d.windowRead q off len
    | some data => d.windowWrite q off data

/-! ### The MSI-X table and the group window (R594, R597, R598) -/

def msixBase : Nat := 0x80010000
def pbaBase : Nat := 0x80018000

/-- A word of the MSI-X table or of the pending bits, by its offset in BAR2. -/
def Links.msixWord (l : Links) (o : Nat) : Nat :=
  if pbaBase ≤ o then
    (if o - pbaBase < 256 then maskOf ((l.msixPend.filter (fun v => v / 32 == (o - pbaBase) / 4)).map (· % 32)) else 0)
  else if (o - msixBase) % 16 = 12 then setBit (tget true l.msixMask ((o - msixBase) / 16)) 0
  else tget 0 l.msixTable ((o - msixBase) / 4)

/-- A write of the MSI-X table; the mask bit of a vector stands in the last word of its entry. -/
def Dev.writeMsix (d : Dev) (o v : Nat) : Dev :=
  if pbaBase ≤ o then d
  else if (o - msixBase) % 16 = 12 then
    (if bit v 0 then d.modLinks (fun l => { l with msixMask := tput true l.msixMask ((o - msixBase) / 16) true })
      else doMsixUnmask d ((o - msixBase) / 16))
  else d.modLinks (fun l => { l with msixTable := tput 0 l.msixTable ((o - msixBase) / 4) v })

/-- The 4-byte words of an access: their offsets from its start. -/
def wordOffs (len : Nat) : List Nat := (List.range (len / 4)).map (4 * ·)

/-- R248, R594: the doorbell page: each 8-byte write is one doorbell; nothing is read there. -/
def Dev.bellPage (d : Dev) (len : Nat) (write : Option (List Byte)) : Dev :=
  match write with
  | none => d.setRead (zeros len) false
  | some b => if len = 8 then d.doorbell (leAt b 4 4) (leAt b 0 4) else d

/-- R594: an access to BAR2, or to a copy of its layout. -/
def Dev.bar2Access (d : Dev) (o len : Nat) (write : Option (List Byte)) : Dev :=
  if o < 0x80000000 then doQueueWindow d (o / 0x800000) (o % 0x800000) len write
  else if o < 0x80001000 then d.bellPage len write
  else if msixBase ≤ o ∧ o < pbaBase + 0x8000 then
    match write with
    | some b => (wordOffs len).foldl (fun d i => d.writeMsix (o + i) (leAt b i 4)) d
    | none => d.setRead ((wordOffs len).flatMap (fun i => leBytes 4 (d.links.msixWord (o + i)))) false
  else if write.isNone then d.setRead (zeros len) false
  else d

/-- R34, R41: an access to BAR0: one register, or the two of an aligned 8-byte access, the lower first. -/
def Dev.bar0Access (d : Dev) (o len : Nat) (write : Option (List Byte)) : Dev :=
  match write with
  | some b => (wordOffs len).foldl (fun d i => d.writeReg .host (o + i) (leAt b i 4)) d
  | none => if len = 8 then d.readPair o else d.readFor .host o

/-- R597: slot 0 aliases the bridge itself. -/
def Dev.slot0Access (d : Dev) (o len : Nat) (write : Option (List Byte)) : Dev :=
  if o < 0x2000000 then d.bar0Access o len write
  else if 0x100000000 ≤ o then d.bar2Access (o - 0x100000000) len write
  else if write.isNone then d.setRead (zeros len) false
  else d

/-- R597: whether a slot's path is VALID and its first port, which is this device's, is UP. -/
def Dev.pathOpen (d : Dev) (slot : Nat) : Bool :=
  let w := tget 0 d.links.slotPath slot
  bit w 31 && decide (1 ≤ bits w 30 27) && decide (bits w 30 27 ≤ 8) && (d.port (bits w 2 0)).state == .up

/-- R597: an access that goes along a slot's path on VC3, without a route table. -/
def Dev.forwardAccess (d : Dev) (slot o len : Nat) (write : Option (List Byte)) : Dev :=
  let body := MsgBody.portAccess slot o len write
  let (m, d) := d.newMsg slot body
  let d := (d.modLinks (fun l => { l with out := l.out ++ [m] })).giveFlits (bits (tget 0 d.links.slotPath slot) 2 0) m.vc 0 (flitsOf body)
  if write.isNone then
    let (u, d) := d.useFree
    d.setRead ((wordOffs len).flatMap (fun i => wordBytes (Config.memberWord u slot (o + i)))) false
  else d

/-- GROUP_WINDOW_ACCESS: a host access through BAR4 of the bridge. -/
def doGroupWindow (d : Dev) (slot o len : Nat) (write : Option (List Byte)) : Dev :=
  if !d.links.bridge || !d.lamp.cdUp || decide (8 ≤ slot) || decide (0x200000000 ≤ o) then d
  else if slot = 0 then d.slot0Access o len write
  else if d.pathOpen slot then d.forwardAccess slot o len write
  else
    let d := d.modLinks (fun l => { l with hostDiscard := (l.hostDiscard + 1) % 2 ^ 64 })
    if write.isNone then d.setRead (zeros len) false else d

end Sys2Proof.Machine
end

