-- ==== Sys2Proof/Machine/Meaning.lean ====
section
/-! DEFINITION. What every meaning does with the rest of the state: the command's effect on the block, then the errors that
it met, in the order of R629; the queue of waiting commands stays. -/

namespace Sys2Proof.Machine

/-- The state after a command's effect on the block. -/
def State.after (s : State) (f : Dev → Dev) : State := { s with dev := (f s.dev).settle }

/-- A command takes its effect. -/
def State.runDev (s : State) (f : Dev → Dev) : Host.Outcome State Fault Refusal := .next (s.after f)

end Sys2Proof.Machine
end

