-- ==== Sys2Proof/Machine/ArrayCommands.lean ====
section
/-! DEFINITION. The meanings of the commands of the matrix array and the pilots (chapter 03), one definition for each. -/

namespace Sys2Proof.Machine

/-- R130. Array command computing C = A·B or C += A·B over row and column tiles, with folds and a chosen drain. -/
def execArrMatmul (c : CmdRef) (s : State) : Host.Outcome State Fault Refusal :=
  s.runDev (fun d => doArrMatmul d c)

/-- R129. Array command streaming up to 16,777,216 rows with k ≤ 256 to the Skein or the Wick. -/
def execArrStream (c : CmdRef) (s : State) : Host.Outcome State Fault Refusal :=
  s.runDev (fun d => doArrStream d c)

/-- R109. Array command computing a convolution by feeder address generation over an NHWC input. -/
def execArrConv (c : CmdRef) (s : State) : Host.Outcome State Fault Refusal :=
  s.runDev (fun d => doArrConv d c)

/-- R113. Array command for thin products, holding X stationary and streaming each weight row once. -/
def execArrShallow (c : CmdRef) (s : State) : Host.Outcome State Fault Refusal :=
  s.runDev (fun d => doArrShallow d c)

/-- R110. Array command running up to four independent products, one per quadrant. -/
def execArrQuad (c : CmdRef) (s : State) : Host.Outcome State Fault Refusal :=
  s.runDev (fun d => doArrQuad d c)

/-- R135. ARR_ACC operation that zeroes accumulator tiles or half-tiles and their product counts. -/
def execArrAccZero (c : CmdRef) (s : State) : Host.Outcome State Fault Refusal :=
  s.runDev (fun d => doArrAccZero d c)

/-- R135. ARR_ACC operation that loads accumulator tiles from memory. -/
def execArrAccLoad (c : CmdRef) (s : State) : Host.Outcome State Fault Refusal :=
  s.runDev (fun d => doArrAccLoad d c)

/-- R135. ARR_ACC operation that stores accumulator tiles to memory with conversion. -/
def execArrAccStore (c : CmdRef) (s : State) : Host.Outcome State Fault Refusal :=
  s.runDev (fun d => doArrAccStore d c)

/-- R135. ARR_ACC operation that posts committed tiles to the tile queue. -/
def execArrAccPost (c : CmdRef) (s : State) : Host.Outcome State Fault Refusal :=
  s.runDev (fun d => doArrAccPost d c)

/-- R123. Each 16-cycle window boundary, at which the Spindle sets pilot-row density and applies a pending pilot
configuration. -/
def execPilotWindow (sp : Nat) (w : PilotSlots) (s : State) : Host.Outcome State Fault Refusal :=
  s.runDev (fun d => doPilotWindow d sp w.slots w.bubble)

/-- R124. Expiry of a ramp step during a long gap, lowering the occupied count by one per window. -/
def execPilotRamp (sp : Nat) (s : State) : Host.Outcome State Fault Refusal :=
  s.runDev (fun d => doPilotRamp d sp)

/-- R120. Shared commit of every member of an accumulation chain when the last one finishes. -/
def execChainCommit (sp : Nat) (chain : Nat) (s : State) : Host.Outcome State Fault Refusal :=
  s.runDev (fun d => doChainCommit d sp chain)

/-- R139. Write to SPN_PILOT_CFG, taking effect at the next window boundary. -/
def execPilotCfgWrite (path : Path) (sp : Nat) (value : Word) (s : State) : Host.Outcome State Fault Refusal :=
  s.runDev (fun d => doPilotWrite d path sp value)

end Sys2Proof.Machine
end

