-- ==== Sys2Proof/Machine/Drafting.lean ====
section
/-! DEFINITION. The meanings of the commands of drafts and streams (chapter 09), one definition for each. -/

namespace Sys2Proof.Machine

/-- R404. DRAFT_SET operation setting a request's draft_ctl and resetting its tracker. -/
def execConfig (c : CmdRef) (s : State) : Host.Outcome State Fault Refusal :=
  s.runDev (fun d => doConfig d c)

/-- R389. DRAFT_SET operation forming drafter distributions and writing draft nodes. -/
def execDraw (c : CmdRef) (s : State) : Host.Outcome State Fault Refusal :=
  s.runDev (fun d => doDraw d c)

/-- R399. Stream writer delivering a held token record to a request's host ring when room exists. -/
def execStreamDeliver (req : Nat) (s : State) : Host.Outcome State Fault Refusal :=
  s.runDev (fun d => doStreamDeliver d req)

/-- R401. Periodic read of a ring's consumer count by the stream writer. -/
def execConsRead (req : Nat) (s : State) : Host.Outcome State Fault Refusal :=
  s.runDev (fun d => doConsRead d req)

end Sys2Proof.Machine
end

