-- ==== Sys2Proof/Machine/Exchanging.lean ====
section
/-! DEFINITION. The meanings of the commands of the gradient exchange and the activation moves (chapter 10), one definition for each. -/

namespace Sys2Proof.Machine

/-- R419. GRAD_EXCHANGE operation binding an exchange context to a group and buffers. -/
def execGradExchangeConfig (c : CmdRef) (s : State) : Host.Outcome State Fault Refusal :=
  s.runDev (fun d => doXchConfig d c)

/-- R423. GRAD_EXCHANGE operation encoding the gradient blocks, updating the residual and delivering contributions to
owners. -/
def execSend (c : CmdRef) (s : State) : Host.Outcome State Fault Refusal :=
  s.runDev (fun d => doSend d c)

/-- R438. GRAD_EXCHANGE operation discarding a context's entries and unbinding it. -/
def execRemove (c : CmdRef) (s : State) : Host.Outcome State Fault Refusal :=
  s.runDev (fun d => doXchRemove d c)

/-- R433. Arrival of a gradient contribution at its owner, stored, held or discarded by step. -/
def execContribArrive (m : Message) (s : State) : Host.Outcome State Fault Refusal :=
  s.runDev (fun d => doContribArrive d m)

/-- R427. Command that sums the owner's shard from the contributions its decision admits. -/
def execStepWait (c : CmdRef) (s : State) : Host.Outcome State Fault Refusal :=
  s.runDev (fun d => doStepWait d c)

/-- R429. Decision of STEP_WAIT when all contributions arrived or its window passed. -/
def execDecisionTick (c : CmdRef) (s : State) : Host.Outcome State Fault Refusal :=
  s.runDev (fun d => doDecisionTick d c)

/-- R415. Command copying activation pages from Skein or HBM into DDR5 over several data movers. -/
def execActOffload (c : CmdRef) (s : State) : Host.Outcome State Fault Refusal :=
  s.runDev (fun d => doActOffload d c)

/-- R415. Command copying activation pages from DDR5 back to Skein or HBM. -/
def execActPrefetch (c : CmdRef) (s : State) : Host.Outcome State Fault Refusal :=
  s.runDev (fun d => doActPrefetch d c)

end Sys2Proof.Machine
end

