-- ==== Sys2Proof/Machine/Lamplighting.lean ====
section
/-! DEFINITION. The meanings of the commands of the Lamplighter (chapter 15), one definition for each. -/

namespace Sys2Proof.Machine

/-- R632. Filtered reset input that resets only the host bridge. -/
def execHostPerstN (high : Bool) (heldNs : Nat) (s : State) : Host.Outcome State Fault Refusal :=
  s.runDev (fun d => doHostPerstN d high heldNs)

/-- R612. Write of RESTART in recovery mode, repeating boot stage 1. -/
def execRestart (path : Path) (s : State) : Host.Outcome State Fault Refusal :=
  s.runDev (fun d => doRestart d path)

/-- R612. Write to LMP_RECOVERY_DATA in recovery mode, programming flash slot B. -/
def execRecoveryDataWrite (path : Path) (value : Word) (s : State) : Host.Outcome State Fault Refusal :=
  s.runDev (fun d => doRecoveryDataWrite d path value)

/-- R608. Side-band vendor message 0x01 appending a command packet to queue 1. -/
def execSbCommandPacket (m : VendorEnd) (packet : List Byte) (s : State) : Host.Outcome State Fault Refusal :=
  s.runDev (fun d => d.onVendor m.vendor (fun d => doSbCommandPacket d m.src packet))

/-- R608. Side-band vendor message 0x03 reading registers and answering with 0x05. -/
def execSbRegisterRead (m : VendorEnd) (tag addr words : Nat) (s : State) : Host.Outcome State Fault Refusal :=
  s.runDev (fun d => d.onVendor m.vendor (fun d => doSbRegisterRead d m.src tag addr words))

/-- R608. Side-band vendor message 0x04 writing a register and answering with 0x05. -/
def execSbRegisterWrite (m : VendorEnd) (tag addr : Nat) (value : Word) (s : State) : Host.Outcome State Fault Refusal :=
  s.runDev (fun d => d.onVendor m.vendor (fun d => doSbRegisterWrite d m.src tag addr value))

/-- R611. Side-band vendor message 0x07 carrying the next bytes of a device record. -/
def execSbContinuation (m : VendorEnd) (offset : Nat) (data : List Byte) (s : State) : Host.Outcome State Fault Refusal :=
  s.runDev (fun d => d.onVendor m.vendor (fun d => doSbContinuation d m.src.port offset data))

/-- R611. Expiry of 1,000,000 ticks without the next continuation, failing DEVREC_INSTALL. -/
def execContinuationTimeout (s : State) : Host.Outcome State Fault Refusal :=
  s.runDev (fun d => doContinuationTimeout d)

/-- R608. MCTP control command answered with the enterprise number. -/
def execGetVendorDefinedMessageSupport (src : SbEnd) (s : State) : Host.Outcome State Fault Refusal :=
  s.runDev (fun d => doGetVendor d src)

/-- R634. Rate-limited sending of an alert message with the event count and newest record. -/
def execAlertSend (port : Nat) (s : State) : Host.Outcome State Fault Refusal :=
  s.runDev (fun d => doAlertSend d port)

/-- R621. Operator command signing an attestation report with the per-boot key. -/
def execAttestReport (c : CmdRef) (s : State) : Host.Outcome State Fault Refusal :=
  s.runDev (fun d => doAttestReport d c)

/-- R623. ATTEST operation extending a host-extendable measurement register. -/
def execExtend (c : CmdRef) (s : State) : Host.Outcome State Fault Refusal :=
  s.runDev (fun d => doExtend d c)

/-- R615. Operator command verifying a new device record into the other copy and selecting it. -/
def execDevrecInstall (c : CmdRef) (s : State) : Host.Outcome State Fault Refusal :=
  s.runDev (fun d => doDevrecInstall d c)

/-- R635. Operator command returning the latest telemetry sample. -/
def execTelemetry (c : CmdRef) (s : State) : Host.Outcome State Fault Refusal :=
  s.runDev (fun d => doTelemetry d c)

/-- R635. Sampling of every sensor every 100 ticks. -/
def execTelemetrySample (sensors : Sensors) (powerMw : Nat) (s : State) : Host.Outcome State Fault Refusal :=
  s.runDev (fun d => doTelemetrySample d sensors powerMw)

/-- R631. Operator command returning records from the error queue or the MRAM log. -/
def execErrqRead (c : CmdRef) (s : State) : Host.Outcome State Fault Refusal :=
  s.runDev (fun d => doErrqRead d c)

/-- R626. Taking of an error for a unit, writing its record and acting at its escalated level. -/
def execErrorTaken (e : ErrorInfo) (s : State) : Host.Outcome State Fault Refusal :=
  s.runDev (fun d => doErrorTaken d e)

/-- R625. End of a unit's level-1 restart, reissuing its killed commands. -/
def execUnitRestartDone (u : UnitId) (s : State) : Host.Outcome State Fault Refusal :=
  s.runDev (fun d => doUnitRestartDone d u)

/-- R628. A level-1 action not ended within 10,000 ticks, taking code 0x05. -/
def execRecoveryTimeout (u : UnitId) (s : State) : Host.Outcome State Fault Refusal :=
  s.runDev (fun d => doRecoveryTimeout d u)

/-- R624. A command running for four times its worst-case count, taking code 0x04. -/
def execWatchdog (c : CmdRef) (s : State) : Host.Outcome State Fault Refusal :=
  s.runDev (fun d => doWatchdog d c)

/-- R630. Lamplighter lockstep mismatch or handling fault, treated as device-fatal by the hardware sequencer. -/
def execLockstepFault (s : State) : Host.Outcome State Fault Refusal :=
  s.runDev (fun d => doLockstepFault d)

/-- R612. Rise of the standby rails, starting the tick counter and the boot stages. -/
def execStandbyPowerUp (b : BoardFacts) (s : State) : Host.Outcome State Fault Refusal :=
  s.runDev (fun d => doStandbyPowerUp d b)

/-- R632. Filtered low pulse of SB_RST_N, making a device reset. -/
def execSbRstN (lowNs : Nat) (s : State) : Host.Outcome State Fault Refusal :=
  s.runDev (fun d => doSbRstN d lowNs)

/-- R632. A reset input low for more than 100 ms, latched STUCK and ignored. -/
def execInputStuck (input : Nat) (s : State) : Host.Outcome State Fault Refusal :=
  s.runDev (fun d => doInputStuck d input)

/-- R632. Eight filtered resets within 1,000,000 ticks, latching CHATTER. -/
def execInputChatter (input : Nat) (s : State) : Host.Outcome State Fault Refusal :=
  s.runDev (fun d => doInputChatter d input)

end Sys2Proof.Machine
end

