-- ==== Sys2Proof/Machine/Memory.lean ====
section
/-! DEFINITION. The meanings of the commands of the Skein and the memory tiers (chapter 04), one definition for each. -/

namespace Sys2Proof.Machine

/-- R187. Data-movement command copying or converting a strided matrix. -/
def execMemCopy (c : CmdRef) (s : State) : Host.Outcome State Fault Refusal :=
  s.runDev (fun d => doMemCopy d c)

/-- R185. Data-movement command filling rows with a repeated 32-bit pattern. -/
def execMemFill (c : CmdRef) (s : State) : Host.Outcome State Fault Refusal :=
  s.runDev (fun d => doMemFill d c)

/-- R166. Mapping command placing pages in tiers by quota and mapping them. -/
def execMemAlloc (c : CmdRef) (s : State) : Host.Outcome State Fault Refusal :=
  s.runDev (fun d => doMemAlloc d c)

/-- R190. Mapping command unmapping data, KV or Wick pages and queuing them for zeroing. -/
def execMemFree (c : CmdRef) (s : State) : Host.Outcome State Fault Refusal :=
  s.runDev (fun d => doMemFree d c)

/-- R190. Mapping command copying pages to another tier and remapping them. -/
def execMemMigrate (c : CmdRef) (s : State) : Host.Outcome State Fault Refusal :=
  s.runDev (fun d => doMemMigrate d c)

/-- R175. MEM_SEALED operation that unmaps a range of HBM pages, seals them as a region and stores its digest. -/
def execSeal (c : CmdRef) (s : State) : Host.Outcome State Fault Refusal :=
  s.runDev (fun d => doSeal d c)

/-- R177. MEM_SEALED operation that grants a sealed region read-only to a partition. -/
def execMap (c : CmdRef) (s : State) : Host.Outcome State Fault Refusal :=
  s.runDev (fun d => doMap d c)

/-- R178. MEM_SEALED operation that removes a sealed region's mapping from a partition. -/
def execUnmap (c : CmdRef) (s : State) : Host.Outcome State Fault Refusal :=
  s.runDev (fun d => doUnmap d c)

/-- R179. MEM_SEALED operation that releases a sealed region for zeroing. -/
def execUnseal (c : CmdRef) (s : State) : Host.Outcome State Fault Refusal :=
  s.runDev (fun d => doUnseal d c)

/-- R179. End of zeroing of an unsealed region's last page, when the region ceases to exist. -/
def execUnsealZeroDone (region : Nat) (s : State) : Host.Outcome State Fault Refusal :=
  s.runDev (fun d => doUnsealZeroDone d region)

/-- R659. Completion of background zeroing of a released page or KV slot, which returns it to the free pool. -/
def execBackgroundZeroDone (t : ZeroTarget) (s : State) : Host.Outcome State Fault Refusal :=
  s.runDev (fun d => doBackgroundZeroDone d t)

/-- R183. Completion of the zeroing of a released partition's Spindles and pages, which frees them for reassignment. -/
def execReleaseZeroDone (part : Nat) (s : State) : Host.Outcome State Fault Refusal :=
  s.runDev (fun d => doReleaseZeroDone d part)

/-- R164. Write of a Skein quota, refused with QUOTA_REJ when the sum would exceed 376. -/
def execSknQuotaWrite (path : Path) (part : Nat) (kind : Nat) (value : Word) (s : State) : Host.Outcome State Fault Refusal :=
  s.runDev (fun d => doSknQuotaWrite d path part kind value)

/-- R193. Write of 1 to CE_CLR, clearing the Skein corrected-error count. -/
def execCeClr (path : Path) (s : State) : Host.Outcome State Fault Refusal :=
  s.runDev (fun d => doCeClr d path)

end Sys2Proof.Machine
end

