-- ==== Sys2Proof/Machine/Nelcona.lean ====
section
/-! DEFINITION. The meanings of the commands of the links and the host bridge (chapter 14), one definition for each. -/

namespace Sys2Proof.Machine

/-- R581. Operator command writing route-table entries and holding traffic to changed destinations. -/
def execRouteSet (c : CmdRef) (s : State) : Host.Outcome State Fault Refusal :=
  s.runDev (fun d => doRouteSet d c)

/-- R581. Release of held messages once every earlier message to the destination is acknowledged or lost. -/
def execRouteHoldRelease (dst : Nat) (s : State) : Host.Outcome State Fault Refusal :=
  s.runDev (fun d => doRouteHoldRelease d dst)

/-- R583. Command declaring or replacing a reduction group's member list. -/
def execGroupDeclare (c : CmdRef) (s : State) : Host.Outcome State Fault Refusal :=
  s.runDev (fun d => doGroupDeclare d c)

/-- R602. GROUP_DECLARE operation removing a reduction group. -/
def execGroupRemove (c : CmdRef) (s : State) : Host.Outcome State Fault Refusal :=
  s.runDev (fun d => doGroupRemove d c)

/-- R591. Command copying bytes into a group member's partition, published on the commit message. -/
def execLinkWrite (c : CmdRef) (s : State) : Host.Outcome State Fault Refusal :=
  s.runDev (fun d => doLinkWrite d c)

/-- R589. Command reducing partials along a group's chain in pipelined segments. -/
def execChainReduce (c : CmdRef) (s : State) : Host.Outcome State Fault Refusal :=
  s.runDev (fun d => doChainReduce d c)

/-- R593. Command signalling a token of a group member's partition. -/
def execLinkSignal (c : CmdRef) (s : State) : Host.Outcome State Fault Refusal :=
  s.runDev (fun d => doLinkSignal d c)

/-- R587. Arrival of a chain or group-tree value at a member, which combines it and sends it on. -/
def execGroupMessageArrive (m : Message) (s : State) : Host.Outcome State Fault Refusal :=
  s.runDev (fun d => doGroupMessageArrive d m)

/-- R591. Arrival of a sender's commit message, which publishes shadow writes and acknowledges. -/
def execCommitMessageArrive (m : Message) (s : State) : Host.Outcome State Fault Refusal :=
  s.runDev (fun d => doCommitMessage d m)

/-- R572. Receipt of a flit, with CRC check, credit return and replay request on failure. -/
def execFlitReceive (port : Nat) (f : FlitIn) (s : State) : Host.Outcome State Fault Refusal :=
  s.runDev (fun d => doFlitReceive d port f)

/-- R572. Receipt of a replay request, which resends flits from the replay buffer. -/
def execReplayRequest (port : Nat) (fromFlit : Nat) (s : State) : Host.Outcome State Fault Refusal :=
  s.runDev (fun d => doReplayRequest d port fromFlit)

/-- R579. Forwarding of a message by an intermediate device, or dropping it with an unreachable notice. -/
def execMessageForward (port : Nat) (cls : Nat) (m : Message) (s : State) : Host.Outcome State Fault Refusal :=
  s.runDev (fun d => doMessageForward d port cls m)

/-- R579. Receipt of an end-to-end acknowledgement of a message. -/
def execEndToEndAck (msg : Nat) (s : State) : Host.Outcome State Fault Refusal :=
  s.runDev (fun d => doEndToEndAck d msg)

/-- R579. Receipt of an unreachable notice, failing the sender with ST_LINK_DOWN. -/
def execUnreachable (msg : Nat) (s : State) : Host.Outcome State Fault Refusal :=
  s.runDev (fun d => doUnreachable d msg)

/-- R579. Expiry of 10,000 ticks without acknowledgement or notice, declaring a message lost. -/
def execMessageLostTimeout (msg : Nat) (s : State) : Host.Outcome State Fault Refusal :=
  s.runDev (fun d => doMessageLost d msg)

/-- R573. Start of a port retrain on lock loss, a third replay or excess FEC errors, with lane repair. -/
def execRetrain (port : Nat) (cause : RetrainCause) (badLane : Option Nat) (s : State) : Host.Outcome State Fault Refusal :=
  s.runDev (fun d => doRetrain d port cause badLane)

/-- R573. Completion of a retrain, which sends the waiting flits. -/
def execRetrainDone (port : Nat) (s : State) : Host.Outcome State Fault Refusal :=
  s.runDev (fun d => doRetrainDone d port)

/-- R575. A retrain that does not complete within 10,000 ticks, taking the port DOWN. -/
def execRetrainTimeout (port : Nat) (s : State) : Host.Outcome State Fault Refusal :=
  s.runDev (fun d => doRetrainTimeout d port)

/-- R597. Host access through the BAR4 group window forwarded along a slot's port path. -/
def execGroupWindowAccess (slot offset : Nat) (x : HostAccess) (s : State) : Host.Outcome State Fault Refusal :=
  s.runDev (fun d => doGroupWindow d slot offset x.len x.write)

/-- R595. Host access to a queue ring through a BAR2 queue window. -/
def execQueueWindowAccess (queue : Nat) (offset : Nat) (len : Nat) (write : Option (List Byte)) (s : State) : Host.Outcome State Fault Refusal :=
  s.runDev (fun d => doQueueWindow d queue offset len write)

/-- R601. Return of the host path, which resends lost host-bound writes in order. -/
def execHostPathUp (speed : Nat) (width : Nat) (s : State) : Host.Outcome State Fault Refusal :=
  s.runDev (fun d => doHostPathUp d speed width)

/-- R600. Sending in the next tick of one MSI-X message standing for coalesced notifies. -/
def execMsixCoalescedSend (vector : Nat) (s : State) : Host.Outcome State Fault Refusal :=
  s.runDev (fun d => doMsixCoalesced d vector)

/-- R577. Write of LNK_DEV_NUM, ignored with NUM_REJ while any port is up or training. -/
def execDevNumWrite (path : Path) (value : Word) (s : State) : Host.Outcome State Fault Refusal :=
  s.runDev (fun d => doDevNumWrite d path value)

/-- R575. Write of a port's ENABLE, which starts full training with a fresh budget. -/
def execPortEnableWrite (path : Path) (port : Nat) (value : Word) (s : State) : Host.Outcome State Fault Refusal :=
  s.runDev (fun d => doPortEnableWrite d path port value)

/-- R575. End of the full training of a port that a write of ENABLE started, leaving it UP. -/
def execFullTrainingDone (port : Nat) (badLanes : List Nat) (s : State) : Host.Outcome State Fault Refusal :=
  s.runDev (fun d => doFullTrainingDone d port badLanes)

/-- R601. Loss of the host path when the bridge's link leaves L0, bus mastering is disabled or a member's route to the
bridge becomes invalid. -/
def execHostPathDown (cause : HostDownCause) (s : State) : Host.Outcome State Fault Refusal :=
  s.runDev (fun d => doHostPathDown d cause)

/-- R592. Arrival of LINK_WRITE data at the destination, which checks its group declaration and target pages and writes
shadow locations. -/
def execLinkWriteDataArrive (m : Message) (s : State) : Host.Outcome State Fault Refusal :=
  s.runDev (fun d => doLinkWriteData d m)

/-- R600. Unmasking by the host of an MSI-X vector whose pending bit is set, which sends the pending message. -/
def execMsixVectorUnmask (vector : Nat) (s : State) : Host.Outcome State Fault Refusal :=
  s.runDev (fun d => doMsixUnmask d vector)

end Sys2Proof.Machine
end

