-- ==== Sys2Proof/Machine/Packets.lean ====
section
/-! DEFINITION. The meanings of the commands of queues, doorbells, dispatch and commit (chapter 06), one definition for each. -/

namespace Sys2Proof.Machine

/-- R276. Command that does nothing and commits. -/
def execNop (c : CmdRef) (s : State) : Host.Outcome State Fault Refusal :=
  s.runDev (fun d => doNop d c)

/-- R240. Command that commits the Skein island's tick copy into its record counters. -/
def execTimestamp (c : CmdRef) (s : State) : Host.Outcome State Fault Refusal :=
  s.runDev (fun d => doTimestamp d c)

/-- R283. Operator command that creates a queue, translates its rings and zeroes its completion ring. -/
def execQueueCreate (c : CmdRef) (s : State) : Host.Outcome State Fault Refusal :=
  s.runDev (fun d => doQueueCreate d c)

/-- R284. Operator command that drains or kills a queue's dispatched commands, flushes the undispatched ones and
destroys the queue. -/
def execQueueDestroy (c : CmdRef) (s : State) : Host.Outcome State Fault Refusal :=
  s.runDev (fun d => doQueueDestroy d c)

/-- R285. Command that ends a queue halt in continue, flush or restart mode. -/
def execQueueResume (c : CmdRef) (s : State) : Host.Outcome State Fault Refusal :=
  s.runDev (fun d => doQueueResume d c)

/-- R270. Operator command that finally kills a command, a queue or a partition. -/
def execKill (c : CmdRef) (s : State) : Host.Outcome State Fault Refusal :=
  s.runDev (fun d => doKill d c)

/-- R249. Doorbell setting a queue's submission tail, or ignored as stale or overrun. -/
def execSubmissionDoorbell (head value : Word) (s : State) : Host.Outcome State Fault Refusal :=
  s.runDev (fun d => doSubmissionDoorbell d head.toNat value.toNat)

/-- R250. Doorbell setting a queue's completion head, or ignored as stale or overrun. -/
def execCompletionDoorbell (head value : Word) (s : State) : Host.Outcome State Fault Refusal :=
  s.runDev (fun d => doCompletionDoorbell d head.toNat value.toNat)

/-- R235. Reading and checking of the next packet once a tail covers it and the completion ring has room. -/
def execSubmission (queue : Nat) (s : State) : Host.Outcome State Fault Refusal :=
  s.runDev (fun d => doSubmission d queue)

/-- R252. Dispatch of a queue's head command once its waits, fence and ring room are met. -/
def execDispatch (queue : Nat) (s : State) : Host.Outcome State Fault Refusal :=
  s.runDev (fun d => doDispatch d queue)

/-- R257. Expiry of a command's wait limit, completing it with ST_WAIT_TIMEOUT. -/
def execWaitTimeout (queue : Nat) (s : State) : Host.Outcome State Fault Refusal :=
  s.runDev (fun d => doWaitTimeout d queue)

/-- R271. Re-issue of commands killed re-runnably once their partition or unit resumes. -/
def execRerunIssue (c : CmdRef) (s : State) : Host.Outcome State Fault Refusal :=
  s.runDev (fun d => doRerunIssue d c)

/-- R262. Commit point of a command at the end of its commit term, publishing all held effects. -/
def execCommandCommit (c : CmdRef) (s : State) : Host.Outcome State Fault Refusal :=
  s.runDev (fun d => doCommandCommit d c)

/-- R267. Writing of a completion record in sequence order, with notify interrupt. -/
def execRecordWrite (queue : Nat) (s : State) : Host.Outcome State Fault Refusal :=
  s.runDev (fun d => doRecordWrite d queue)

/-- R288. Read of SKN_TOK_LO that returns the selected token and latches its high half. -/
def execTokenLoRead (path : Path) (s : State) : Host.Outcome State Fault Refusal :=
  s.runDev (fun d => doTokenLoRead d path)

end Sys2Proof.Machine
end

