-- ==== Sys2Proof/Machine/Partitioning.lean ====
section
/-! DEFINITION. The meanings of the commands of partitions, kills and reclaim (chapter 13), one definition for each. -/

namespace Sys2Proof.Machine

/-- R533. Operator command that creates a partition and places it on the lowest free Spindles. -/
def execPartCreate (c : CmdRef) (s : State) : Host.Outcome State Fault Refusal :=
  s.runDev (fun d => doPartCreate d c)

/-- R566. Operator command that gives a RECLAIMED partition Spindles again and keeps its attributes. -/
def execPartCreateRegrow (c : CmdRef) (s : State) : Host.Outcome State Fault Refusal :=
  s.runDev (fun d => doPartCreateRegrow d c)

/-- R565. Operator command that kills, flushes and releases everything a partition holds and makes it FREE. -/
def execPartRelease (c : CmdRef) (s : State) : Host.Outcome State Fault Refusal :=
  s.runDev (fun d => doPartRelease d c)

/-- R540. Operator command that sets a partition share or a queue share for fair-queuing dispatch. -/
def execPartShares (c : CmdRef) (s : State) : Host.Outcome State Fault Refusal :=
  s.runDev (fun d => doPartShares d c)

/-- R546. Operator command that kills a partition's commands re-runnably, saves its Skein pages and half-tiles and makes
it SAVED. -/
def execCtxSave (c : CmdRef) (s : State) : Host.Outcome State Fault Refusal :=
  s.runDev (fun d => doCtxSave d c)

/-- R550. Operator command that places a SAVED partition on Spindles again, restores or reloads its pages and makes it
ACTIVE. -/
def execCtxRestore (c : CmdRef) (s : State) : Host.Outcome State Fault Refusal :=
  s.runDev (fun d => doCtxRestore d c)

/-- R558. Operator command that stops, kills, optionally snapshots and releases a partition and makes it RECLAIMED. -/
def execReclaim (c : CmdRef) (s : State) : Host.Outcome State Fault Refusal :=
  s.runDev (fun d => doReclaim d c)

/-- R556. Arrival of a span reset, which tears down the member's context of that span. -/
def execSpanReset (spanId : Nat) (s : State) : Host.Outcome State Fault Refusal :=
  s.runDev (fun d => doSpanReset d spanId)

end Sys2Proof.Machine
end

