-- ==== Sys2Proof/Machine/Powering.lean ====
section
/-! DEFINITION. The meanings of the commands of pins, power and cooling (chapter 16), one definition for each. -/

namespace Sys2Proof.Machine

/-- R646. Loss of a CD or IOD reference clock, raising code 0x03 for each island it feeds. -/
def execCdRefclkLost (clock : Nat) (s : State) : Host.Outcome State Fault Refusal :=
  s.runDev (fun d => doCdRefclkLost d clock)

/-- R656. Operator command setting the power cap, optionally persisted. -/
def execPowerCap (c : CmdRef) (s : State) : Host.Outcome State Fault Refusal :=
  s.runDev (fun d => doPowerCap d c)

/-- R643. A power-good not asserted within 20 ms of its enable, powering down and taking code 0x11. -/
def execPowerGoodTimeout (s : State) : Host.Outcome State Fault Refusal :=
  s.runDev (fun d => doPowerGoodTimeout d)

/-- R647. Evaluation every 100 ticks of average power against the limit, stepping frequency or memory issue limit. -/
def execPowerEval (avgMw : Nat) (s : State) : Host.Outcome State Fault Refusal :=
  s.runDev (fun d => doPowerEval d avgMw)

/-- R649. Filtered PWR_BRAKE_N low, forcing 950 MHz and minimum memory limit. -/
def execPwrBrakeN (p : PinHold) (s : State) : Host.Outcome State Fault Refusal :=
  s.runDev (fun d => doPwrBrake d p.low p.heldNs)

/-- R651. Hardware comparison of sensors with throttle and trip points every 1 µs. -/
def execThermalCompare (sensors : Sensors) (s : State) : Host.Outcome State Fault Refusal :=
  s.runDev (fun d => doThermalCompare d sensors)

/-- R651. Ten consecutive comparisons at trip, asserting THERMTRIP_N and holding the dies down. -/
def execThermalTrip (source : Nat) (index : Nat) (readings : Sensors) (s : State) : Host.Outcome State Fault Refusal :=
  s.runDev (fun d => doThermalTrip d source index readings)

/-- R645. Deassertion of a power-good while enabled, holding the dies in reset and powering down. -/
def execPowerGoodLost (rail : Nat) (s : State) : Host.Outcome State Fault Refusal :=
  s.runDev (fun d => doPowerGoodLost d rail)

end Sys2Proof.Machine
end

