-- ==== Sys2Proof/Machine/Recovering.lean ====
section
/-! DEFINITION. The meanings of the commands of snapshots, step commit, the Roving log and recovery (chapter 12), one definition for each. -/

namespace Sys2Proof.Machine

/-- R508. SNAPSHOT operation creating a snapshot store for a source device. -/
def execStore (c : CmdRef) (s : State) : Host.Outcome State Fault Refusal :=
  s.runDev (fun d => doStore d c)

/-- R498. SNAPSHOT operation naming buddies, a region table and the teacher region. -/
def execSnapshotConfig (x : BuddyVisit) (s : State) : Host.Outcome State Fault Refusal :=
  s.runDev (fun d => doSnapConfig d x.cmd x.answer)

/-- R501. SNAPSHOT operation copying dirty granules into the next generation's slot and writing its manifest. -/
def execTake (c : CmdRef) (s : State) : Host.Outcome State Fault Refusal :=
  s.runDev (fun d => doTake d c)

/-- R520. RESTORE operation checking a manifest and writing a generation's regions back. -/
def execRestoreState (c : CmdRef) (a : Option Message) (s : State) : Host.Outcome State Fault Refusal :=
  s.runDev (fun d => doRestoreState d c a)

/-- R521. RESTORE operation copying a lost device's log mirrors and rebuilding its commit table. -/
def execRestoreLog (c : CmdRef) (a : Option Message) (s : State) : Host.Outcome State Fault Refusal :=
  s.runDev (fun d => doRestoreLog d c a)

/-- R510. STEP_COMMIT operation casting a member's vote into the commit group's tree. -/
def execVote (c : CmdRef) (s : State) : Host.Outcome State Fault Refusal :=
  s.runDev (fun d => doVote d c)

/-- R512. Root's decision of a step when the vote tree completes, securing APPLY or SKIP before sending it. -/
def execCommitDecide (c : CmdRef) (s : State) : Host.Outcome State Fault Refusal :=
  s.runDev (fun d => doCommitDecide d c)

/-- R512. Expiry of the root's window, which decides REVERT. -/
def execCommitWindowExpire (c : CmdRef) (s : State) : Host.Outcome State Fault Refusal :=
  s.runDev (fun d => doCommitWindowExpire d c)

/-- R513. Arrival of the step decision at a member, which applies it or reverts. -/
def execDecisionArrive (group : Nat) (step : Nat) (attempt : Nat) (decision : Nat) (s : State) : Host.Outcome State Fault Refusal :=
  s.runDev (fun d => doDecisionArrive d group step attempt decision)

/-- R515. STEP_COMMIT operation asking the root for a step's decision and applying it when due. -/
def execQuery (c : CmdRef) (s : State) : Host.Outcome State Fault Refusal :=
  s.runDev (fun d => doQuery d c)

/-- R490. LOG_MARK operation setting the two log rings of a partition. -/
def execLogMarkConfig (c : CmdRef) (s : State) : Host.Outcome State Fault Refusal :=
  s.runDev (fun d => doLogMarkConfig d c)

/-- R494. LOG_MARK operation logging the data cursor and digest of a step's input. -/
def execMark (c : CmdRef) (s : State) : Host.Outcome State Fault Refusal :=
  s.runDev (fun d => doMark d c)

/-- R495. Receipt of a log entry in a buddy's mirror and its acknowledgement. -/
def execLogMirrorReceive (m : Message) (s : State) : Host.Outcome State Fault Refusal :=
  s.runDev (fun d => doLogMirrorReceive d m)

/-- R495. Receipt of both buddies' acknowledgements, which secures a log entry. -/
def execLogEntrySecured (part : Nat) (share : Nat) (lsn : Nat) (s : State) : Host.Outcome State Fault Refusal :=
  s.runDev (fun d => doLogEntrySecured d part share lsn)

/-- R518. SPARE_FILL operation opening a recovery on the spare. -/
def execBegin (c : CmdRef) (s : State) : Host.Outcome State Fault Refusal :=
  s.runDev (fun d => doBegin d c)

/-- R518. SPARE_FILL operation closing a recovery when restore, log and teacher checks pass. -/
def execEnd (c : CmdRef) (s : State) : Host.Outcome State Fault Refusal :=
  s.runDev (fun d => doEnd d c)

/-- R526. SPARE_FILL operation closing a recovery without effect. -/
def execAbandon (c : CmdRef) (s : State) : Host.Outcome State Fault Refusal :=
  s.runDev (fun d => doAbandon d c)

/-- R509. Receipt at a buddy's store of snapshot writes from its source device or of restore reads, which the buddy's
Bobbin serves. -/
def execServingABuddy (id src : Nat) (body : MsgBody) (s : State) : Host.Outcome State Fault Refusal :=
  s.runDev (fun d => doServeBuddy d ⟨id, src, d.links.devNum, body.channel, body⟩)

/-- R515. Arrival at the root of a STEP_COMMIT QUERY, answered from its commit table or with UNKNOWN. -/
def execCommitTableQuery (src : Nat) (group : Nat) (step : Nat) (s : State) : Host.Outcome State Fault Refusal :=
  s.runDev (fun d => doCommitTableQuery d src group step)

/-- R512. Expiry of window ticks without a log entry being secured, making the member vote or the root decide REVERT. -/
def execUnsecuredEntryTimeout (c : CmdRef) (s : State) : Host.Outcome State Fault Refusal :=
  s.runDev (fun d => doUnsecuredTimeout d c)

end Sys2Proof.Machine
end

