-- ==== Sys2Proof/Machine/Registers.lean ====
section
/-! DEFINITION. The meanings of the commands of the tick, the reference clocks and the register space (chapters 00 and 01), one definition for each. -/

namespace Sys2Proof.Machine

/-- R28. Increment of the 1 µs device tick counter and update of island tick copies. -/
def execDeviceTick (s : State) : Host.Outcome State Fault Refusal :=
  s.runDev (fun d => doDeviceTick d)

/-- R32. Loss of the MGD reference clock, switching tick counting to the internal oscillator. -/
def execRefclkLost (s : State) : Host.Outcome State Fault Refusal :=
  s.runDev (fun d => doRefclkLost d)

/-- R32. Return of the MGD reference clock, switching back on the next tick boundary. -/
def execRefclkReturn (s : State) : Host.Outcome State Fault Refusal :=
  s.runDev (fun d => doRefclkReturn d)

/-- R33. Read of LMP_TICK_LO that latches the high half for the requester path. -/
def execTickLoRead (r : LoRead) (s : State) : Host.Outcome State Fault Refusal :=
  s.runDev (fun d => doTickLoRead d r.path r.wide)

/-- R33. Read of the low half of a 64-bit counter that latches its high half for the path. -/
def execCounterLoRead (r : LoRead) (counter : Counter) (s : State) : Host.Outcome State Fault Refusal :=
  s.runDev (fun d => doCounterLoRead d r.path counter r.wide)

/-- R9. Write to a register with no behaviour of its own, including RW1C clears and writes to down dies. -/
def execRegisterWrite (path : Path) (offset : Nat) (value : Word) (s : State) : Host.Outcome State Fault Refusal :=
  s.runDev (fun d => doRegisterWrite d path offset value)

/-- R16. Operator command returning the device-record summary or full record. -/
def execDevrecRead (c : CmdRef) (s : State) : Host.Outcome State Fault Refusal :=
  s.runDev (fun d => doDevrecRead d c)

/-- R29. Loss of the standby rails, which stops the tick counter and the MGD and clears PWR_TRIP_STATUS on their next
rise. -/
def execStandbyPowerLoss (s : State) : Host.Outcome State Fault Refusal :=
  s.runDev (fun d => doStandbyPowerLoss d)

/-- R43. Register read through BAR0 or the group window of a block on a die that is down, returning zero and placing a
DOWN_ACCESS error record. -/
def execDownAccessRead (path : Path) (offset : Nat) (s : State) : Host.Outcome State Fault Refusal :=
  s.runDev (fun d => doDownAccessRead d path offset)

end Sys2Proof.Machine
end

