-- ==== Sys2Proof/Machine/Serving.lean ====
section
/-! DEFINITION. The meanings of the commands of requests, periods and tenants (chapter 08), one definition for each. -/

namespace Sys2Proof.Machine

/-- R354. Completion of the zeroing of a returned KV page, which puts it back in its pool. -/
def execKvPageZeroDone (part : Nat) (pa : Nat) (s : State) : Host.Outcome State Fault Refusal :=
  s.runDev (fun d => doKvPageZeroDone d part pa)

/-- R367. Request command admitting a request into the lowest FREE entry against its tenant's budget. -/
def execReqAdmit (c : CmdRef) (s : State) : Host.Outcome State Fault Refusal :=
  s.runDev (fun d => doReqAdmit d c)

/-- R347. REQ_ADMIT operation moving KV pages into the partition's KV pool. -/
def execPoolAdd (c : CmdRef) (s : State) : Host.Outcome State Fault Refusal :=
  s.runDev (fun d => doPoolAdd d c)

/-- R367. REQ_ADMIT operation moving free pages out of the KV pool. -/
def execPoolRemove (c : CmdRef) (s : State) : Host.Outcome State Fault Refusal :=
  s.runDev (fun d => doPoolRemove d c)

/-- R368. Request command making an entry FREE and returning its pages and reservation. -/
def execReqRelease (c : CmdRef) (s : State) : Host.Outcome State Fault Refusal :=
  s.runDev (fun d => doReqRelease d c)

/-- R361. DECODE_STEP opener that expires late requests, places KV pages and writes the step table. -/
def execOpen (c : CmdRef) (s : State) : Host.Outcome State Fault Refusal :=
  s.runDev (fun d => doOpen d c)

/-- R359. DECODE_STEP closer that samples, accepts drafts, commits lengths, emits tokens and charges tenants. -/
def execClose (c : CmdRef) (s : State) : Host.Outcome State Fault Refusal :=
  s.runDev (fun d => doClose d c)

/-- R363. DECODE_STEP closer that ends a period without sampling or charging. -/
def execAbort (c : CmdRef) (s : State) : Host.Outcome State Fault Refusal :=
  s.runDev (fun d => doAbort d c)

/-- R356. Opener of a prefill period over prompt chunks. -/
def execPrefill (c : CmdRef) (s : State) : Host.Outcome State Fault Refusal :=
  s.runDev (fun d => doPrefill d c)

/-- R370. TENANT_SET operation setting a tenant's balance. -/
def execSetBalance (c : CmdRef) (s : State) : Host.Outcome State Fault Refusal :=
  s.runDev (fun d => doSetBalance d c)

/-- R370. TENANT_SET operation adding to a tenant's balance with saturation. -/
def execAddBalance (c : CmdRef) (s : State) : Host.Outcome State Fault Refusal :=
  s.runDev (fun d => doAddBalance d c)

/-- R340. TENANT_SET operation binding or unbinding a tenant to a partition with a live limit. -/
def execBind (c : CmdRef) (s : State) : Host.Outcome State Fault Refusal :=
  s.runDev (fun d => doBind d c)

end Sys2Proof.Machine
end

