-- ==== Sys2Proof/Machine/TreadleCommands.lean ====
section
/-! DEFINITION. The meanings of the commands of the Treadle (chapter 11), one definition for each. -/

namespace Sys2Proof.Machine

/-- R451. Treadle pass 1 forming the local squared-gradient sum and flags and entering them into the group tree. -/
def execTrdNorm (c : CmdRef) (s : State) : Host.Outcome State Fault Refusal :=
  s.runDev (fun d => doTrdNorm d c)

/-- R454. Arrival of the root's norm result, forming the global sum, SKIP and κ and writing the norm record. -/
def execNormResult (group : Nat) (step : Nat) (sum : Word) (flags : Nat) (s : State) : Host.Outcome State Fault Refusal :=
  s.runDev (fun d => doNormResult d group step sum flags)

/-- R461. Treadle pass 2 applying the update rule into the inactive parity, or copying it on a skip. -/
def execTrdUpdate (c : CmdRef) (s : State) : Host.Outcome State Fault Refusal :=
  s.runDev (fun d => doTrdUpdate d c)

/-- R481. Operator command in which the Lamplighter recomputes sample blocks of an update and compares them. -/
def execTrdVerify (c : CmdRef) (s : State) : Host.Outcome State Fault Refusal :=
  s.runDev (fun d => doTrdVerify d c)

/-- R476. Command computing a matrix inverse root by Newton iteration on one Spindle. -/
def execRoot (c : CmdRef) (s : State) : Host.Outcome State Fault Refusal :=
  s.runDev (fun d => doRoot d c)

end Sys2Proof.Machine
end

