-- ==== Sys2Proof/Machine/VectorEngine.lean ====
section
/-! DEFINITION. The meanings of the commands of the vector engine (chapter 05), one definition for each. -/

namespace Sys2Proof.Machine

/-- R226. Vector command running one branchless program on a Spindle's vector engine. -/
def execVecRun (c : CmdRef) (s : State) : Host.Outcome State Fault Refusal :=
  s.runDev (fun d => doVecRun d c)

/-- R228. Vector command removing untaken entries from the head of the tile queue. -/
def execVecTqFlush (c : CmdRef) (s : State) : Host.Outcome State Fault Refusal :=
  s.runDev (fun d => doVecTqFlush d c)

/-- R221. Vector instruction taking the oldest untaken tile-queue entry once one is present, copying or dropping the
tile. -/
def execTqPop (c : CmdRef) (s : State) : Host.Outcome State Fault Refusal :=
  s.runDev (fun d => doTqPop d c)

/-- R224. Expiry of the tq_limit wait, failing the vector command with ST_TQ_EMPTY. -/
def execTqPopTimeout (c : CmdRef) (s : State) : Host.Outcome State Fault Refusal :=
  s.runDev (fun d => doTqPopTimeout d c)

end Sys2Proof.Machine
end

