-- ==== Sys2Proof/Machine/WickCommands.lean ====
section
/-! DEFINITION. The meanings of the commands of the Wick (chapter 07), one definition for each. -/

namespace Sys2Proof.Machine

/-- R295. Command that checks and creates a Wick descriptor over Wick pages. -/
def execWickDesc (c : CmdRef) (s : State) : Host.Outcome State Fault Refusal :=
  s.runDev (fun d => doWickDesc d c)

/-- R296. WICK_DESC with the remove bit, which removes a descriptor whose frames hold no micro-batch. -/
def execWickDescRemove (c : CmdRef) (s : State) : Host.Outcome State Fault Refusal :=
  s.runDev (fun d => doWickDescRemove d c)

/-- R307. WICK_STEP operation forming block records of both models in full mode. -/
def execStats (c : CmdRef) (s : State) : Host.Outcome State Fault Refusal :=
  s.runDev (fun d => doStats d c)

/-- R314. WICK_STEP operation forming teacher records and top-k lists in top-k mode. -/
def execStatsT (c : CmdRef) (s : State) : Host.Outcome State Fault Refusal :=
  s.runDev (fun d => doStatsT d c)

/-- R316. WICK_STEP operation forming student records and target sums in top-k mode. -/
def execStatsS (c : CmdRef) (s : State) : Host.Outcome State Fault Refusal :=
  s.runDev (fun d => doStatsS d c)

/-- R312. WICK_STEP operation writing the loss gradient over the student logits. -/
def execGrad (c : CmdRef) (s : State) : Host.Outcome State Fault Refusal :=
  s.runDev (fun d => doGrad d c)

/-- R302. WICK_STEP operation releasing the oldest micro-batch's frame and signalling the release token. -/
def execRelease (c : CmdRef) (s : State) : Host.Outcome State Fault Refusal :=
  s.runDev (fun d => doRelease d c)

/-- R310. Command combining rank records over Spindles and the group tree and finalising losses or targets. -/
def execWickMerge (c : CmdRef) (s : State) : Host.Outcome State Fault Refusal :=
  s.runDev (fun d => doWickMerge d c)

/-- R319. Command copying a token map into a map slot. -/
def execWickTokmap (c : CmdRef) (s : State) : Host.Outcome State Fault Refusal :=
  s.runDev (fun d => doWickTokmap d c)

end Sys2Proof.Machine
end

