-- ==== Sys2Proof/Machine/Dispatch.lean ====
section
/-! DEFINITION. The meaning of each command: one arm for one constructor. -/

namespace Sys2Proof.Machine

def exec (i : Instr) (s : State) : Host.Outcome State Fault Refusal :=
  match i with
  | .NOP c => Sys2Proof.Machine.execNop c s
  | .TIMESTAMP c => Sys2Proof.Machine.execTimestamp c s
  | .QUEUE_CREATE c => Sys2Proof.Machine.execQueueCreate c s
  | .QUEUE_DESTROY c => Sys2Proof.Machine.execQueueDestroy c s
  | .QUEUE_RESUME c => Sys2Proof.Machine.execQueueResume c s
  | .PART_CREATE c => Sys2Proof.Machine.execPartCreate c s
  | .PART_CREATE_REGROW c => Sys2Proof.Machine.execPartCreateRegrow c s
  | .PART_RELEASE c => Sys2Proof.Machine.execPartRelease c s
  | .PART_SHARES c => Sys2Proof.Machine.execPartShares c s
  | .CTX_SAVE c => Sys2Proof.Machine.execCtxSave c s
  | .CTX_RESTORE c => Sys2Proof.Machine.execCtxRestore c s
  | .KILL c => Sys2Proof.Machine.execKill c s
  | .RECLAIM c => Sys2Proof.Machine.execReclaim c s
  | .ARR_MATMUL c => Sys2Proof.Machine.execArrMatmul c s
  | .ARR_STREAM c => Sys2Proof.Machine.execArrStream c s
  | .ARR_CONV c => Sys2Proof.Machine.execArrConv c s
  | .ARR_SHALLOW c => Sys2Proof.Machine.execArrShallow c s
  | .ARR_QUAD c => Sys2Proof.Machine.execArrQuad c s
  | .ARR_ACC_ZERO c => Sys2Proof.Machine.execArrAccZero c s
  | .ARR_ACC_LOAD c => Sys2Proof.Machine.execArrAccLoad c s
  | .ARR_ACC_STORE c => Sys2Proof.Machine.execArrAccStore c s
  | .ARR_ACC_POST c => Sys2Proof.Machine.execArrAccPost c s
  | .PILOT_WINDOW sp w => Sys2Proof.Machine.execPilotWindow sp w s
  | .PILOT_RAMP sp => Sys2Proof.Machine.execPilotRamp sp s
  | .MEM_COPY c => Sys2Proof.Machine.execMemCopy c s
  | .MEM_FILL c => Sys2Proof.Machine.execMemFill c s
  | .MEM_ALLOC c => Sys2Proof.Machine.execMemAlloc c s
  | .MEM_FREE c => Sys2Proof.Machine.execMemFree c s
  | .MEM_MIGRATE c => Sys2Proof.Machine.execMemMigrate c s
  | .SEAL c => Sys2Proof.Machine.execSeal c s
  | .MAP c => Sys2Proof.Machine.execMap c s
  | .UNMAP c => Sys2Proof.Machine.execUnmap c s
  | .UNSEAL c => Sys2Proof.Machine.execUnseal c s
  | .UNSEAL_ZERO_DONE region => Sys2Proof.Machine.execUnsealZeroDone region s
  | .BACKGROUND_ZERO_DONE t => Sys2Proof.Machine.execBackgroundZeroDone t s
  | .RELEASE_ZERO_DONE part => Sys2Proof.Machine.execReleaseZeroDone part s
  | .KV_PAGE_ZERO_DONE part pa => Sys2Proof.Machine.execKvPageZeroDone part pa s
  | .VEC_RUN c => Sys2Proof.Machine.execVecRun c s
  | .VEC_TQ_FLUSH c => Sys2Proof.Machine.execVecTqFlush c s
  | .TQ_POP c => Sys2Proof.Machine.execTqPop c s
  | .TQ_POP_TIMEOUT c => Sys2Proof.Machine.execTqPopTimeout c s
  | .WICK_DESC c => Sys2Proof.Machine.execWickDesc c s
  | .WICK_DESC_REMOVE c => Sys2Proof.Machine.execWickDescRemove c s
  | .STATS c => Sys2Proof.Machine.execStats c s
  | .STATS_T c => Sys2Proof.Machine.execStatsT c s
  | .STATS_S c => Sys2Proof.Machine.execStatsS c s
  | .GRAD c => Sys2Proof.Machine.execGrad c s
  | .RELEASE c => Sys2Proof.Machine.execRelease c s
  | .WICK_MERGE c => Sys2Proof.Machine.execWickMerge c s
  | .WICK_TOKMAP c => Sys2Proof.Machine.execWickTokmap c s
  | .REQ_ADMIT c => Sys2Proof.Machine.execReqAdmit c s
  | .POOL_ADD c => Sys2Proof.Machine.execPoolAdd c s
  | .POOL_REMOVE c => Sys2Proof.Machine.execPoolRemove c s
  | .REQ_RELEASE c => Sys2Proof.Machine.execReqRelease c s
  | .OPEN c => Sys2Proof.Machine.execOpen c s
  | .CLOSE c => Sys2Proof.Machine.execClose c s
  | .ABORT c => Sys2Proof.Machine.execAbort c s
  | .PREFILL c => Sys2Proof.Machine.execPrefill c s
  | .SET_BALANCE c => Sys2Proof.Machine.execSetBalance c s
  | .ADD_BALANCE c => Sys2Proof.Machine.execAddBalance c s
  | .BIND c => Sys2Proof.Machine.execBind c s
  | .CONFIG c => Sys2Proof.Machine.execConfig c s
  | .DRAW c => Sys2Proof.Machine.execDraw c s
  | .STREAM_DELIVER req => Sys2Proof.Machine.execStreamDeliver req s
  | .CONS_READ req => Sys2Proof.Machine.execConsRead req s
  | .GRAD_EXCHANGE_CONFIG c => Sys2Proof.Machine.execGradExchangeConfig c s
  | .SEND c => Sys2Proof.Machine.execSend c s
  | .REMOVE c => Sys2Proof.Machine.execRemove c s
  | .CONTRIB_ARRIVE m => Sys2Proof.Machine.execContribArrive m s
  | .STEP_WAIT c => Sys2Proof.Machine.execStepWait c s
  | .DECISION_TICK c => Sys2Proof.Machine.execDecisionTick c s
  | .ACT_OFFLOAD c => Sys2Proof.Machine.execActOffload c s
  | .ACT_PREFETCH c => Sys2Proof.Machine.execActPrefetch c s
  | .TRD_NORM c => Sys2Proof.Machine.execTrdNorm c s
  | .NORM_RESULT group step sum flags => Sys2Proof.Machine.execNormResult group step sum flags s
  | .TRD_UPDATE c => Sys2Proof.Machine.execTrdUpdate c s
  | .TRD_VERIFY c => Sys2Proof.Machine.execTrdVerify c s
  | .ROOT c => Sys2Proof.Machine.execRoot c s
  | .STORE c => Sys2Proof.Machine.execStore c s
  | .SNAPSHOT_CONFIG x => Sys2Proof.Machine.execSnapshotConfig x s
  | .TAKE c => Sys2Proof.Machine.execTake c s
  | .RESTORE_STATE c a => Sys2Proof.Machine.execRestoreState c a s
  | .RESTORE_LOG c a => Sys2Proof.Machine.execRestoreLog c a s
  | .VOTE c => Sys2Proof.Machine.execVote c s
  | .COMMIT_DECIDE c => Sys2Proof.Machine.execCommitDecide c s
  | .COMMIT_WINDOW_EXPIRE c => Sys2Proof.Machine.execCommitWindowExpire c s
  | .DECISION_ARRIVE group step attempt decision => Sys2Proof.Machine.execDecisionArrive group step attempt decision s
  | .QUERY c => Sys2Proof.Machine.execQuery c s
  | .LOG_MARK_CONFIG c => Sys2Proof.Machine.execLogMarkConfig c s
  | .MARK c => Sys2Proof.Machine.execMark c s
  | .LOG_MIRROR_RECEIVE m => Sys2Proof.Machine.execLogMirrorReceive m s
  | .LOG_ENTRY_SECURED part share lsn => Sys2Proof.Machine.execLogEntrySecured part share lsn s
  | .BEGIN c => Sys2Proof.Machine.execBegin c s
  | .END c => Sys2Proof.Machine.execEnd c s
  | .ABANDON c => Sys2Proof.Machine.execAbandon c s
  | .ROUTE_SET c => Sys2Proof.Machine.execRouteSet c s
  | .ROUTE_HOLD_RELEASE dst => Sys2Proof.Machine.execRouteHoldRelease dst s
  | .GROUP_DECLARE c => Sys2Proof.Machine.execGroupDeclare c s
  | .GROUP_REMOVE c => Sys2Proof.Machine.execGroupRemove c s
  | .LINK_WRITE c => Sys2Proof.Machine.execLinkWrite c s
  | .CHAIN_REDUCE c => Sys2Proof.Machine.execChainReduce c s
  | .LINK_SIGNAL c => Sys2Proof.Machine.execLinkSignal c s
  | .GROUP_MESSAGE_ARRIVE m => Sys2Proof.Machine.execGroupMessageArrive m s
  | .COMMIT_MESSAGE_ARRIVE m => Sys2Proof.Machine.execCommitMessageArrive m s
  | .SPAN_RESET spanId => Sys2Proof.Machine.execSpanReset spanId s
  | .FLIT_RECEIVE port f => Sys2Proof.Machine.execFlitReceive port f s
  | .REPLAY_REQUEST port fromFlit => Sys2Proof.Machine.execReplayRequest port fromFlit s
  | .MESSAGE_FORWARD port cls m => Sys2Proof.Machine.execMessageForward port cls m s
  | .END_TO_END_ACK msg => Sys2Proof.Machine.execEndToEndAck msg s
  | .UNREACHABLE msg => Sys2Proof.Machine.execUnreachable msg s
  | .MESSAGE_LOST_TIMEOUT msg => Sys2Proof.Machine.execMessageLostTimeout msg s
  | .RETRAIN port cause badLane => Sys2Proof.Machine.execRetrain port cause badLane s
  | .RETRAIN_DONE port => Sys2Proof.Machine.execRetrainDone port s
  | .RETRAIN_TIMEOUT port => Sys2Proof.Machine.execRetrainTimeout port s
  | .GROUP_WINDOW_ACCESS slot offset x => Sys2Proof.Machine.execGroupWindowAccess slot offset x s
  | .QUEUE_WINDOW_ACCESS queue offset len write => Sys2Proof.Machine.execQueueWindowAccess queue offset len write s
  | .HOST_PATH_UP speed width => Sys2Proof.Machine.execHostPathUp speed width s
  | .MSIX_COALESCED_SEND vector => Sys2Proof.Machine.execMsixCoalescedSend vector s
  | .HOST_PERST_N high heldNs => Sys2Proof.Machine.execHostPerstN high heldNs s
  | .SUBMISSION_DOORBELL head value => Sys2Proof.Machine.execSubmissionDoorbell head value s
  | .COMPLETION_DOORBELL head value => Sys2Proof.Machine.execCompletionDoorbell head value s
  | .SUBMISSION queue => Sys2Proof.Machine.execSubmission queue s
  | .DISPATCH queue => Sys2Proof.Machine.execDispatch queue s
  | .WAIT_TIMEOUT queue => Sys2Proof.Machine.execWaitTimeout queue s
  | .RERUN_ISSUE c => Sys2Proof.Machine.execRerunIssue c s
  | .COMMAND_COMMIT c => Sys2Proof.Machine.execCommandCommit c s
  | .CHAIN_COMMIT sp chain => Sys2Proof.Machine.execChainCommit sp chain s
  | .RECORD_WRITE queue => Sys2Proof.Machine.execRecordWrite queue s
  | .DEVICE_TICK => Sys2Proof.Machine.execDeviceTick s
  | .REFCLK_LOST => Sys2Proof.Machine.execRefclkLost s
  | .REFCLK_RETURN => Sys2Proof.Machine.execRefclkReturn s
  | .CD_REFCLK_LOST clock => Sys2Proof.Machine.execCdRefclkLost clock s
  | .TICK_LO_READ r => Sys2Proof.Machine.execTickLoRead r s
  | .TOKEN_LO_READ path => Sys2Proof.Machine.execTokenLoRead path s
  | .COUNTER_LO_READ r counter => Sys2Proof.Machine.execCounterLoRead r counter s
  | .REGISTER_WRITE path offset value => Sys2Proof.Machine.execRegisterWrite path offset value s
  | .SKN_QUOTA_WRITE path part kind value => Sys2Proof.Machine.execSknQuotaWrite path part kind value s
  | .CE_CLR path => Sys2Proof.Machine.execCeClr path s
  | .PILOT_CFG_WRITE path sp value => Sys2Proof.Machine.execPilotCfgWrite path sp value s
  | .DEV_NUM_WRITE path value => Sys2Proof.Machine.execDevNumWrite path value s
  | .PORT_ENABLE_WRITE path port value => Sys2Proof.Machine.execPortEnableWrite path port value s
  | .RESTART path => Sys2Proof.Machine.execRestart path s
  | .RECOVERY_DATA_WRITE path value => Sys2Proof.Machine.execRecoveryDataWrite path value s
  | .SB_COMMAND_PACKET m packet => Sys2Proof.Machine.execSbCommandPacket m packet s
  | .SB_REGISTER_READ m tag addr words => Sys2Proof.Machine.execSbRegisterRead m tag addr words s
  | .SB_REGISTER_WRITE m tag addr value => Sys2Proof.Machine.execSbRegisterWrite m tag addr value s
  | .SB_CONTINUATION m offset data => Sys2Proof.Machine.execSbContinuation m offset data s
  | .CONTINUATION_TIMEOUT => Sys2Proof.Machine.execContinuationTimeout s
  | .GET_VENDOR_DEFINED_MESSAGE_SUPPORT src => Sys2Proof.Machine.execGetVendorDefinedMessageSupport src s
  | .ALERT_SEND port => Sys2Proof.Machine.execAlertSend port s
  | .ATTEST_REPORT c => Sys2Proof.Machine.execAttestReport c s
  | .EXTEND c => Sys2Proof.Machine.execExtend c s
  | .DEVREC_READ c => Sys2Proof.Machine.execDevrecRead c s
  | .DEVREC_INSTALL c => Sys2Proof.Machine.execDevrecInstall c s
  | .TELEMETRY c => Sys2Proof.Machine.execTelemetry c s
  | .TELEMETRY_SAMPLE sensors powerMw => Sys2Proof.Machine.execTelemetrySample sensors powerMw s
  | .ERRQ_READ c => Sys2Proof.Machine.execErrqRead c s
  | .POWER_CAP c => Sys2Proof.Machine.execPowerCap c s
  | .ERROR_TAKEN e => Sys2Proof.Machine.execErrorTaken e s
  | .UNIT_RESTART_DONE u => Sys2Proof.Machine.execUnitRestartDone u s
  | .RECOVERY_TIMEOUT u => Sys2Proof.Machine.execRecoveryTimeout u s
  | .WATCHDOG c => Sys2Proof.Machine.execWatchdog c s
  | .LOCKSTEP_FAULT => Sys2Proof.Machine.execLockstepFault s
  | .STANDBY_POWER_UP b => Sys2Proof.Machine.execStandbyPowerUp b s
  | .POWER_GOOD_TIMEOUT => Sys2Proof.Machine.execPowerGoodTimeout s
  | .SB_RST_N lowNs => Sys2Proof.Machine.execSbRstN lowNs s
  | .INPUT_STUCK input => Sys2Proof.Machine.execInputStuck input s
  | .INPUT_CHATTER input => Sys2Proof.Machine.execInputChatter input s
  | .POWER_EVAL avgMw => Sys2Proof.Machine.execPowerEval avgMw s
  | .PWR_BRAKE_N p => Sys2Proof.Machine.execPwrBrakeN p s
  | .THERMAL_COMPARE sensors => Sys2Proof.Machine.execThermalCompare sensors s
  | .THERMAL_TRIP source index readings => Sys2Proof.Machine.execThermalTrip source index readings s
  | .POWER_GOOD_LOST rail => Sys2Proof.Machine.execPowerGoodLost rail s
  | .FULL_TRAINING_DONE port badLanes => Sys2Proof.Machine.execFullTrainingDone port badLanes s
  | .HOST_PATH_DOWN cause => Sys2Proof.Machine.execHostPathDown cause s
  | .STANDBY_POWER_LOSS => Sys2Proof.Machine.execStandbyPowerLoss s
  | .SERVING_A_BUDDY id src body => Sys2Proof.Machine.execServingABuddy id src body s
  | .COMMIT_TABLE_QUERY src group step => Sys2Proof.Machine.execCommitTableQuery src group step s
  | .LINK_WRITE_DATA_ARRIVE m => Sys2Proof.Machine.execLinkWriteDataArrive m s
  | .MSIX_VECTOR_UNMASK vector => Sys2Proof.Machine.execMsixVectorUnmask vector s
  | .DOWN_ACCESS_READ path offset => Sys2Proof.Machine.execDownAccessRead path offset s
  | .UNSECURED_ENTRY_TIMEOUT c => Sys2Proof.Machine.execUnsecuredEntryTimeout c s

end Sys2Proof.Machine
end

