-- ==== Sys2Proof/Safety.lean ====
section
/-! DEFINITION. The terms of the statements: when a packet may run, what a state holds besides its commands, and the
conditions that every run keeps. -/

namespace Sys2Proof.Machine

/-- The state with another block and the same waiting commands. -/
def State.withDev (s : State) (d : Dev) : State := { s with dev := d }

/-- R629: the state after an effect on the block, the errors that it met taken with it. -/
def State.put (s : State) (d : Dev) : State := s.withDev d.settle

/-- R629: no error that a command met waits to be taken. -/
abbrev State.Calm (s : State) : Prop := s.dev.errDue = []

/-- R252, R261, R479: a queue holds the packet `c` as `e`, dispatched and not begun, no ROOT at work holds its Spindle, and no
error waits to be taken. -/
structure Ready (s : State) (c : CmdRef) (e : Entry) : Prop where
  entry : s.dev.entry c = some e
  dispatched : e.phase = .dispatched
  noRoot : s.dev.rootHolds e = false
  calm : s.dev.errDue = []

/-- R537: a command of class 0x1 may start: no earlier one that names its partition is at work. -/
structure ReadyPart (s : State) (c : CmdRef) (e : Entry) : Prop extends Ready s c e where
  first : s.dev.partBusy e = false

/-- R333: a request packet may run: no earlier one of its partition is at work. -/
structure ReadyRequest (s : State) (c : CmdRef) (e : Entry) : Prop extends Ready s c e where
  first : s.dev.reqBusy e = false

/-- R422: a packet of a die's units may run: no earlier one holds the die's datapath. -/
structure ReadyDie (s : State) (c : CmdRef) (e : Entry) : Prop extends Ready s c e where
  die : s.dev.dieFree e = true

/-- A packet that works in stages stands in stage `n` with what it has counted. -/
structure AtStage (s : State) (c : CmdRef) (e : Entry) (n : Nat) (r : Result) : Prop where
  entry : s.dev.entry c = some e
  running : e.phase = .running (.stage n r)

/-- A run of a packet that has made these effects, newest first, and met no error. -/
def Ctx.made (d : Dev) (c : CmdRef) (e : Entry) (eff : List Effect) : Ctx := { Ctx.start d c e with eff := eff }

/-- R261: the packet has run: its counters `k` and what the run `x` made wait for its commit point. -/
def State.ran (s : State) (c : CmdRef) (e : Entry) (k : Counts) (x : Ctx) : State := s.withDev (s.dev.ranOk c e k x)

/-- R119 to R122: an array packet may issue on Spindle `sp`: the scoreboard lets it, no half-tile would pass 4,096 products without a fold, and with the chain that it joins the block is `d` and the packet `e'`. -/
structure ReadyArray (s : State) (c : CmdRef) (e : Entry) (sp : Nat) (d : Dev) (e' : Entry) : Prop extends Ready s c e where
  spindle : s.dev.spindleOf e = sp
  issues : ∃ members, s.dev.accIssue sp e = some members ∧ d = s.dev.joinChain c members
  room : (arrJobs e.payload).any (fun j => s.dev.segmentBreach sp j.1 j.2) = false
  joined : d.entry c = some e'

/-- R71, R119, R131: what an array product holds of its images: they stay in the tiles, or are only working images; a TQ
drain posts its tiles. -/
def ArrJob.imageEffects (j : ArrJob) (sp : Nat) (imgs : List (Nat × HalfTile)) : List Effect :=
  (if j.drain = 1 ∨ j.drain = 3 then imgs.map (fun p => .work sp p.1 p.2) else imgs.map (fun p => .half sp p.1 p.2)) ++
    if j.drain = 2 then j.posts.map (fun t => .tqPost sp t (j.isF16 && !j.foldEn)) else []

/-- R64, R68, R131, R240: how a product on the array ends whose operands read as `a` and `b` in a run that stands at `x`,
with its result rows drained at `y`: its counters, and the run with its images held. -/
def ArrJob.ends (j : ArrJob) (d : Dev) (sp : Nat) (named : List Nat) (half : Nat → Nat → Nat) (a b : List (List FVal)) (y : Ctx) :
    Counts × Ctx :=
  let imgs := j.images d sp named half (j.compute (j.found d sp named) half a b)
  (j.counts d sp named ((j.drain = 0 || j.drain = 2) && longSum imgs), { y with eff := (j.imageEffects sp imgs).reverse ++ y.eff })

/-- R289, R295: what WICK_DESC asks of its descriptor after submission: its group, of `g` members with this device at `pos`; its
pages; the other descriptors of the partition; its frames; its map; and its release token. -/
structure WickDescFits (d : Dev) (part : Nat) (x : WickDesc) (g pos : Nat) : Prop where
  group : d.wickGroup part x.group = some (g, pos)
  teacher : x.vocabT % (256 * g) = 0
  student : x.vocabS % (256 * g) = 0
  pages : ∀ k ∈ rangeKeys x.va x.pages false, ∃ p, (d.part part).pteAt k = some p ∧ p.kind = .wick
  apart : ∀ kv ∈ d.wick.descs, kv.1 / 16 = part → kv.1 % 16 ≠ x.index →
    kv.2.desc.va + kv.2.desc.pages * pageBytes ≤ x.va ∨ x.va + x.pages * pageBytes ≤ kv.2.desc.va
  frames : x.depth * wickFramePages x g ≤ x.pages
  map : x.map = true → x.vocabT ≤ (tget [] d.wick.maps (4 * part + x.mapSlot)).length ∧
    ∀ i ∈ tget [] d.wick.maps (4 * part + x.mapSlot), i = noId ∨ i < x.vocabS
  token : ∀ qe ∈ d.live, qe.2.hdr.part = part → qe.2.order ≠ 0 → qe.2.hdr.sig ≠ x.relTok

/-- R302 to R304: micro-batch `mb` stands in frame `f` of the live descriptor `w`, inside its window, in phase `phase`. -/
structure InFrame (d : Dev) (part idx mb phase : Nat) (w : WickLive) (f : Frame) : Prop where
  live : d.wickLive part idx = some w
  frame : w.frames[mb % w.desc.depth]? = some f
  window : (mb + (4096 - w.r % 4096)) % 4096 < w.desc.depth
  phase : f.phase = phase
  batch : f.mb = mb

/-- R586, R587: a packet that combines over a group has formed its own value in a run `x`, and waits. -/
def Dev.started (d : Dev) (c : CmdRef) (e : Entry) (own : List Byte) (x : Ctx) : Dev :=
  (d.issuedRun c e x).2.2.setPhase c
    (.running (.coll false own (runResult (okCounts 0 0 0) (d.issuedRun c e x).2.1 (d.issuedRun c e x).1.ce x)))

/-- R329, R586, R587: a packet that combines under `key` in a group may begin: this device has no other packet under the key
that is not its partner, no member's loss reaches the packet, and no port that its tree needs is down. The block is then `d'`: a
loss that reaches it no more is forgotten (log entry 164). -/
structure Joins (d : Dev) (e : Entry) (group : Nat) (key : GroupKey) (d' : Dev) : Prop where
  coll : d.collOf e = some (group, key)
  alone : d.collBusy e = false
  noLoss : d.meetLoss e = (false, d')
  ports : onTree key = true → d'.treeDown e.hdr.part group = false

/-- R508, R523: the packet `c` waits as `e` for the answers of buddies, with what it keeps of those that came, and the message `m`
answers one of its reads; with that read settled the block is `d'`. -/
structure Answered (s : State) (c : CmdRef) (e : Entry) (m : Message) (own : List Byte) (d' : Dev) : Prop where
  entry : s.dev.entry c = some e
  waits : ∃ r, e.phase = .running (.coll true own r)
  reads : ∃ r x, readOf m.body = some r ∧ s.dev.sentMsg r = some x ∧ x.cmd = some c ∧ x.msg.dst = m.src ∧ d' = s.dev.settled x.msg.id
  calm : s.dev.errDue = []

/-- R579: a packet whose run `x` reached its end with the counters `k` waits for the acknowledgements of its messages. -/
def Dev.sending (d : Dev) (c : CmdRef) (e : Entry) (k : Counts) (x : Ctx) : Dev :=
  (d.issuedRun c e x).2.2.setPhase c
    (.running (.coll true [] (runResult k (d.issuedRun c e x).2.1 (d.issuedRun c e x).1.ce x)))

/-- R30: every copy of the tick count is the count or one tick behind it. -/
def Clock.ok (k : Clock) : Prop :=
  k.tick < 2 ^ 64 ∧ ∀ x ∈ k.copies, x = k.tick ∨ (x + 1) % 2 ^ 64 = k.tick

/-- What every step keeps: each of the 55 copies of the tick count is the count or one behind it (R30), the memories and the
register paths are in canonical form, and no error waits to be taken (R629). -/
structure State.Inv (s : State) : Prop where
  clock : s.dev.clk.ok
  copies : s.dev.clk.copies.length = 55
  memory : s.dev.mem.wf
  lampMemory : tblWf (0 : Byte) s.dev.lamp.localMem = true
  paths : tblWf PathRegs.reset s.dev.paths = true
  calm : s.Calm

end Sys2Proof.Machine
end

