-- ==== Sys2Proof/Certificates/Slice0/Obligations.lean ====
section
/-! DEFINITION. The statements for the provers: the rules of the spec over the commands and the state of the block. -/

open Sys2Proof Sys2Proof.Machine

/-- R240, R261: a NOP holds nothing; a TIMESTAMP holds the reading of its island's tick copy for its commit point. -/
def Obligations.SimplePacketsComplete : Prop :=
  (∀ s c e, Ready s c e → e.payload = .nop →
    exec (.NOP c) s = .next (s.ran c e (okCounts 0 0 0) (.made s.dev c e []))) ∧
  (∀ s c e, Ready s c e → e.payload = .timestamp →
    exec (.TIMESTAMP c) s = .next (s.ran c e (okCounts 0 0 0) (.made s.dev c e [.tick])))

/-- R241 to R243, R283: QUEUE_CREATE where the number is free, the partition has room, and the rings are fit. -/
def Obligations.QueueCreateCompletes : Prop :=
  ∀ s c e q part sz cz share vec attr sqVa cqVa first r, Ready s c e →
    e.payload = .queueCreate q part sz cz share vec attr sqVa cqVa first r →
    let d := s.dev.claimed
    d.hasQueue q = false → (d.queuesOf part).length < 64 →
    d.ringRangeOk part sqVa (64 * 2 ^ sz) = true → d.ringRangeOk part cqVa (32 * 2 ^ cz) = true →
    (sqVa + 64 * 2 ^ sz ≤ cqVa ∨ cqVa + 32 * 2 ^ cz ≤ sqVa) →
    exec (.QUEUE_CREATE c) s = .next (s.ran c e (okCounts 0 0 0) (.made d c e
      [.queueNew q part share vec sz cz sqVa cqVa first (bit attr 0) (d.ringPieces part sqVa (64 * 2 ^ sz))
        (d.ringPieces part cqVa (32 * 2 ^ cz))]))

/-- R284: the first visit of a destroy, and the visit at which every record is written. -/
def Obligations.QueueDestroyCompletes : Prop :=
  (∀ s c e q mode r, Ready s c e → e.payload = .queueDestroy q mode r → 2 ≤ q → (s.dev.queue q).state ≠ .disabled →
    let mine := fun (x : Entry) => x.hdr.queue == q && x.ref != c
    let d := s.dev.commitTerms mine
    exec (.QUEUE_DESTROY c) s = .next (s.put (((if mode = 1 then
        d.killFinally stKilled false (d.killable (fun x => mine x && !x.isWaiting))
      else s.dev).toStage c 1 Result.fresh).destroyGoes c q))) ∧
  (∀ s c e q mode r n res, AtStage s c e n res → e.payload = .queueDestroy q mode r →
    (s.dev.flushAll q false false).dev.errDue = [] →
    (s.dev.flushAll q false false).dev.recordsWritten q c = true →
    ((s.dev.flushAll q false false).bad = true ∨ (s.dev.flushAll q false false).dev.fetch q = none) →
    exec (.QUEUE_DESTROY c) s = .next (s.withDev ((s.dev.flushAll q false false).dev.endStages c
      { Result.fresh with effects := [.queueGone q] })))

/-- R260, R285, R286: a resume that ends in its first visit, for each mode. A queue with a bad header takes mode 2 only. -/
def Obligations.QueueResumeCompletes : Prop :=
  (∀ s c e q head seq r, Ready s c e → e.payload = .queueResume q 0 head seq r → (s.dev.queue q).state = .halted →
    (s.dev.queue q).badHeader = false → s.dev.queueStopped q = false →
    exec (.QUEUE_RESUME c) s = .next (s.withDev ((s.dev.toStage c 1 { Result.fresh with c1 := (s.dev.queue q).tail }).endStages
      c { Result.fresh with effects := [.queueResume q 0 head seq] }))) ∧
  (∀ s c e q head seq r f d, Ready s c e → e.payload = .queueResume q 1 head seq r → (s.dev.queue q).state = .halted →
    (s.dev.queue q).badHeader = false → s.dev.queueStopped q = false →
    s.dev.flushTo q (s.dev.queue q).tail = f → f.bad = false →
    f.dev.toStage c 1 { Result.fresh with c0 := f.flushed, c1 := (s.dev.queue q).tail } = d →
    d.recordsWritten q c = true → (d.queue q).head = (s.dev.queue q).tail → d.errDue = [] →
    exec (.QUEUE_RESUME c) s = .next (s.withDev (d.endStages c
      { Result.fresh with c0 := f.flushed, effects := [.queueResume q 1 head seq] }))) ∧
  (∀ s c e q head seq r d, Ready s c e → e.payload = .queueResume q 2 head seq r → (s.dev.queue q).state = .halted →
    s.dev.queueStopped q = false →
    (s.dev.flushWaiting q false).toStage c 1 { Result.fresh with c0 := s.dev.waitingIn q, c1 := (s.dev.queue q).tail } = d →
    d.recordsWritten q c = true → d.errDue = [] →
    exec (.QUEUE_RESUME c) s = .next (s.withDev (d.endStages c
      { Result.fresh with c0 := s.dev.waitingIn q, effects := [.queueResume q 2 head seq] })))

/-- R533, R534, R540, R566: the commands that create, regrow and re-share a partition. -/
def Obligations.PartCreateCompletes : Prop :=
  (∀ s c e part w share attr spanId n iova r l, ReadyPart s c e → e.payload = .partCreate part w share attr spanId n iova r →
    let d := s.dev.claimed
    (d.part part).state = .free → bit attr 1 = false → d.freeSpindles.take w = l → l.length = w →
    exec (.PART_CREATE c) s = .next (s.ran c e (okCounts (maskOf l) 0 0) (.made d c e
      [.partNew part share 0 (bit attr 0) false [] l]))) ∧
  (∀ s c e part w share attr spanId n iova r l list, ReadyPart s c e → e.payload = .partCreate part w share attr spanId n iova r →
    let d := s.dev.claimed
    (d.part part).state = .free → bit attr 1 = true → d.freeSpindles.take w = l → l.length = w → d.links.hostUp = true →
    list = (List.range n).map (fun i => leAt (getBytes d.mem.host iova (2 * n)) (2 * i) 2) → d.links.devNum ∈ list →
    exec (.PART_CREATE c) s = .next (s.ran c e (okCounts (maskOf l) n 0) (.made d c e
      [.partNew part share spanId (bit attr 0) true list l]))) ∧
  (∀ s c e part w r l, ReadyPart s c e → e.payload = .partRegrow part w r →
    let d := s.dev.claimed
    (d.part part).state = .reclaimed → d.freeSpindles.take w = l → l.length = w →
    exec (.PART_CREATE_REGROW c) s = .next (s.ran c e (okCounts (maskOf l) (d.part part).spanList.length 0)
      (.made d c e [.partRegrow part l]))) ∧
  (∀ s c e p share r, ReadyPart s c e → e.payload = .partShares 0 p share r →
    exec (.PART_SHARES c) s = .next (s.ran c e (okCounts p share 0) (.made s.dev.claimed c e [.partShare p share]))) ∧
  (∀ s c e q share r, ReadyPart s c e → e.payload = .partShares 1 q share r → 2 ≤ q → s.dev.claimed.hasQueue q = true →
    exec (.PART_SHARES c) s = .next (s.ran c e (okCounts q share 0) (.made s.dev.claimed c e [.queueShare q share])))

/-- R270, R274, R537, R564: a KILL whose target exists. -/
def Obligations.KillCompletes : Prop :=
  ∀ s c e scope queue part halt seq r, ReadyPart s c e → e.payload = .kill scope queue part halt seq r →
    (match scope with
      | 0 => (s.dev.entry ⟨queue, seq⟩).isSome = true
      | 1 => s.dev.hasQueue queue = true
      | _ => (s.dev.part part).state ≠ .free) →
    let sel := killSelects c scope queue part seq
    let begun := s.dev.toStage c 1 Result.fresh
    let d := begun.commitTerms sel
    let all := d.withChains (d.killable sel)
    let stopped := d.killFinally stKilled true (all.filter (fun x => !x.isHeld))
    let halted := nodupNat ((if scope = 2 then stopped.queuesOf part else [queue]) ++ all.map (·.hdr.queue))
    exec (.KILL c) s = .next (s.put ((if halt = 1 then halted.foldl Dev.haltQueue stopped else stopped).endStages c
      { Result.fresh with
        c0 := all.length, c1 := (begun.inTermOf sel).length, effects := [.killHeld ((all.filter Entry.isHeld).map Entry.ref)] }))

/-- R546, R549 to R551, R553: the two visits of CTX_SAVE, and a CTX_RESTORE without a reload table. -/
def Obligations.ContextCommandsComplete : Prop :=
  (∀ s c e part r, ReadyPart s c e → e.payload = .ctxSave part r → (s.dev.part part).state = .active →
    let area := s.dev.claimed.mem.freePages .hbm (fun _ => true) (s.dev.part part).areaPages
    area.length = (s.dev.part part).areaPages →
    let d := area.foldl (fun d n => d.setUse .hbm n (.saved part)) s.dev
    let d' := (d.toStage c 1 { Result.fresh with effects := [.ctxSaved part ⟨area, [], [], []⟩] }).commitTerms
      (fun e => e.hdr.part == part && e.ref != c)
    exec (.CTX_SAVE c) s = .next (s.put
      (d'.killAgain true none (d'.killable (fun e => e.hdr.part == part && e.ref != c && e.inFlight))))) ∧
  (∀ s c e part r area, AtStage s c e 1 { Result.fresh with effects := [.ctxSaved part ⟨area, [], [], []⟩] } →
    s.dev.errDue = [] → e.payload = .ctxSave part r →
    s.dev.live.any (fun x => x.2.hdr.part == part && x.2.ref != c && x.2.isRan) = false →
    let x := s.dev.part part
    x.forerunner = true →
    exec (.CTX_SAVE c) s = .next (s.ran c e (okCounts (s.dev.heldIn part) 0 area.length) (.made s.dev c e
      [.ctxSaved part ⟨area, x.skeinData.map (fun kv => (kv.1, [])), x.spindles.map (fun i => (s.dev.spin i).acc),
        x.spindles.map (fun i => ((s.dev.spin i).tq, (s.dev.spin i).tqHead))⟩]))) ∧
  (∀ s c e part r area pages x, AtStage s c e 1 { Result.fresh with effects := [.ctxSaved part ⟨area, [], [], []⟩] } →
    s.dev.errDue = [] → e.payload = .ctxSave part r →
    s.dev.live.any (fun x => x.2.hdr.part == part && x.2.ref != c && x.2.isRan) = false →
    (s.dev.part part).forerunner = false →
    ((s.dev.part part).skeinData.mapM (fun kv => do return (kv.1, ← readPage kv.2.pa)) : Run (List (Nat × List Host.Cell)))
      (.start s.dev c e) = .ok pages x →
    let k := okCounts (s.dev.heldIn part) pages.length area.length
    let y := { x with eff := .ctxSaved part ⟨area, pages, (s.dev.part part).spindles.map (fun i => (s.dev.spin i).acc),
      (s.dev.part part).spindles.map (fun i => ((s.dev.spin i).tq, (s.dev.spin i).tqHead))⟩ :: x.eff }
    exec (.CTX_SAVE c) s = .next (s.ran c e k y)) ∧
  (∀ s c e part va r l, ReadyPart s c e → e.payload = .ctxRestore part 0 va r → (s.dev.claimed.part part).state = .saved →
    let d := s.dev.claimed
    let x := d.part part
    let frames := d.mem.freePages .skein (fun _ => true) x.saved.pages.length
    d.freeSpindles.take x.saved.acc.length = l → l.length = x.saved.acc.length → d.skeinSum - x.wickUsed + x.quotaSkein ≤ 376 →
    frames.length = x.saved.pages.length →
    exec (.CTX_RESTORE c) s = .next (s.ran c e
      (okCounts (maskOf l) (if x.forerunner then 0 else x.saved.pages.length) (d.heldIn part))
      (.made d c e (.ctxActive part l :: ((x.saved.pages.zip frames).flatMap (fun pf =>
        [Effect.block (paOf .skein pf.2) pageBytes pf.1.2, .map part pf.1.1 ⟨paOf .skein pf.2, .data⟩,
          .pageUse .skein pf.2 (.mapped part)])).reverse))))

/-- R558 to R560, R567: each visit of a RECLAIM. -/
def Obligations.ReclaimCompletes : Prop :=
  (∀ s c e part snap r, ReadyPart s c e → e.payload = .reclaim part snap r →
    ((s.dev.part part).state = .active ∨ (s.dev.part part).state = .saved) →
    let k := s.dev.stopAndKill c part true
    exec (.RECLAIM c) s = .next (s.put (({ k.1 with parts := { k.1.parts with reclaim := { k.1.parts.reclaim with part := part } } } : Dev).toStage
      c 1 { Result.fresh with c1 := k.2.2 }))) ∧
  (∀ s c e part snap r res, AtStage s c e 1 res → e.payload = .reclaim part snap r → s.dev.partQuiet c part = true →
    s.dev.reclaimTakes part snap = none →
    exec (.RECLAIM c) s = .next (s.put (s.dev.toStage c 3 { res with c2 := max32 }))) ∧
  (∀ s c e part snap r res n, AtStage s c e 1 res → e.payload = .reclaim part snap r → s.dev.partQuiet c part = true →
    s.dev.reclaimTakes part snap = some n →
    exec (.RECLAIM c) s = .next (s.put (s.dev.reclaimTake c e part n res.c1))) ∧
  (∀ s c e part snap r sent own res, s.dev.entry c = some e → e.phase = .running (.coll sent own res) →
    e.payload = .reclaim part snap r → s.dev.awaits c = false →
    exec (.RECLAIM c) s = .next (s.put (s.dev.reclaimTaken c e part own res))) ∧
  (∀ s c e part snap r res, AtStage s c e 3 res → e.payload = .reclaim part snap r →
    let x := (s.dev.abortAll part).expireAll c part 0x16 true
    exec (.RECLAIM c) s = .next (s.put (((x.1.dropQueues c part).releaseCores part).toStage c 4
      { res with c0 := (s.dev.part part).spindles.length, c1 := res.c1 + x.2 }))) ∧
  (∀ s c e part snap r res, AtStage s c e 4 res → e.payload = .reclaim part snap r → s.dev.stillZeroing part = false →
    let d := s.dev.noteReclaim part res
    exec (.RECLAIM c) s = .next (s.put (d.stagesDone c e { res with effects := .reclaimed part :: ownQueueGone s.dev c part })))

/-- R560, R565: each visit of a PART_RELEASE. -/
def Obligations.PartReleaseCompletes : Prop :=
  (∀ s c e part r, ReadyPart s c e → e.payload = .partRelease part r → (s.dev.part part).state ≠ .free →
    let k := s.dev.stopAndKill c part false
    exec (.PART_RELEASE c) s = .next (s.put (k.1.toStage c 1 { Result.fresh with c0 := k.2.1 }))) ∧
  (∀ s c e part r res, AtStage s c e 1 res → e.payload = .partRelease part r → s.dev.partQuiet c part = true →
    let x := (s.dev.abortAll part).expireAll c part 0x11 false
    exec (.PART_RELEASE c) s = .next (s.put (((x.1.dropQueues c part).releaseCores part).toStage c 4
      { res with c1 := s.dev.liveIn part, c2 := s.dev.pagesHeld part }))) ∧
  (∀ s c e part r res, AtStage s c e 4 res → e.payload = .partRelease part r → s.dev.stillZeroing part = false →
    exec (.PART_RELEASE c) s = .next (s.put (s.dev.stagesDone c e
      { res with effects := .partFree part :: ownQueueGone s.dev c part })))

/-- R64, R68, R71, R130 to R133: a product whose operands read as `a` and `b` and whose result rows can be drained. -/
def Obligations.ArrayProductsComplete : Prop :=
  (∀ s c e sp d e' p a b x y z, ReadyArray s c e sp d e' → e.payload = .arrMatmul p →
    p.a.readMat accFeeder p.m p.k (.start d c e') = .ok a x → p.b.readMat accFeeder p.n p.k x = .ok b y →
    let j := matmulJob p false
    j.drainRows e' (j.compute (j.found d sp j.named) j.half a b) y = .ok ⟨⟩ z →
    exec (.ARR_MATMUL c) s = .next ((s.withDev d).ran c e' (j.ends d sp j.named j.half a b z).1 (j.ends d sp j.named j.half a b z).2)) ∧
  (∀ s c e sp d e' p a b x y z, ReadyArray s c e sp d e' → e.payload = .arrStream p →
    p.a.readMat accFeeder p.m p.k (.start d c e') = .ok a x → p.b.readMat accFeeder p.n p.k x = .ok b y →
    let j := matmulJob p true
    j.drainRows e' (j.compute (j.found d sp j.named) j.half a b) y = .ok ⟨⟩ z →
    exec (.ARR_STREAM c) s = .next ((s.withDev d).ran c e' (j.ends d sp j.named j.half a b z).1 (j.ends d sp j.named j.half a b z).2)) ∧
  (∀ s c e sp d e' p a b x y z, ReadyArray s c e sp d e' → e.payload = .arrShallow p →
    p.a.readMat accFeeder p.m p.k (.start d c e') = .ok a x → p.b.readMat accFeeder p.n p.k x = .ok b y →
    let j := shallowJob p
    j.drainRows e' (j.compute (j.found d sp j.named) j.half a b) y = .ok ⟨⟩ z →
    exec (.ARR_SHALLOW c) s = .next ((s.withDev d).ran c e' (j.ends d sp j.named j.half a b z).1 (j.ends d sp j.named j.half a b z).2)) ∧
  (∀ s c e sp d e' u f g ctl ab fo dr seed wid o r a b x y z, ReadyArray s c e sp d e' →
    e.payload = .arrConv u f g ctl ab fo dr seed wid o r →
    let j := convJob g ctl ab fo dr seed wid o
    ((List.range g.mCount).mapM (convRowAt u g)) (.start d c e') = .ok a x → f.readMat accFeeder g.n j.k x = .ok b y →
    j.drainRows e' (j.compute (j.found d sp j.named) j.half a b) y = .ok ⟨⟩ z →
    exec (.ARR_CONV c) s = .next ((s.withDev d).ran c e' (j.ends d sp j.named j.half a b z).1 (j.ends d sp j.named j.half a b z).2))

/-- R110, R111, R134: an ARR_QUAD of any number of quadrants, and what a single quadrant leaves. -/
def Obligations.QuadCompletes : Prop :=
  (∀ s c e sp d e' mode mask seed blocks r k x, ReadyArray s c e sp d e' → e.payload = .arrQuad mode mask seed blocks r →
    runQuad sp mode mask seed blocks (.start d c e') = .ok k x →
    exec (.ARR_QUAD c) s = .next ((s.withDev d).ran c e' k x)) ∧
  (∀ s c e sp d e' mode mask seed blocks r b j av bv x y, ReadyArray s c e sp d e' → e.payload = .arrQuad mode mask seed blocks r →
    quadJobs mode mask seed blocks = [(b, j)] →
    b.a.readMat accFeeder b.m b.k (.start d c e') = .ok av x → b.b.readMat accFeeder b.n b.k x = .ok bv y →
    let half := fun (_ col : Nat) => 2 * j.base + if mode = 2 then col / 256 else 0
    let rows := j.compute (j.found d sp (quadNamed j)) half av bv
    let imgs := j.images d sp (quadNamed j) half rows
    let vals := rows.flatten.map (decodeFp j.resFmt)
    exec (.ARR_QUAD c) s = .next ((s.withDev d).ran c e'
      ⟨if longSum imgs then stLongSum else stOk, sat max32 (Config.waitCycles d.free), ceilDiv b.k 128, 0⟩
      { y with eff := (imgs.map (fun p => Effect.half sp p.1 p.2)).reverse ++ y.eff,
               inf := y.inf || vals.any FVal.isInf, nan := y.nan || vals.any FVal.isNan }))

/-- R135, R663: the four ARR_ACC commands. -/
def Obligations.AccumulatorCommandsComplete : Prop :=
  (∀ s c e sp d e' tile count half m r, ReadyArray s c e sp d e' → e.payload = .arrAcc 0 tile count half m r →
    exec (.ARR_ACC_ZERO c) s = .next ((s.withDev d).ran c e' (okCounts count 0 0) (.made d c e'
      ((accHalves tile count half).map (fun h => accWrite sp h half [])).reverse))) ∧
  (∀ s c e sp d e' tile count half m r k x, ReadyArray s c e sp d e' → e.payload = .arrAcc 1 tile count half m r →
    runAccLoad sp tile count half m (.start d c e') = .ok k x →
    exec (.ARR_ACC_LOAD c) s = .next ((s.withDev d).ran c e' k x) ∧ k = okCounts count 0 0) ∧
  (∀ s c e sp d e' tile count half m r h rows x, ReadyArray s c e sp d e' → e.payload = .arrAcc 1 tile count half m r →
    accHalves tile count half = [h] →
    ((List.range 256).mapM (fun i => m.readAs { accDrain with write := false } (256 * 0 + i) 256 (accFmt half))) (.start d c e') = .ok rows x →
    let codes := rows.flatten
    let vals := codes.map (decodeFp (elemFmt (accFmt half)))
    exec (.ARR_ACC_LOAD c) s = .next ((s.withDev d).ran c e' (okCounts count 0 0)
      { x with eff := accWrite sp h half ((withIdx 0 codes).filterMap (fun p => if p.1 = 0 then none else some (p.2, p.1))) :: x.eff,
               inf := x.inf || vals.any FVal.isInf, nan := x.nan || vals.any FVal.isNan })) ∧
  (∀ s c e sp d e' tile count half m r k x, ReadyArray s c e sp d e' → e.payload = .arrAcc 2 tile count half m r →
    runAccStore sp tile count half m (.start d c e') = .ok k x →
    exec (.ARR_ACC_STORE c) s = .next ((s.withDev d).ran c e' k x) ∧ k = okCounts count 0 0) ∧
  (∀ s c e sp d e' tile count half h m r x, ReadyArray s c e sp d e' → e.payload = .arrAcc 2 tile count half m r →
    accHalves tile count half = [h] → accForm d sp h half = true →
    ((List.range 256).forM (fun i => m.writeFrom accDrain (256 * 0 + i) (accFmt half) ((List.range 256).map (fun col =>
      tget 0 (d.workingHalf sp h).img (256 * i + col))))) (.start d c e') = .ok ⟨⟩ x →
    exec (.ARR_ACC_STORE c) s = .next ((s.withDev d).ran c e' (okCounts count 0 0) x)) ∧
  (∀ s c e sp d e' tile count half m r, ReadyArray s c e sp d e' → e.payload = .arrAcc 3 tile count half m r →
    exec (.ARR_ACC_POST c) s = .next ((s.withDev d).ran c e' (okCounts (accPosts tile count half).length 0 0) (.made d c e'
      ((accPosts tile count half).map (fun t => Effect.tqPost sp t (half == 1))).reverse)))

/-- R186, R187: copies between equal formats, copies that convert, fills of host memory and of the partition. -/
def Obligations.CopyAndFillComplete : Prop :=
  (∀ s c e src dst rows cols r (data : List (List Nat × List Byte)) x u y, Ready s c e → e.payload = .memCopy src dst rows cols r → src.fmt = dst.fmt →
    ((List.range rows).mapM (fun i => src.readRow accMover i cols)) (.start s.dev c e) = .ok data x →
    ((withIdx 0 data).mapM (fun (q : (List Nat × List Byte) × Nat) => do
      noteVals (rowVals src.fmt q.1.2 q.1.1)
      dst.writeCodes accMover q.2 q.1)) x = .ok u y →
    exec (.MEM_COPY c) s = .next (s.ran c e (okCounts rows 0 0) y)) ∧
  (∀ s c e src dst rows cols r (data : List (List Nat × List Byte)) x u y, Ready s c e → e.payload = .memCopy src dst rows cols r → src.fmt ≠ dst.fmt →
    ((List.range rows).mapM (fun i => src.readRow accMover i cols)) (.start s.dev c e) = .ok data x →
    ((withIdx 0 data).mapM (fun (q : (List Nat × List Byte) × Nat) => dst.writeVals accMover q.2 (rowVals src.fmt q.1.2 q.1.1))) x = .ok u y →
    exec (.MEM_COPY c) s = .next (s.ran c e (okCounts rows 0 0) y)) ∧
  (∀ s c e dst rows rowB pattern r, Ready s c e → e.payload = .memFill dst rows rowB pattern r → dst.host = true →
    exec (.MEM_FILL c) s = .next (s.ran c e (okCounts rows 0 0) (.made s.dev c e ((List.range rows).map (fun i =>
      Effect.host (dst.va + i * dst.rowStride) (List.replicate (rowB / 4) (leBytes 4 pattern)).flatten)).reverse))) ∧
  (∀ s c e dst rows rowB pattern r x, Ready s c e → e.payload = .memFill dst rows rowB pattern r → dst.host = false →
    ((List.range rows).forM (fun i =>
      writeVa accMover (dst.va + i * dst.rowStride) (List.replicate (rowB / 4) (leBytes 4 pattern)).flatten))
        (.start s.dev c e) = .ok ⟨⟩ x →
    exec (.MEM_FILL c) s = .next (s.ran c e (okCounts rows 0 0) x))

/-- R165 to R169, R189, R190: allocation, release and migration of pages. -/
def Obligations.MappingCommandsComplete : Prop :=
  (∀ s c e va pages tier flags r (x : Placing), Ready s c e → e.payload = .memAlloc va pages tier flags r →
    let d := s.dev.claimed
    let p := d.part e.hdr.part
    let kv := flagKv flags
    let keys := rangeKeys va pages kv
    s.dev.skeinZeroing = false → keys.all (fun k => p.unmappedAt k kv) = true → d.level2Room e.hdr.part keys = true →
    placeAll (if kv then placeKv d e.hdr.part else placeAuto d p tier (flagDie flags) (flagWick flags)) keys
      ⟨[], [], [], [], []⟩ = some x →
    exec (.MEM_ALLOC c) s = .next (s.ran c e (if kv then okCounts 0 pages 0 else okCounts x.skein.length x.hbm.length x.ddr.length)
      (.made d c e (x.maps.map (fun (m : Nat × Pte) => Effect.map e.hdr.part m.1 m.2) ++
        x.skein.map (fun n => Effect.pageUse .skein n (.mapped e.hdr.part)) ++
        x.hbm.map (fun n => Effect.pageUse .hbm n (if kv then .kvFrame e.hdr.part else .mapped e.hdr.part)) ++
        x.ddr.map (fun n => Effect.pageUse .ddr n (.mapped e.hdr.part)) ++
        if kv = true ∧ x.hbm.isEmpty = false then [Effect.kvFrames e.hdr.part x.hbm] else []).reverse))) ∧
  (∀ s c e va pages tier flags r, Ready s c e → e.payload = .memFree va pages tier flags r →
    let d := s.dev.claimed
    let p := d.part e.hdr.part
    let want := if flagKv flags then PageKind.kv else if flagWick flags then .wick else .data
    let keys := rangeKeys va pages (flagKv flags)
    let es := keys.filterMap (fun k => (p.pteAt k).map (fun x => (k, x)))
    es.length = keys.length → (∀ ke ∈ es, ke.2.kind = want) →
    (∀ ke ∈ es, (want = .kv → d.inPool e.hdr.part ke.2.pa = false) ∧
      (want = .wick → d.wickCovers e.hdr.part (ke.1 * 65536) = false)) →
    d.ringIn e.hdr.part va (pages * flagPage flags) = false →
    exec (.MEM_FREE c) s = .next (s.ran c e (okCounts pages 0 0) (.made d c e
      (es.flatMap (fun ke => releasePage e.hdr.part ke.1 ke.2 true)).reverse))) ∧
  (∀ s c e va pages tier flags r (x : Placing) u y, Ready s c e → e.payload = .memMigrate va pages tier flags r →
    let d := s.dev.claimed
    let p := d.part e.hdr.part
    let keys := rangeKeys va pages false
    let es := keys.filterMap (fun k => (p.pteAt k).map (fun x => (k, x)))
    es.length = keys.length → (∀ ke ∈ es, ke.2.kind = .data) → d.ringIn e.hdr.part va (pages * pageBytes) = false →
    placeAll (placeAuto d p tier (flagDie flags) false) keys ⟨[], [], [], [], []⟩ = some x →
    ((es.zip x.maps).mapM (fun (em : (Nat × Pte) × (Nat × Pte)) => do
      let cells ← readPage em.1.2.pa
      hold (.block em.2.2.pa pageBytes cells)
      holdAll (releasePage e.hdr.part em.1.1 em.1.2 true)
      hold (.map e.hdr.part em.1.1 em.2.2)
      match tierOf em.2.2.pa with
      | some (t, n) => hold (.pageUse t n (.mapped e.hdr.part))
      | none => pure ())) (.start d c e) = .ok u y →
    exec (.MEM_MIGRATE c) s = .next (s.ran c e (okCounts pages 0 0) y))

/-- R175 to R179: the four commands of sealed regions. -/
def Obligations.SealedCommandsComplete : Prop :=
  (∀ s c e region q pages va r u x, Ready s c e → e.payload = .memSealed 0 region q pages va r →
    let d := s.dev.claimed
    let p := d.part e.hdr.part
    let keys := rangeKeys va pages false
    let es := keys.filterMap (fun k => (p.pteAt k).map (fun x => (k, x)))
    let nums := es.filterMap (fun ke => match tierOf ke.2.pa with
      | some (.hbm, n) => some n
      | _ => none)
    e.hdr.part < 14 → es.length = keys.length → (∀ ke ∈ es, ke.2.kind = .data) → nums.length = keys.length →
    d.ringIn e.hdr.part va (pages * pageBytes) = false → thas d.mem.regions region = false →
    (nums.mapM (fun n => readPage (paOf .hbm n))) (.start d c e) = .ok u x →
    exec (.SEAL c) s = .next (s.ran c e (okCounts pages 0 0) { x with eff := (keys.map (fun k => Effect.unmap e.hdr.part k) ++
      nums.map (fun n => Effect.pageUse .hbm n (.sealed region)) ++ [Effect.region region nums (sealDigest (d.seenBy e).mem nums)]).reverse ++ x.eff })) ∧
  (∀ s c e region p n va r g, Ready s c e → e.payload = .memSealed 1 region p n va r →
    let d := s.dev.claimed
    tfind d.mem.regions region = some g →
    (d.part p).state ≠ .free → g.zeroing = false → va + g.pages.length * pageBytes ≤ 2 ^ 48 →
    let keys := rangeKeys va g.pages.length false
    keys.all (fun k => (d.part p).unmappedAt k false) = true → d.level2Room p keys = true →
    exec (.MAP c) s = .next (s.ran c e (okCounts g.pages.length 0 0) (.made d c e
      ((keys.zip g.pages).map (fun (kp : Nat × Nat) => Effect.map p kp.1 ⟨paOf .hbm kp.2, .sealed region⟩) ++ [Effect.sealMap p region va]).reverse))) ∧
  (∀ s c e region p n va r g, Ready s c e → e.payload = .memSealed 2 region p n va r →
    let d := s.dev.claimed
    tfind d.mem.regions region = some g →
    (region, va) ∈ (d.part p).maps →
    exec (.UNMAP c) s = .next (s.ran c e (okCounts g.pages.length 0 0) (.made d c e
      ((rangeKeys va g.pages.length false).map (fun k => Effect.unmap p k) ++ [Effect.sealUnmap p region va]).reverse))) ∧
  (∀ s c e region p n va r g, Ready s c e → e.payload = .memSealed 3 region p n va r →
    let d := s.dev.claimed
    tfind d.mem.regions region = some g →
    d.mapsOf region = 0 → g.zeroing = false →
    exec (.UNSEAL c) s = .next (s.ran c e (okCounts g.pages.length 0 0) (.made d c e
      (Effect.regionZero region :: g.pages.map (fun m => Effect.zero ⟨.hbmPage m, some region, true⟩)).reverse)))

/-- R179, R182, R183, R354, R659: the four events that end zeroing. -/
def Obligations.ZeroingCompletes : Prop :=
  (∀ (s : State) t i, s.dev.zeroItem t = some i → i.region = none →
    exec (.BACKGROUND_ZERO_DONE t) s = .next (s.put (s.dev.zeroDone i))) ∧
  (∀ (s : State) t i r, s.dev.zeroItem t = some i → i.region = some r → 2 ≤ (s.dev.regionItems r).length →
    exec (.BACKGROUND_ZERO_DONE t) s = .next (s.put (s.dev.zeroDone i))) ∧
  (∀ (s : State) r g i, tfind s.dev.mem.regions r = some g → s.dev.regionItems r = [i] → g.zeroing = true →
    s.dev.zeroItem i.target ≠ none →
    exec (.UNSEAL_ZERO_DONE r) s = .next (s.put ((s.dev.zeroDone i).modMem (fun m => { m with regions := terase m.regions r })))) ∧
  (∀ (s : State) part,
    let d := s.dev.zeroSpindles ((s.dev.parts.spZero.filter (fun kv => kv.2 == part)).map (·.1))
    let d' : Dev := { d with parts := { d.parts with spZero := d.parts.spZero.filter (fun kv => kv.2 != part) } }
    exec (.RELEASE_ZERO_DONE part) s = .next (s.put
      (((s.dev.mem.skein.filter (fun kv => kv.2 == .releasing part)).map (·.1)).foldl (fun (d : Dev) p =>
        (d.pokeBlock (paOf .skein p) pageBytes []).setUse .skein p .free) d'))) ∧
  (∀ (s : State) part pa g, tfind (s.dev.pool part) (pa / 65536) = some g → g.zeroing = true →
    exec (.KV_PAGE_ZERO_DONE part pa) s = .next (s.put
      ((s.dev.pokeBlock (pa / 65536 * 65536) 65536 []).modPool part (fun t => tins t (pa / 65536) { g with zeroing := false }))))

/-- R196, R203, R221 to R224, R228: the commands of the vector engine. `w` is the program's context when it stops. -/
def Obligations.VectorCommandsComplete : Prop :=
  (∀ s c e p w x, Ready s c e → e.payload = .vecRun p → vecBusy s.dev e = false →
    vecGo p p.instrs vecStart (.start s.dev c e) = .ok w x → p.instrs.length ≤ w.pc →
    let sp := s.dev.spindleOf e
    let d := s.dev.modSpin sp (fun v => { v with vecInstr := (v.vecInstr + w.pc) % 2 ^ 64 })
    exec (.VEC_RUN c) s = .next ((s.withDev d).ran c e
      (okCounts w.pc (if w.taken = 0 then 0 else sat max32 (Config.waitCycles s.dev.free)) w.taken)
      { x with eff := ((if x.perm then [Effect.permRange sp] else []) ++
        (if w.taken = 0 then [] else [Effect.tqRemove sp w.taken])).reverse ++ x.eff })) ∧
  (∀ s c e p w x, Ready s c e → e.payload = .vecRun p → vecBusy s.dev e = false →
    vecGo p p.instrs vecStart (.start s.dev c e) = .ok w x → w.pc < p.instrs.length →
    let d := s.dev.modSpin (s.dev.spindleOf e) (fun v => { v with vecInstr := (v.vecInstr + w.pc) % 2 ^ 64 })
    exec (.VEC_RUN c) s = .next (s.put (((d.issuedRun c e x).2.2.countRun e 0 0 (d.issuedRun c e x).2.1).setPhase c
      (.running (.vec w (runResult (okCounts 0 0 0) (d.issuedRun c e x).2.1 (d.issuedRun c e x).1.ce x)))))) ∧
  (∀ s c e p v r i t k, s.dev.entry c = some e → e.phase = .running (.vec v r) → e.payload = .vecRun p →
    let sp := s.dev.spindleOf e
    p.instrs[v.pc]? = some i → untaken (s.dev.spin sp).tq = some (t, k) →
    let d := s.dev.setSpin sp { s.dev.spin sp with
      tq := (s.dev.spin sp).tq.modify k (fun t => { t with taken := true }), vecInstr := ((s.dev.spin sp).vecInstr + 1) % 2 ^ 64 }
    exec (.TQ_POP c) s = .next (s.put (vecContinue d c e p
      { v with pc := v.pc + 1, store := popInto v.store (s.dev.spin sp) i t, taken := v.taken + 1 } (resumeCtx d c e r)))) ∧
  (∀ s c e v r, s.dev.entry c = some e → e.phase = .running (.vec v r) → untaken (s.dev.spin (s.dev.spindleOf e)).tq = none →
    exec (.TQ_POP_TIMEOUT c) s = .next (s.put (s.dev.ranFail c e ⟨stTqEmpty, none, none⟩ (resumeCtx s.dev c e r)))) ∧
  (∀ s c e count r, Ready s c e → e.payload = .vecTqFlush count r → vecBusy s.dev e = false →
    exec (.VEC_TQ_FLUSH c) s = .next (s.ran c e (okCounts count 0 0) (.made s.dev c e [.tqRemove (s.dev.spindleOf e) count])))

/-- R123 to R126, R138, R139: the events of the pilot. That a pass bubble counts as a gap for the fraction A and not for GAP_MAX
is the model's choice (log entry 152). -/
def Obligations.PilotEventsComplete : Prop :=
  (∀ (s : State) sp slots bubble, s.dev.errDue = [] → 0 < slots → slots ≤ 16 → (s.dev.spin sp).pilot.en = true →
    let v := s.dev.spin sp
    let hist := (slots :: (List.replicate (min v.gap 16) 0 ++ v.hist)).take 16
    let occ := max slots (v.pilot.target hist.sum)
    exec (.PILOT_WINDOW sp ⟨slots, bubble⟩) s = .next (s.withDev ((s.dev.setSpin sp { v with
      gap := 0, bubbles := 0, ramp := 0, hist := hist, occupied := occ, pilotRows := (v.pilotRows + (occ - slots)) % 2 ^ 64,
      pilot := v.pilotNext.getD v.pilot, pilotNext := none }).chargePilots sp (occ - slots)))) ∧
  (∀ (s : State) sp bubble, s.dev.errDue = [] → (s.dev.spin sp).pilot.en = true →
    let v := s.dev.spin sp
    (bubble = true ∨ v.gap + 1 - v.bubbles ≤ v.pilot.gapWindows) →
    let occ := v.pilot.target v.hist.sum
    exec (.PILOT_WINDOW sp ⟨0, bubble⟩) s = .next (s.withDev ((s.dev.setSpin sp { v with
      gap := v.gap + 1, bubbles := if bubble then v.bubbles + 1 else v.bubbles, ramp := 0, occupied := occ,
      pilotRows := (v.pilotRows + occ) % 2 ^ 64, pilot := v.pilotNext.getD v.pilot, pilotNext := none }).chargePilots sp occ))) ∧
  (∀ (s : State) sp, s.dev.errDue = [] → (s.dev.spin sp).pilot.en = true →
    let v := s.dev.spin sp
    v.pilot.gapWindows < v.gap + 1 - v.bubbles →
    exec (.PILOT_WINDOW sp ⟨0, false⟩) s = .next (s.withDev ((s.dev.setSpin sp { v with
      gap := v.gap + 1, ramp := v.ramp + 1, pilotRows := (v.pilotRows + v.occupied) % 2 ^ 64,
      pilot := v.pilotNext.getD v.pilot, pilotNext := none }).chargePilots sp v.occupied))) ∧
  (∀ (s : State) sp, s.dev.errDue = [] → (s.dev.spin sp).pilot.en = true →
    (s.dev.spin sp).pilot.gapWindows < (s.dev.spin sp).gap - (s.dev.spin sp).bubbles →
    2 ^ (s.dev.spin sp).pilot.ramp ≤ (s.dev.spin sp).ramp →
    exec (.PILOT_RAMP sp) s = .next (s.withDev (s.dev.setSpin sp
      { s.dev.spin sp with occupied := (s.dev.spin sp).occupied - 1, ramp := 0 })))

/-- R289, R295, R296, R319, R326: the tables of the Wick. That a removal keeps the checks of R295 but for the live index is the
model's reading (log entry 166). -/
def Obligations.WickTablesComplete : Prop :=
  (∀ s c e (x : WickDesc) g pos, Ready s c e → e.payload = .wickDesc x → x.remove = false →
    let d := s.dev.claimed
    WickDescFits d e.hdr.part x g pos → d.wickLive e.hdr.part x.index = none →
    exec (.WICK_DESC c) s = .next (s.ran c e (okCounts (x.depth * wickFramePages x g) (wickFramePages x g) 0) (.made d c e
      [.wickNew e.hdr.part x.index ⟨x, x.depth * wickFramePages x g, wickFramePages x g,
        d.token e.hdr.part x.relTok, 0, g, pos, List.replicate x.depth Frame.empty⟩]))) ∧
  (∀ s c e (x : WickDesc) g pos w, Ready s c e → e.payload = .wickDesc x → x.remove = true →
    let d := s.dev.claimed
    WickDescFits d e.hdr.part x g pos → d.wickLive e.hdr.part x.index = some w → (∀ f ∈ w.frames, f.phase = 0) →
    exec (.WICK_DESC_REMOVE c) s = .next (s.ran c e (okCounts w.p w.f 0) (.made d c e [.wickGone e.hdr.part x.index]))) ∧
  (∀ s c e slot n (src : Desc) r b x, Ready s c e → e.payload = .wickTokmap slot n src r →
    let d := s.dev.claimed
    d.wick.descs.any (fun kv => kv.1 / 16 == e.hdr.part && kv.2.desc.map && kv.2.desc.mapSlot == slot) = false →
    readVa accPlain src.va (4 * n) (.start d c e) = .ok b x → (∀ i ∈ rowCodes 0 n b, i = noId ∨ i < 262144) →
    exec (.WICK_TOKMAP c) s = .next (s.ran c e (okCounts n ((rowCodes 0 n b).filter (· != noId)).length 0)
      { x with eff := .wickMap e.hdr.part slot (rowCodes 0 n b) :: x.eff }))

/-- R301 to R304, R307, R312 to R318, R327: the steps, and what a frame in another phase does. -/
def Obligations.WickStepsComplete : Prop :=
  (∀ s c e idx mb r w f labels x rs y, Ready s c e → vecBusy s.dev e = false → e.payload = .wickStep idx 0 mb r →
    InFrame s.dev e.hdr.part idx mb 1 w f → w.desc.topk = false → e.hdr.unit < w.desc.spindles →
    let blocks := shareBlocks w.vT w.desc.spindles e.hdr.unit
    (∀ b ∈ blocks, b ∈ f.tBlocks ∧ b ∈ f.sBlocks) →
    wickLabels w mb (.start s.dev c e) = .ok labels x → (withIdx 0 labels).mapM (statsRow w mb e.hdr.unit) x = .ok rs y →
    exec (.STATS c) s = .next (s.ran c e (stepCounts w blocks rs) { y with eff := .wickRank e.hdr.part idx mb e.hdr.unit 4 :: y.eff })) ∧
  (∀ s c e idx mb r w f rs y, Ready s c e → vecBusy s.dev e = false → e.payload = .wickStep idx 1 mb r →
    InFrame s.dev e.hdr.part idx mb 1 w f → w.desc.topk = true → e.hdr.unit < w.desc.spindles →
    let blocks := shareBlocks w.vT w.desc.spindles e.hdr.unit
    (∀ b ∈ blocks, b ∈ f.tBlocks) →
    (List.range w.desc.rows).mapM (statsTRow w mb e.hdr.unit) (.start s.dev c e) = .ok rs y →
    exec (.STATS_T c) s = .next (s.ran c e (stepCounts w blocks rs) { y with eff := .wickRank e.hdr.part idx mb e.hdr.unit 2 :: y.eff })) ∧
  (∀ s c e idx mb r w f labels x rs y, Ready s c e → vecBusy s.dev e = false → e.payload = .wickStep idx 2 mb r →
    InFrame s.dev e.hdr.part idx mb 3 w f → w.desc.topk = true → e.hdr.unit < w.desc.spindles →
    let blocks := shareBlocks w.vS w.desc.spindles e.hdr.unit
    (∀ b ∈ blocks, b ∈ f.sBlocks) →
    wickLabels w mb (.start s.dev c e) = .ok labels x → (withIdx 0 labels).mapM (statsSRow w mb e.hdr.unit) x = .ok rs y →
    exec (.STATS_S c) s = .next (s.ran c e (stepCounts w blocks rs) { y with eff := .wickRank e.hdr.part idx mb e.hdr.unit 4 :: y.eff })) ∧
  (∀ s c e idx mb r w f labels x rs y, Ready s c e → vecBusy s.dev e = false → e.payload = .wickStep idx 3 mb r →
    InFrame s.dev e.hdr.part idx mb 5 w f → e.hdr.unit < w.desc.spindles →
    let blocks := shareBlocks w.vS w.desc.spindles e.hdr.unit
    (∀ b ∈ blocks, b ∈ f.sBlocks ∧ (w.desc.topk = false → b ∈ f.tBlocks)) →
    wickLabels w mb (.start s.dev c e) = .ok labels x → (withIdx 0 labels).mapM (gradRow w mb e.hdr.unit) x = .ok rs y →
    exec (.GRAD c) s = .next (s.ran c e (stepCounts w blocks rs) { y with eff := .wickRank e.hdr.part idx mb e.hdr.unit 6 :: y.eff })) ∧
  (∀ s c e idx mb r w, Ready s c e → vecBusy s.dev e = false → e.payload = .wickStep idx 4 mb r →
    s.dev.wickLive e.hdr.part idx = some w → mb = w.r % 4096 →
    exec (.RELEASE c) s = .next (s.ran c e (okCounts 0 0 0) (.made s.dev c e [.wickRelease e.hdr.part idx]))) ∧
  (∀ (s : State) c e idx mb w f phase, s.dev.wickLive e.hdr.part idx = some w → w.frames[mb % w.desc.depth]? = some f →
    (f.phase ≠ phase ∨ f.mb ≠ mb) → wickFrame e.hdr.part idx mb phase (.start s.dev c e) = .error ⟨stBadParam, none, none⟩ (.start s.dev c e))

/-- R310, R324, R586: the start of a merge, and its end where it is the only member. That a device enters one value at a time
under a key is the model's choice (log entry 163). -/
def Obligations.MergeCompletes : Prop :=
  (∀ s c e idx op mb r own x g d, Ready s c e → vecBusy s.dev e = false → e.payload = .wickMerge idx op mb r →
    let key := GroupKey.wick idx mb op
    Joins s.dev e g key d → wickLocal e.hdr.part idx op mb (.start d c e) = .ok own x →
    exec (.WICK_MERGE c) s = .next (s.put ((d.started c e own x).advance e.hdr.part g key))) ∧
  (∀ s c e idx op mb r own x g d e' m, Ready s c e → vecBusy s.dev e = false → e.payload = .wickMerge idx op mb r →
    let key := GroupKey.wick idx mb op
    Joins s.dev e g key d → wickLocal e.hdr.part idx op mb (.start d c e) = .ok own x →
    let d' := d.started c e own x
    d'.collWaiting e.hdr.part g key = [e'] → d'.groupOf e.hdr.part g = some ([m], 0) →
    e'.payload = e.payload → e'.hdr = e.hdr → e'.coll = some (false, own) →
    exec (.WICK_MERGE c) s = .next (s.put ((d'.run e'.ref e' (wickFinish e.hdr.part idx op mb own)).dropVals g key)))

/-- R334, R342, R347, R367, R368, R386: the commands that change the request table and the pools. -/
def Obligations.RequestTableComplete : Prop :=
  (∀ s c e a id x, ReadyRequest s c e → e.payload = .reqAdmit a →
    let d := s.dev.claimed
    d.liveIn e.hdr.part < tget 0 d.reqs.maxReq e.hdr.part → lowest (fun i => !thas d.reqs.r i) 0 16384 = some id →
    readEntry id (.start d c e) = .ok () x →
    exec (.REQ_ADMIT c) s = .next (s.ran c e (okCounts id ((d.genOf id + 1) % 2 ^ 32) 0)
      { x with eff := .reqAdmit e.hdr.part id a :: x.eff })) ∧
  (∀ s c e va pages r, ReadyRequest s c e → e.payload = .poolAdd va pages r →
    let d := s.dev.claimed
    let es := (rangeKeys va pages true).filterMap (fun k => match (d.part e.hdr.part).pteAt k with
      | some x => if x.kind = .kv then some (x.pa / 65536, 65536 * k) else none
      | none => none)
    let pool := d.pool e.hdr.part
    es.length = pages → (∀ x ∈ es, thas pool x.1 = false) → pool.length + pages ≤ 65535 →
    exec (.POOL_ADD c) s = .next (s.ran c e (okCounts pages ((freePool pool).length + pages) 0)
      (.made d c e [.poolAdd e.hdr.part es]))) ∧
  (∀ s c e va pages r, ReadyRequest s c e → e.payload = .poolRemove va pages r →
    let d := s.dev.claimed
    let pool := d.pool e.hdr.part
    let ks := (rangeKeys va pages true).filterMap (fun k => match (d.part e.hdr.part).pteAt k with
      | some x => if thas pool (x.pa / 65536) then some (x.pa / 65536) else none
      | none => none)
    ks.length = pages → (∀ k ∈ ks, ∃ g, tfind pool k = some g ∧ g.holder = none ∧ g.zeroing = false) →
    exec (.POOL_REMOVE c) s = .next (s.ran c e (okCounts pages ((freePool pool).length - pages) 0)
      (.made d c e [.poolRemove e.hdr.part ks]))) ∧
  (∀ s c e id gen r q x y, ReadyRequest s c e → e.payload = .reqRelease id gen r →
    let d := s.dev.claimed
    readEntry id (.start d c e) = .ok () x → d.request id = some q → q.part = e.hdr.part →
    d.genOf id = gen → q.inPeriod = false → clearList q.adm (q.pages.map (·.1)) x = .ok ⟨⟩ y →
    exec (.REQ_RELEASE c) s = .next (s.ran c e (okCounts id q.pages.length (if q.isLive then q.reserveLeft else 0))
      { y with eff := .reqRelease id :: y.eff })) ∧
  (∀ s c e ctl id gen r q x, ReadyRequest s c e → e.payload = .draftConfig ctl id gen r →
    let d := s.dev.claimed
    readEntry id (.start d c e) = .ok () x → d.request id = some q →
    q.part = e.hdr.part → d.genOf id = gen → q.inPeriod = false →
    exec (.CONFIG c) s = .next (s.ran c e (okCounts id gen 0) { x with eff := .draftCtl id ctl :: x.eff }))

/-- R355 to R363, R389, R406: the commands of serving periods, and an empty slot. `v` is the block as the command sees it. That a
batch list or a step table in DDR5 ends a command is the model's reading (log entry 168). -/
def Obligations.PeriodsComplete : Prop :=
  (∀ s c e slot n b st r (items : List (Nat × Nat)) (reqs : List ((Nat × Nat) × Request)) u x1 x2 x3 x4 x5 x6, ReadyRequest s c e → e.payload = .decodeOpen slot n b st r →
    let v := s.dev.claimed.seenBy e
    let part := e.hdr.part
    let rows := placeRows (freePool (v.pool part))
      (reqs.map (fun (q : (Nat × Nat) × Request) => openRow (v.tickAt (v.spindleOf e)) false q.1.1 q.1.2 q.2))
    let late := lateWith v part (v.tickAt (v.spindleOf e)) rows
    readBatch false b n (.start s.dev.claimed c e) = .ok items x1 → notDdr part b (2 * n) x1 = .ok ⟨⟩ x2 →
    notDdr part st (32 * n) x2 = .ok ⟨⟩ x3 → (items.mapM (fun (i : Nat × Nat) => do return (i, ← reqOf part i.1))) x3 = .ok reqs x4 →
    nodupNat (items.map (·.1)) = items.map (·.1) → v.period part slot = none → (∀ q ∈ reqs, q.2.inPeriod = false) →
    (rows.map (·.count)).sum ≤ 1048576 →
    (rows.zip (withIdx 0 (rowBases 0 rows))).forM (openOne v part false st) x4 = .ok u x5 → late.forM (expire v) x5 = .ok ⟨⟩ x6 →
    exec (.OPEN c) s = .next (s.ran c e (openCounts rows late)
      { x6 with eff := .periodOpen part slot (openedPeriod v false e.hdr.opcode rows) :: x6.eff })) ∧
  (∀ s c e slot n b st r (items : List (Nat × Nat)) (reqs : List ((Nat × Nat) × Request)) u x1 x2 x3 x4 x5 x6, ReadyRequest s c e → e.payload = .prefill slot n b st r →
    let v := s.dev.claimed.seenBy e
    let part := e.hdr.part
    let rows := placeRows (freePool (v.pool part))
      (reqs.map (fun (q : (Nat × Nat) × Request) => openRow (v.tickAt (v.spindleOf e)) true q.1.1 q.1.2 q.2))
    let late := lateWith v part (v.tickAt (v.spindleOf e)) rows
    readBatch true b n (.start s.dev.claimed c e) = .ok items x1 → notDdr part b (8 * n) x1 = .ok ⟨⟩ x2 →
    notDdr part st (32 * n) x2 = .ok ⟨⟩ x3 → (items.mapM (fun (i : Nat × Nat) => do return (i, ← reqOf part i.1))) x3 = .ok reqs x4 →
    nodupNat (items.map (·.1)) = items.map (·.1) → v.period part slot = none → (∀ q ∈ reqs, q.2.inPeriod = false) →
    (rows.map (·.count)).sum ≤ 1048576 →
    (rows.zip (withIdx 0 (rowBases 0 rows))).forM (openOne v part true st) x4 = .ok u x5 → late.forM (expire v) x5 = .ok ⟨⟩ x6 →
    exec (.PREFILL c) s = .next (s.ran c e (openCounts rows late)
      { x6 with eff := .periodOpen part slot (openedPeriod v true e.hdr.opcode rows) :: x6.eff })) ∧
  (∀ s c e slot u vocab draft r p cs y, ReadyRequest s c e → e.payload = .decodeClose slot u vocab draft r →
    let v := s.dev.claimed.seenBy e
    let rows := (withIdx 0 p.rows).filter (fun (rk : PeriodRow × Nat) => rk.1.status == 0)
    v.period e.hdr.part slot = some p → (draft = 0 → ∀ rk ∈ rows, rk.1.kind = 0 → rk.1.count ≤ 1) →
    rows.mapM (closeOne v u vocab draft) (.start s.dev.claimed c e) = .ok cs y →
    exec (.CLOSE c) s = .next (s.ran c e
      (okCounts (cs.map (fun q => q.1.tokens.length)).sum (cs.map (·.2)).sum (cs.filter (fun q => q.1.last)).length)
      { y with eff := .periodClose e.hdr.part slot (cs.map (·.1)) :: y.eff })) ∧
  (∀ s c e slot r p ns y, ReadyRequest s c e → e.payload = .decodeAbort slot r →
    let v := s.dev.claimed.seenBy e
    v.period e.hdr.part slot = some p →
    (p.rows.filter (fun q => q.status == 0)).mapM (abortOne v) (.start s.dev.claimed c e) = .ok ns y →
    exec (.ABORT c) s = .next (s.ran c e (okCounts 0 ns.sum 0) { y with eff := .periodAbort e.hdr.part slot :: y.eff })) ∧
  (∀ s c e slot n vocab items draft u r p b x nodes y, ReadyRequest s c e → e.payload = .draftDraw slot n vocab items draft u r →
    let v := s.dev.claimed.seenBy e
    v.period e.hdr.part slot = some p → readOrd items (16 * n) (.start s.dev.claimed c e) = .ok b x →
    ((List.range n).map (parseItem b)).foldlM (drawOne v p u vocab draft) [] x = .ok nodes y →
    exec (.DRAW c) s = .next (s.ran c e (okCounts nodes.length (n - nodes.length) 0)
      { y with eff := .draftNodes e.hdr.part slot nodes :: y.eff })) ∧
  (∀ (s : State) c (e : Entry) slot n vocab items draft u, s.dev.period e.hdr.part slot = none →
    runClose e.hdr.part slot u vocab draft (.start s.dev c e) = .error ⟨stBadParam, none, none⟩ (.start s.dev c e) ∧
    runAbort e.hdr.part slot (.start s.dev c e) = .error ⟨stBadParam, none, none⟩ (.start s.dev c e) ∧
    runDraw e.hdr.part slot n vocab items draft u (.start s.dev c e) = .error ⟨stBadParam, none, none⟩ (.start s.dev c e))

/-- R339, R340, R370: the operations of TENANT_SET. -/
def Obligations.TenantCommandsComplete : Prop :=
  (∀ s c e t p m v r, Ready s c e → e.payload = .tenantSet t 0 p m v r →
    exec (.SET_BALANCE c) s = .next (s.ran c e (okCounts t 0 0) (.made s.dev c e [.tenantSet t 0 p m v]))) ∧
  (∀ s c e t p m v r, Ready s c e → e.payload = .tenantSet t 1 p m v r →
    exec (.ADD_BALANCE c) s = .next (s.ran c e (okCounts t 0 0) (.made s.dev c e [.tenantSet t 1 p m v]))) ∧
  (∀ s c e t p m v r, Ready s c e → e.payload = .tenantSet t 2 p m v r →
    exec (.BIND c) s = .next (s.ran c e (okCounts t 0 0) (.made s.dev c e [.tenantSet t 2 p m v])))

/-- R397 to R401, R599, R601: delivery of one token, and a read of a consumer count. -/
def Obligations.StreamEventsComplete : Prop :=
  (∀ (s : State) id r tok last rest, s.dev.errDue = [] → s.dev.request id = some r → r.held = (tok, last) :: rest →
    s.dev.links.hostUp = true → s.dev.links.bridge = true → r.unread < ringCap r.adm →
    let w := streamWords id (s.dev.genOf id) tok r.streamSeq last
    let a := r.adm.ringIova + 64 + 16 * (r.streamSeq % ringCap r.adm)
    let r' := { r with held := rest, streamSeq := (r.streamSeq + 1) % 2 ^ 32 }
    exec (.STREAM_DELIVER id) s = .next (s.withDev { s.dev with
      mem := { s.dev.mem with host := putBytes (putBytes s.dev.mem.host a w.1) (a + 12) w.2 }
      reqs := { s.dev.reqs with r := tins s.dev.reqs.r id r'.wake, streamed := (s.dev.reqs.streamed + 1) % 2 ^ 64 } })) ∧
  (∀ (s : State) id r tok last rest, s.dev.request id = some r → r.held = (tok, last) :: rest →
    s.dev.links.hostUp = true → s.dev.links.bridge = false → r.unread < ringCap r.adm →
    let w := streamWords id (s.dev.genOf id) tok r.streamSeq last
    let a := r.adm.ringIova + 64 + 16 * (r.streamSeq % ringCap r.adm)
    let r' := { r with held := rest, streamSeq := (r.streamSeq + 1) % 2 ^ 32 }
    let br := s.dev.links.devNum / 8 * 8
    let d := (s.dev.sendMsg none br (.hostWrite a w.1)).sendMsg none br (.hostWrite (a + 12) w.2)
    exec (.STREAM_DELIVER id) s = .next (s.put { d with
      reqs := { s.dev.reqs with r := tins s.dev.reqs.r id r'.wake, streamed := (s.dev.reqs.streamed + 1) % 2 ^ 64 } })) ∧
  (∀ (s : State) id r, s.dev.errDue = [] → s.dev.request id = some r →
    (r.held = [] ∨ s.dev.links.hostUp = false ∨ ringCap r.adm ≤ r.unread) →
    exec (.STREAM_DELIVER id) s = .next (s.withDev { s.dev with reqs := { s.dev.reqs with r := tins s.dev.reqs.r id r.wake } })) ∧
  (∀ (s : State) id r, s.dev.errDue = [] → s.dev.request id = some r → s.dev.links.hostUp = true → r.held ≠ [] →
    ringCap r.adm ≤ r.unread → r.consRead ≤ s.dev.clk.tick →
    (∀ q ∈ s.dev.reqs.r, q.1 < id → q.2.held = [] ∨ q.2.unread < ringCap q.2.adm ∨ s.dev.clk.tick < q.2.consRead) →
    let v := leAt (getBytes s.dev.mem.host r.adm.ringIova 4) 0 4
    let n := (r.streamSeq + (2 ^ 32 - v)) % 2 ^ 32
    exec (.CONS_READ id) s = .next (s.withDev { s.dev with
      reqs := if n ≤ ringCap r.adm ∧ n ≤ r.unread then
          { s.dev.reqs with r := tins s.dev.reqs.r id { r with consRead := s.dev.clk.tick + 16, cons := v } }
        else
          { s.dev.reqs with r := tins s.dev.reqs.r id { r with consRead := s.dev.clk.tick + 16 }, ringBad := true } }))

/-- R419, R423 to R425, R428, R433, R438: contexts and contributions of the gradient exchange. That contributions are kept at their
owners until their SEND commits is the model's reading of R261 and R428. -/
def Obligations.ExchangeCommandsComplete : Prop :=
  (∀ s c e (x : XchConfig) ms pos, ReadyDie s c e → e.payload = .xchConfig x →
    let d := s.dev.claimed
    d.xchOf x.ctx = none → d.groupOf e.hdr.part x.group = some (ms, pos) → ms.length ≤ 4096 → x.minPresent ≤ ms.length →
    let n := ms.length * x.shardBlocks * 1024
    d.inDataPages e.hdr.part x.gradVa (n * x.gradLen) = true →
    (x.comp = 2 ∨ d.inDataPages e.hdr.part x.residVa (8 * n) = true) →
    d.inDataPages e.hdr.part x.inboxVa (3 * ms.length * x.cs) = true →
    d.inDataPages e.hdr.part x.sumVa (4096 * x.shardBlocks) = true →
    exec (.GRAD_EXCHANGE_CONFIG c) s = .next (s.ran c e (okCounts x.cs ms.length 0) (.made d c e
      [.train (.xchNew x.ctx
        { cfg := x, part := e.hdr.part, members := ms.length, pos := pos, step := x.firstStep, epoch := 0, stored := [], held := []
          ownTick := none, issueTick := none, decision := none, replay := false, lastPresent := 0, dropped := 0, heldCount := 0
          shadows := [], waiters := [] })]))) ∧
  (∀ s c e ctx r x, ReadyDie s c e → e.payload = .xchRemove ctx r →
    let d := s.dev.claimed
    d.xchOf ctx = some x → x.part = e.hdr.part → d.xchBusy ctx = false →
    exec (.REMOVE c) s = .next (s.ran c e (okCounts x.stored.length 0 0) (.made d c e [.train (.xchGone ctx)]))) ∧
  (∀ s c e ctx r x ms pos shards y, ReadyDie s c e → e.payload = .xchSend ctx x.step r → s.dev.xchOf ctx = some x →
    x.part = e.hdr.part → s.dev.groupOf e.hdr.part x.cfg.group = some (ms, pos) →
    (∀ p < x.members, p = x.pos ∨ s.dev.routeOk (memberAt ms p) = true) →
    (List.range x.members).mapM (sendShard x) (.start s.dev c e) = .ok shards y →
    let k := okCounts (min (shards.map (·.2)).sum max32) x.epoch x.members
    let y' := { y with eff := .train (.contrib ctx x.step x.pos ((shards.map (·.1)).getD x.pos [])) :: y.eff }
    let out := sendMsgs x ms ctx x.step shards
    exec (.SEND c) s = .next (if out = [] then s.ran c e k y'
      else s.put (out.foldl (fun d m => d.sendMsg (some c) m.1 m.2) (s.dev.sending c e k y')))) ∧
  (∀ (s : State) m group ctx step p data x, m.body = .contrib group ctx step p data → s.dev.xchOf ctx = some x → x.cfg.group = group →
    p < x.members → data.length = x.cfg.cs →
    exec (.CONTRIB_ARRIVE m) s = .next (s.put (if x.fate step p = .waits then s.dev.tellWait m ctx step
      else (s.dev.modXch ctx (fun x => x.keepShadow step p data)).ackMsg m))) ∧
  (∀ (s : State) m group ctx step p x y, m.body = .contribCommit group ctx step p → s.dev.xchOf ctx = some x → x.cfg.group = group →
    x.shadows.find? (fun y => y.1 == (step, p)) = some y → x.fate step p ≠ .waits →
    exec (.CONTRIB_ARRIVE m) s = .next (s.put
      (((s.dev.modXch ctx (fun x => { x with shadows := x.shadows.filter (fun y => y.1 != (step, p)) })).contribArrives
        ctx step p y.2).ackMsg m))) ∧
  (∀ (s : State) m msg, m.body = .contribHold msg → exec (.CONTRIB_ARRIVE m) s = .next (s.put (s.dev.holdSent msg))) ∧
  (∀ (s : State) m msg, m.body = .contribGo msg → exec (.CONTRIB_ARRIVE m) s = .next (s.put (s.dev.sendAgain msg)))

/-- R427, R429 to R432, R436: the visits of a STEP_WAIT and its decision tick. -/
def Obligations.StepWaitCompletes : Prop :=
  (∀ s c e ctx replay step maskVa r x, Ready s c e → e.payload = .stepWait ctx replay step maskVa r → s.dev.xchOf ctx = some x →
    x.part = e.hdr.part → x.step = step → exec (.STEP_WAIT c) s = .next (s.put (s.dev.issueWait c e ctx (replay == 1)))) ∧
  (∀ (s : State) c e ctx replay step maskVa r p x z u y, s.dev.entry c = some e → e.payload = .stepWait ctx replay step maskVa r →
    e.phase = .running p → s.dev.errDue = [] → s.dev.xchOf ctx = some x → x.decision = some z → s.dev.dieFree e = true →
    (List.range x.cfg.shardBlocks).forM (sumBlock x z) (.start s.dev c e) = .ok u y →
    let absent := x.members - z.present.length
    exec (.STEP_WAIT c) s = .next (s.ran c e ⟨if absent = 0 then stOk else stLatePeer, z.present.length, absent, z.held.length⟩
      { y with eff := .train (.stepSummed ctx z.present z.held) :: y.eff })) ∧
  (∀ (s : State) c e ctx step maskVa r p x, s.dev.entry c = some e → e.payload = .stepWait ctx 0 step maskVa r →
    e.phase = .running p → s.dev.xchOf ctx = some x → x.decision = none → x.replay = false →
    let present := (List.range x.members).filter (fun q => x.has x.step q)
    let held := (List.range x.members).filter (fun q => x.held.contains (prevStep x.step, q))
    (present.length = x.members ∨ ∃ i o, x.issueTick = some i ∧ x.ownTick = some o ∧ max i o + x.cfg.window < s.dev.tickAt 14) →
    let d := s.dev.modXch ctx (fun x => { x with lastPresent := present.length })
    exec (.DECISION_TICK c) s = .next (s.put (if present.length < x.cfg.minPresent
      then (d.modXch ctx (fun x => { x with issueTick := none })).refuse c e stPeerLost
      else d.modXch ctx (fun x => { x with decision := some ⟨present, held⟩, issueTick := none })))) ∧
  (∀ (s : State) c e ctx step maskVa r p x b y, s.dev.entry c = some e → e.payload = .stepWait ctx 1 step maskVa r →
    e.phase = .running p → s.dev.xchOf ctx = some x → x.decision = none → x.replay = true →
    readVa accPlain maskVa (ceilDiv x.members 4) (.start s.dev c e) = .ok b y →
    let z := maskFlags x.members b
    (∀ q ∈ z.held, x.has (prevStep x.step) q = true) → (∀ q ∈ z.present, x.has x.step q = true) →
    exec (.DECISION_TICK c) s = .next (s.put ((s.dev.modXch ctx (fun x => { x with lastPresent := z.present.length })).modXch ctx
      (fun x => { x with decision := some z, issueTick := none }))))

/-- R415, R416, R440: the activation copies; `x` holds one block for each page. -/
def Obligations.ActivationCopiesComplete : Prop :=
  (∀ s c e src dst n w r u x, Ready s c e → e.payload = .actOffload src dst n w r →
    (List.range n).forM (actPage true e.hdr.part src dst) (.start s.dev c e) = .ok u x →
    exec (.ACT_OFFLOAD c) s = .next (s.ran c e
      (okCounts n (if w = 0 then (s.dev.part e.hdr.part).spindles.length else w) 0) x)) ∧
  (∀ s c e src dst n w r u x, Ready s c e → e.payload = .actPrefetch src dst n w r →
    (List.range n).forM (actPage false e.hdr.part src dst) (.start s.dev c e) = .ok u x →
    exec (.ACT_PREFETCH c) s = .next (s.ran c e
      (okCounts n (if w = 0 then (s.dev.part e.hdr.part).spindles.length else w) 0) x))

/-- R451 to R454, R457, R481: the commands of the Treadle. -/
def Obligations.TreadleCommandsComplete : Prop :=
  (∀ s c e step pair group maxNorm nDesc table norm r own d' x, ReadyDie s c e →
    e.payload = .trdNorm step pair group maxNorm nDesc table norm r → s.dev.groupKnown e.hdr.part group = true →
    Joins s.dev e group (.norm step) d' → runNormLocal e.hdr.part e.hdr.unit step nDesc table (.start d' c e) = .ok own x →
    exec (.TRD_NORM c) s = .next (s.put ((d'.started c e own.bytes x).advance e.hdr.part group (.norm step)))) ∧
  (∀ (s : State) group step sum flags,
    exec (.NORM_RESULT group step sum flags) s = .next (s.put (s.dev.wholeArrives group (.norm step) (NormVal.mk sum flags).bytes))) ∧
  (∀ s c e p norm l evs x1 x2 x3, ReadyDie s c e → e.payload = .trdUpdate p →
    readNorm e.hdr.part p (.start s.dev c e) = .ok norm x1 →
    (List.range p.nDesc).foldlM (updateRow e.hdr.part e.hdr.unit p norm) [] x1 = .ok l x2 →
    (List.range p.nLayers).mapM (layerRow e.hdr.part p (skipOf norm) l) x2 = .ok evs x3 →
    let ovf := (l.map (·.2.ovf)).sum
    let elems := (l.map (·.2.elems)).sum
    exec (.TRD_UPDATE c) s = .next (s.ran c e (if skipOf norm then ⟨stSkipped, 0, 0, 0⟩ else okCounts elems ovf (countEvents evs))
      { x3 with eff := .train (.update e.hdr.unit e.hdr.part e.order p.step (skipOf norm) (leAt norm 12 2) ovf elems (watchEvents evs)) ::
                  x3.eff })) ∧
  (∀ s c e p part n va r b x v y, ReadyDie s c e → e.payload = .trdVerify p part n va r →
    readIn accPlain part va (8 * n) (.start s.dev c e) = .ok b x →
    verifyGo part e.hdr.unit p ((List.range n).map (fun i => (leAt b (8 * i) 4, leAt b (8 * i + 4) 4))) ⟨0, 0, max32⟩ x = (v, none, y) →
    v.bad = 0 → exec (.TRD_VERIFY c) s = .next (s.ran c e ⟨stOk, v.n, 0, v.first⟩ y))

/-- R476 to R479, R484: the inverse root of a matrix that converges; the scratch bytes are free values. -/
def Obligations.RootCompletes : Prop :=
  ∀ s c e a z workVa n p itMax tol eps r (m : List (List Word)) x (scratch : List (Nat × Nat)) y sc q k g w, Ready s c e →
    e.payload = .root a z workVa n p itMax tol eps r → rootBlocked s.dev e = false →
    ((List.range n).mapM (fun i => do return (← a.readVals accMover i n).map rne32)) (.start s.dev c e) = .ok m x →
    rootScratch workVa (24 * n * n) x = .ok scratch y →
    let m' := mapMat m (fun i j v => if i = j then add32 v eps else v)
    finiteMat m' = true → isFinite32 (treeSum (m'.flatten.map (fun v => mul32 v v))) = true →
    rootScale p (treeSum (m'.flatten.map (fun v => mul32 v v))) = some sc →
    rootIter n p tol itMax 0 ((List.range n).map (fun i => (List.range n).map (fun j => if i = j then ldexp32 one32 (-(sc / (p : Int))) else 0)))
      (mapMat m' (fun _ _ v => ldexp32 v (-sc))) = some (q, k, g) →
    ((withIdx 0 q).forM (fun row => z.writeVals accMover row.2 (row.1.map v32)))
      { y with eff := (scratch.map (fun t => Effect.mem t.1 (scratchBytes s.dev.free t.1 t.2))).reverse ++ y.eff } = .ok ⟨⟩ w →
    let d := s.dev.ranOk c e (okCounts k g.toNat (sc % 2 ^ 32).toNat) w
    exec (.ROOT c) s = .next (s.withDev { d with free := d.free + 1 })

/-- R498 to R508, R519 to R523: the commands of the snapshot engine, where their conditions hold. That a buddy answers CONFIG with the
size of its store is the model's choice (log entry 97). -/
def Obligations.SnapshotCommandsComplete : Prop :=
  (∀ s c e i source srcPart hostPart slotBytes a b r x, Ready s c e →
    e.payload = .snapStore i source srcPart hostPart slotBytes a b r →
    let d := s.dev.claimed
    let host := if hostPart = 0xFF then (s.dev.queue e.hdr.queue).part else hostPart
    let n := 2 * (slotBytes / pageBytes) + a + b
    host < 14 → (d.part host).state ≠ .free → d.store i = none →
    storePages (d.seenBy e) (d.part host) n ⟨[], [], [], [], []⟩ = some x →
    exec (.STORE c) s = .next (s.ran c e (okCounts n 0 0) (.made d c e
      (.train (.store i ⟨source, srcPart, host, slotBytes, a, b, x.ddr⟩) :: (x.ddr.map (fun k => Effect.pageUse .ddr k (.store i))).reverse)))) ∧
  (∀ s c e (x : SnapConfig), Ready s c e → e.payload = .snapConfig x → x.buddy0 ≠ x.buddy1 → x.buddy0 ≠ s.dev.links.devNum →
    x.buddy1 ≠ s.dev.links.devNum → s.dev.routeOk x.buddy0 = true → s.dev.routeOk x.buddy1 = true →
    exec (.SNAPSHOT_CONFIG ⟨c, none⟩) s = .next (s.put (((s.dev.asking c).sendMsg (some c) x.buddy0 (.storeRead x.store0)).sendMsg (some c)
      x.buddy1 (.storeRead x.store1)))) ∧
  (∀ s c e m d' (x : SnapConfig) k n, Answered s c e m [] d' → e.payload = .snapConfig x → m.body = .storeData k n →
    exec (.SNAPSHOT_CONFIG ⟨c, (some m)⟩) s = .next (s.put (d'.modEntry c (fun e =>
      { e with phase := .running (.coll true (leBytes 8 n) (Result.failed stOk 0 e.ce)) })))) ∧
  (∀ s c e m own d' (x : SnapConfig) k n ms pos b y, Answered s c e m own d' → own ≠ [] → e.payload = .snapConfig x →
    m.body = .storeData k n → d'.claimed.takeRuns e.hdr.part c = false → d'.claimed.groupOf e.hdr.part x.group = some (ms, pos) →
    readIn accPlain e.hdr.part x.tableVa (32 * x.nRegions) (.start d'.claimed c e) = .ok b y →
    let rs := (List.range x.nRegions).map (parseRegion b)
    let g := totalGranules rs
    (∀ r ∈ rs, d'.claimed.regionOk e.hdr.part r = true) → granuleBytes * (g + 1) ≤ n → granuleBytes * (g + 1) ≤ leAt own 0 8 →
    exec (.SNAPSHOT_CONFIG ⟨c, (some m)⟩) s = .next ((s.withDev d').ran c e (okCounts g x.nRegions 0)
      { y with eff := .train (.snapConfig e.hdr.part ⟨x, pos, b, rs, [], [], none, none⟩) :: y.eff })) ∧
  (∀ s c e n r set msgs y, Ready s c e → e.payload = .snapTake n r → s.dev.takeRuns e.hdr.part c = false →
    (s.dev.trainOf e.hdr.part).snap = some set → n = set.untake.nextGen → (s.dev.trainOf e.hdr.part).marked = true →
    s.dev.routeOk (set.untake.buddyOf (n % 4)).1 = true →
    let step := (s.dev.trainOf e.hdr.part).step
    let d := s.dev.modSnap e.hdr.part SnapSet.untake
    let gs := set.untake.dirtyFor (n % 4)
    gs.mapM (takeGranule e.hdr.part n step s.dev.epochOf set.untake) (.start d c e) = .ok msgs y →
    let k := okCounts gs.length (n % 2 ^ 32) step
    let y' := { y with eff := .train (.snapTaken e.hdr.part n step gs.length) :: y.eff }
    exec (.TAKE c) s = .next (s.put
      ((if msgs = [] then d.ranOk c e k y' else msgs.foldl (fun d m => d.sendMsg (some c) m.1 m.2) (d.sending c e k y')).modSnap
        e.hdr.part (fun s => s.clearBits (n % 4) gs)))) ∧
  (∀ s c e store buddy position gen job epoch cursor r, Ready s c e →
    e.payload = .restoreState store buddy position gen job epoch cursor r → s.dev.routeOk buddy = true →
    exec (.RESTORE_STATE c none) s = .next (s.put ((s.dev.asking c).sendMsg (some c) buddy (.snapRead store (gen % 4))))) ∧
  (∀ s c e m own d' store buddy position gen job epoch cursor r k slot set u x, Answered s c e m own d' →
    e.payload = .restoreState store buddy position gen job epoch cursor r → m.body = .snapData k slot →
    (d'.trainOf e.hdr.part).snap = some set →
    let n := totalGranules set.regions
    let b := slot.take 256
    granuleBytes * (n + 1) ≤ slot.length → manifestStatus (some set) position gen job epoch cursor b = stOk →
    (List.range n).forM (restoreGranule e.hdr.part set.regions (leAt b 24 4) (leAt b 62 2) slot) (.start d' c e) = .ok u x →
    exec (.RESTORE_STATE c (some m)) s = .next ((s.withDev d').ran c e (okCounts n (leAt b 24 4) (gen % 2 ^ 32))
      { x with eff := .train (.restored e.hdr.part (leAt b 24 4) gen (leAt b 62 2) (leAt b 40 8) (leAt b 48 8) (slice b 80 32)) ::
                  x.eff })) ∧
  (∀ s c e store buddy p1 p2 r, Ready s c e → e.payload = .restoreLog store buddy p1 p2 r → s.dev.routeOk buddy = true →
    exec (.RESTORE_LOG c none) s = .next (s.put ((s.dev.asking c).sendMsg (some c) buddy (.logRead store)))) ∧
  (∀ s c e m own d' p1 p2 p3 p4 r l k a b na nb x y, Answered s c e m own d' → e.payload = .restoreLog p1 p2 p3 p4 r →
    m.body = .logData k a b → (d'.trainOf e.hdr.part).log = some l →
    restoreShare e.hdr.part l 0 (mirrorEntries a) (.start d' c e) = .ok na x → restoreShare e.hdr.part l 1 (mirrorEntries b) x = .ok nb y →
    let es := mirrorEntries a ++ mirrorEntries b
    exec (.RESTORE_LOG c (some m)) s = .next ((s.withDev d').ran c e (okCounts es.length (rootDecisions es).length 0)
      { y with eff := .train (.logRestored e.hdr.part na nb (rootDecisions es)) :: y.eff }))

/-- R490, R494, R495, R499, R508, R509, R518, R526: the log, recovery, and the service of a buddy. A refusal of bytes that hold an
uncorrectable error is the model's reading (log entry 171). -/
def Obligations.LogAndRecoveryComplete : Prop :=
  (∀ s c e a b pa pb r, Ready s c e → e.payload = .logConfig a b pa pb r →
    let d := s.dev.claimed
    (d.trainOf e.hdr.part).log = none → d.ringOk e.hdr.part 0 a pa = true → d.ringOk e.hdr.part 1 b pb = true →
    exec (.LOG_MARK_CONFIG c) s = .next (s.ran c e (okCounts (ringEntries pa) (ringEntries pb) 0)
      (.made d c e [.train (.logConfig e.hdr.part ⟨a, b, pa, pb, 0, 0, false, [], none⟩)]))) ∧
  (∀ s c e step cursor digest r l, Ready s c e → e.payload = .logMark step cursor digest r → (s.dev.trainOf e.hdr.part).log = some l →
    exec (.MARK c) s = .next (s.ran c e (okCounts 0 0 0) (.made s.dev c e [.train (.mark e.hdr.part step cursor digest)]))) ∧
  (∀ s c e p pos gen r, Ready s c e → e.payload = .spareBegin p pos gen r → s.dev.claimed.train.recovery = none →
    exec (.BEGIN c) s = .next (s.ran c e (okCounts pos (gen % 2 ^ 32) 0)
      (.made s.dev.claimed c e [.train (.recoveryOpen ⟨p, pos, gen, false, false, none⟩)]))) ∧
  (∀ s c e p pos r x, Ready s c e → e.payload = .spareEnd p pos r →
    let d := s.dev.claimed
    d.train.recovery = some x → x.part = p → x.position = pos → x.stateDone = true → x.logDone = true → d.teacherOk x = true →
    exec (.END c) s = .next (s.ran c e (okCounts pos (x.gen % 2 ^ 32) 0) (.made d c e [.train .recoveryClosed]))) ∧
  (∀ s c e p pos r, Ready s c e → e.payload = .spareAbandon p pos r →
    exec (.ABANDON c) s = .next (s.ran c e (okCounts pos ((s.dev.claimed.train.recovery.map (·.gen)).getD 0 % 2 ^ 32) 0)
      (.made s.dev.claimed c e [.train .recoveryClosed]))) ∧
  (∀ (s : State) m i share lsn data st, m.body = .logEntry i share lsn data → s.dev.store i = some st → st.source = m.src → share ≤ 1 →
    0 < st.mirrorPages share → data.length = 64 →
    exec (.LOG_MIRROR_RECEIVE m) s = .next (s.put ((s.dev.pokeStore st
      (st.mirrorOff share + 64 * (lsn % ringEntries (st.mirrorPages share))) data).answer m.src (.logAck st.srcPart share lsn)))) ∧
  (∀ (s : State) (m : Message) i st slot off data, m.body = .snapWrite i slot off data → s.dev.store i = some st → st.source = m.src → slot < 4 →
    off + data.length ≤ st.slotBytes →
    let at_ := slot / 2 * st.slotBytes + off
    exec (.SERVING_A_BUDDY m.id m.src m.body) s = .next (s.put (((s.dev.servesOn st at_ data.length).pokeStore st at_ data).ackMsg m))) ∧
  (∀ (s : State) (m : Message) i st slot off data, s.dev.errDue = [] → m.body = .snapWrite i slot off data → s.dev.store i = some st →
    st.source ≠ m.src → exec (.SERVING_A_BUDDY m.id m.src m.body) s = .next s) ∧
  (∀ (s : State) (m : Message) i st slot, m.body = .snapRead i slot → s.dev.store i = some st → slot < 4 →
    exec (.SERVING_A_BUDDY m.id m.src m.body) s = .next (s.put (s.dev.serveRead m st (slot / 2 * st.slotBytes) st.slotBytes (.snapData m.id)))) ∧
  (∀ (s : State) (m : Message) i st, m.body = .logRead i → s.dev.store i = some st →
    exec (.SERVING_A_BUDDY m.id m.src m.body) s = .next (s.put (s.dev.serveRead m st (st.mirrorOff 0) ((st.logA + st.logB) * pageBytes)
      (fun b => .logData m.id (b.take (st.logA * pageBytes)) (b.drop (st.logA * pageBytes)))))) ∧
  (∀ (s : State) (m : Message) i st, m.body = .storeRead i → s.dev.store i = some st →
    exec (.SERVING_A_BUDDY m.id m.src m.body) s = .next (s.put (s.dev.answer m.src (.storeData m.id st.slotBytes)))) ∧
  (∀ (s : State) p share lsn, (∀ x ∈ s.dev.live, s.dev.voteOf x.2.ref = none) →
    exec (.LOG_ENTRY_SECURED p share lsn) s = .next (s.put (s.dev.modTrain p (fun t => { t with log := t.log.map (fun l =>
      { l with unsecured := l.unsecured.filter (fun u => !(u.share == share && u.lsn == lsn)) }) }))))

/-- R510 to R515: the step commit. -/
def Obligations.StepCommitCompletes : Prop :=
  (∀ s c e attempt dieMask step group window r ms pos, Ready s c e → e.payload = .stepVote attempt dieMask step group window r →
    s.dev.groupOf e.hdr.part group = some (ms, pos) → step = nextStep (s.dev.trainOf e.hdr.part).step →
    (pos = 0 ∨ s.dev.routeOk (memberAt ms (treeParent pos)) = true) →
    (tget [] s.dev.train.table (groupSlot e.hdr.part group)).find? (fun x => x.standsFor step attempt) = none →
    let code := s.dev.voteFor e.hdr.part dieMask step
    let n : Nat × Nat := (((s.dev.trainOf e.hdr.part).log.map (fun l => (l.nextA, l.nextB))).getD (0, 0))
    let secured : Bool := ((s.dev.trainOf e.hdr.part).log.map (fun l => l.securedBelow n.1 n.2)).getD true
    let stage := if secured = true ∨ code = 2 then 1 else 0
    exec (.VOTE c) s = .next (s.put ((s.dev.modEntry c (fun e => { e with
      issued := true
      phase := .running (.coll (stage == 0) (VoteWait.bytes ⟨code, attempt, stage, s.dev.tickAt 16, n.1, n.2, false⟩)
        (Result.failed stOk 0 e.ce)) })).advance e.hdr.part group (.vote step attempt)))) ∧
  (∀ (s : State) c e v, s.dev.voteOf c = some (e, v) → v.ready = true → v.stage = 1 → v.code = 2 →
    exec (.COMMIT_DECIDE c) s = .next (s.put (s.dev.rootDecides e v 2 false))) ∧
  (∀ (s : State) c e v attempt dieMask step group window r, s.dev.voteOf c = some (e, v) → v.ready = true → v.stage = 1 → v.code ≠ 2 →
    e.payload = .stepVote attempt dieMask step group window r →
    let d := s.dev.logAdd e.hdr.part 0 step 0x07 (decisionBody group v.attempt v.code true)
    exec (.COMMIT_DECIDE c) s = .next (s.put (d.setVote c true { v with
      stage := if (s.dev.trainOf e.hdr.part).room 0 then 2 else 3, tick := d.tickAt 16
      lsnA := ((s.dev.trainOf e.hdr.part).log.map (·.nextA)).getD 0 }))) ∧
  (∀ (s : State) c e v attempt dieMask step group window r ms, s.dev.voteOf c = some (e, v) →
    e.payload = .stepVote attempt dieMask step group window r → s.dev.groupOf e.hdr.part group = some (ms, 0) → v.stage ≤ 1 →
    v.ready = false → v.tick + window < s.dev.tickAt 16 →
    exec (.COMMIT_WINDOW_EXPIRE c) s = .next (s.put (s.dev.rootDecides e v 2 false))) ∧
  (∀ (s : State) c e v attempt dieMask step group window r, s.dev.voteOf c = some (e, v) →
    e.payload = .stepVote attempt dieMask step group window r → v.tick + window < s.dev.tickAt 16 →
    (v.stage = 0 → exec (.UNSECURED_ENTRY_TIMEOUT c) s = .next (s.put
      ((s.dev.setVote c false { v with code := 2, stage := 1 }).advance e.hdr.part group (.vote step v.attempt)))) ∧
    (2 ≤ v.stage → exec (.UNSECURED_ENTRY_TIMEOUT c) s = .next (s.put (s.dev.rootDecides e v 2 false)))) ∧
  (∀ (s : State) e attempt dieMask step group window r ms pos code q before after, s.dev.live = before ++ (q, e) :: after →
    (∀ x ∈ before ++ after, x.2.coll = none) → e.payload = .stepVote attempt dieMask step group window r → e.coll.isSome = true →
    s.dev.groupOf e.hdr.part group = some (ms, pos) → pos ≠ 0 → code ≤ 2 →
    exec (.DECISION_ARRIVE group step attempt code) s = .next (s.put
      ((s.dev.sendDecision e code attempt).endVote e code attempt ms.length true))) ∧
  (∀ s c e p step group p2 r ms, Ready s c e → e.payload = .stepQuery p step group p2 r →
    s.dev.groupOf e.hdr.part group = some (ms, 0) →
    exec (.QUERY c) s = .next (s.put (s.dev.answerQuery e step group
      (s.dev.tableSays (groupSlot e.hdr.part group) step).1 (s.dev.tableSays (groupSlot e.hdr.part group) step).2))) ∧
  (∀ s c e p step group p2 r ms pos, Ready s c e → e.payload = .stepQuery p step group p2 r →
    s.dev.groupOf e.hdr.part group = some (ms, pos) → pos ≠ 0 → s.dev.routeOk (memberAt ms 0) = true →
    exec (.QUERY c) s = .next (s.put ((s.dev.asking c).sendMsg (some c) (memberAt ms 0) (.query group step)))) ∧
  (∀ (s : State) src group step g, tfind s.dev.links.groups group = some g → g.pos = 0 → (∃ m ∈ g.members, m.device = src) →
    exec (.COMMIT_TABLE_QUERY src group step) s = .next (s.put (s.dev.answer src
      (.queryAnswer group step (s.dev.tableSays group step).1 (s.dev.tableSays group step).2))))

/-- R578, R581 to R586, R589 to R593: the link commands, where their conditions hold. -/
def Obligations.LinkCommandsComplete : Prop :=
  (∀ s c e runs r, Ready s c e → e.payload = .routeSet runs r →
    exec (.ROUTE_SET c) s = .next (s.ran c e (okCounts (runs.map (·.2.1)).sum (s.dev.claimed.routeChanges runs).length 0)
      (.made s.dev.claimed c e [.link (.routes runs)]))) ∧
  (∀ s c e g n va r b x, Ready s c e → e.payload = .groupDeclare g n va r →
    let d := s.dev.claimed
    readIn accPlain e.hdr.part va (8 * n) (.start d c e) = .ok b x →
    let ms := (List.range n).map (parseMember b)
    let devs := ms.map (·.1.device)
    (∀ m ∈ ms, m.2 = true ∧ m.1.part < 14 ∧ m.1.device < 16384) → nodupNat devs = devs → d.links.devNum ∈ devs →
    (match tfind d.links.groups g with
      | none => d.links.groups.length < 256
      | some old => old.part = e.hdr.part ∧ d.groupInUse c g = false) →
    let pos := (devs.findIdx? (· == d.links.devNum)).getD 0
    exec (.GROUP_DECLARE c) s = .next (s.ran c e (okCounts n (groupDigest g b) pos)
      { x with eff := .link (.group g ⟨e.hdr.part, ms.map (·.1), pos, groupDigest g b⟩) :: x.eff })) ∧
  (∀ s c e g r old, Ready s c e → e.payload = .groupRemove g r →
    let d := s.dev.claimed
    tfind d.links.groups g = some old → old.part = e.hdr.part → d.groupInUse c g = false →
    exec (.GROUP_REMOVE c) s = .next (s.ran c e (okCounts old.members.length old.digest old.pos)
      (.made d c e [.link (.groupGone g)]))) ∧
  (∀ s c e g p n va src r ms pos m data x, Ready s c e → e.payload = .linkWrite g p n va src r →
    s.dev.groupOf e.hdr.part g = some (ms, pos) → ms[p]? = some m → s.dev.routeOk m.device = true →
    readVa accMover src.va n (.start s.dev c e) = .ok data x →
    exec (.LINK_WRITE c) s = .next (s.put ((s.dev.sending c e (okCounts n (s.dev.hopsTo m.device) 0) x).sendMsg (some c) m.device
      (.linkData g m.part va s.dev.links.nextMsg data)))) ∧
  (∀ s c e g p tok val r ms pos m, Ready s c e → e.payload = .linkSignal g p tok val r →
    s.dev.groupOf e.hdr.part g = some (ms, pos) → ms[p]? = some m → s.dev.routeOk m.device = true →
    exec (.LINK_SIGNAL c) s = .next (s.put ((s.dev.sending c e (okCounts (s.dev.hopsTo m.device) 0 0) (.start s.dev c e)).sendMsg
      (some c) m.device (.signal g m.part tok val)))) ∧
  (∀ s c e g op w n tag outFmt inVa inStride inFmt outVa r ms pos own d' x, Ready s c e →
    e.payload = .chainReduce g op w n tag outFmt inVa inStride inFmt outVa r → s.dev.groupOf e.hdr.part g = some (ms, pos) →
    Joins s.dev e g (.chain tag) d' →
    chainLocal op w n outFmt inVa inStride inFmt (((ms[pos]?).map (·.idxOffset)).getD 0) (.start d' c e) = .ok own x →
    exec (.CHAIN_REDUCE c) s = .next (s.put ((d'.started c e own x).advance e.hdr.part g (.chain tag))))

/-- R560, R570, R579, R581, R584 to R593, R599: what a message does at its destination, on its way, and to its sender. -/
def Obligations.MessagesComplete : Prop :=
  (∀ (s : State) m g digest key pos data, m.body = .groupVal g digest key pos true data → (∀ step attempt, key ≠ .vote step attempt) →
    exec (.GROUP_MESSAGE_ARRIVE m) s = .next (s.put (if s.dev.digestOf g = some digest
      then ((s.dev.ackMsg m).storeVal ⟨g, key, pos, true, data⟩).advance ((s.dev.ackMsg m).groupPart g) g key
      else s.dev.answer m.src (.groupNotice m.id)))) ∧
  (∀ (s : State) m g p va xfer data l, m.body = .linkData g p va xfer data →
    (s.dev.groupLists g m.src p = true → s.dev.linkPieces p va data = .ok l →
      exec (.LINK_WRITE_DATA_ARRIVE m) s = .next (s.put (({ s.dev with links := { s.dev.links with
        shadow := s.dev.links.shadow ++ [⟨m.src, xfer, p, va, data⟩] } } : Dev).ackMsg m))) ∧
    (s.dev.groupLists g m.src p = false →
      exec (.LINK_WRITE_DATA_ARRIVE m) s = .next (s.put (s.dev.answer m.src (.refused m.id stXlateFault))))) ∧
  (∀ (s : State) m g p xfer l, m.body = .commitMsg g p xfer →
    s.dev.landing (s.dev.links.shadow.filter (fun x => x.src == m.src && x.xfer == xfer)) = .ok l →
    let d := l.foldl (fun (d : Dev) x => d.poke false x.1 x.2) (s.dev.keepOld none (l.map (fun x => (x.1, x.2.length))))
    exec (.COMMIT_MESSAGE_ARRIVE m) s = .next (s.put ((d.modLinks (fun l =>
      { l with shadow := l.shadow.filter (fun x => !(x.src == m.src && x.xfer == xfer)) })).ackMsg m))) ∧
  (∀ (s : State) m g p tok val, m.body = .signal g p tok val →
    (s.dev.groupLists g m.src p = true → exec (.COMMIT_MESSAGE_ARRIVE m) s = .next (s.put ((s.dev.signal p tok val).ackMsg m))) ∧
    (s.dev.groupLists g m.src p = false →
      exec (.COMMIT_MESSAGE_ARRIVE m) s = .next (s.put (s.dev.answer m.src (.refused m.id stXlateFault))))) ∧
  (∀ (s : State) id x c e sent own res g p va xfer data, s.dev.sentMsg id = some x → x.cmd = some c → (s.dev.settled id).entry c = some e →
    e.phase = .running (.coll sent own res) → x.msg.body = .linkData g p va xfer data →
    exec (.END_TO_END_ACK id) s = .next (s.put ((s.dev.settled id).sendMsg (some c) x.msg.dst (.commitMsg g p xfer)))) ∧
  (∀ (s : State) id x c e, s.dev.sentMsg id = some x → x.cmd = some c → (s.dev.settled id).entry c = some e → e.inFlight = true →
    isHostBound x.msg.body = false → (∀ p m r, e.payload ≠ .reclaim p m r) →
    (∀ g d step a pos up v, x.msg.body ≠ .groupVal g d (.vote step a) pos up v) →
    exec (.UNREACHABLE id) s = .next (s.put ((s.dev.settled id).failEntry e.ref e ⟨stLinkDown, none, none⟩ e.runCycles)) ∧
    (x.held = false → x.tick + 10000 < s.dev.clk.tick → exec (.MESSAGE_LOST_TIMEOUT id) s = .next (s.put
      ((s.dev.settled id).failEntry e.ref e ⟨lostStatus x.msg.body, none, none⟩ e.runCycles)))) ∧
  (∀ (s : State) dst ids, tfind s.dev.links.holds dst = some ids → (∀ x ∈ s.dev.links.sent, x.msg.id ∉ ids) →
    exec (.ROUTE_HOLD_RELEASE dst) s = .next (s.put ((s.dev.links.heldMsgs.filter (fun m => m.msg.dst == dst)).foldl Dev.letHeldGo
      { s.dev with links := { s.dev.links with
          holds := terase s.dev.links.holds dst, heldMsgs := s.dev.links.heldMsgs.filter (fun m => m.msg.dst != dst) } }))) ∧
  (∀ (s : State) port cls m, m.dst ≠ s.dev.links.devNum →
    let d := s.dev.modPort port (fun p => { p with
      held := tmod 0 p.held (bufOf m.vc cls) (· - flitsOf m.body)
      owed := tmod 0 p.owed (bufOf m.vc cls) (· + min (flitsOf m.body) (tget 0 p.held (bufOf m.vc cls))) })
    exec (.MESSAGE_FORWARD port cls m) s = .next (s.put
      (if d.routeOk m.dst = true then d.leave m cls else (d.countDrop m.dst).answer m.src (.unreachable m.id)))) ∧
  (∀ (s : State) port cls m iova data, m.dst = s.dev.links.devNum → m.body = .hostWrite iova data → s.dev.links.bridge = true →
    s.dev.links.hostUp = true →
    exec (.MESSAGE_FORWARD port cls m) s = .next (s.put (({ s.dev with
      mem := { s.dev.mem with host := putBytes s.dev.mem.host iova data }
      links := { s.dev.links with hostReqs := s.dev.links.hostReqs ++
        [(if s.dev.links.pasidEn = true then some (m.src % 8) else none, iova, data.length)] } } : Dev).ackMsg m))) ∧
  (∀ (s : State) id p x, s.dev.parts.p.filter (fun kv => kv.2.span && kv.2.spanId == id) = [(p, x)] →
    exec (.SPAN_RESET id) s = .next (s.put (s.dev.teardown p)))

/-- R571 to R576: what the ports do. -/
def Obligations.PortsComplete : Prop :=
  (∀ (s : State) j (f : FlitIn), s.dev.errDue = [] → (s.dev.port j).carries = true → f.crcOk = false →
    exec (.FLIT_RECEIVE j f) s = .next (s.withDev (s.dev.modPort j (fun p => { p with rxReplay := true })))) ∧
  (∀ (s : State) j (f : FlitIn), s.dev.errDue = [] → (s.dev.port j).carries = true → f.crcOk = true → f.idle = false →
    f.num ≠ (s.dev.port j).rxNext → exec (.FLIT_RECEIVE j f) s = .next (s.withDev (s.dev.modPort j (fun p => p)))) ∧
  (∀ (s : State) j (f : FlitIn), s.dev.errDue = [] → (s.dev.port j).carries = true → f.crcOk = true → f.idle = false →
    f.num = (s.dev.port j).rxNext → f.transit = false →
    exec (.FLIT_RECEIVE j f) s = .next (s.withDev (s.dev.modPort j (fun p => ({ p with
      replay := p.replay.filter (fun r => decide (f.ackTo < r.num)), used := tmod 0 p.used (bufOf f.creditVc f.creditCls) (· - f.credits)
      rxNext := p.rxNext + 1, rxReplay := false, owed := tmod 0 p.owed (bufOf f.vc f.cls) (· + 1) } : Port).drain)))) ∧
  (∀ (s : State) j n, s.dev.errDue = [] → (s.dev.port j).carries = true →
    exec (.REPLAY_REQUEST j n) s = .next (s.withDev (s.dev.modPort j (fun p => { p with
      replay := p.replay.map (fun r => if n ≤ r.num then { r with replays := r.replays + 1 } else r)
      retry := (p.retry + (p.replay.filter (fun r => decide (n ≤ r.num))).length) % 2 ^ 64 })))) ∧
  (∀ (s : State) j cause, s.dev.errDue = [] → (s.dev.port j).state = .up → cause ≠ .thirdReplay →
    recentRetrains s.dev.clk.tick (s.dev.port j).retrains = [] →
    exec (.RETRAIN j cause none) s = .next (s.withDev (s.dev.modPort j (fun p => { p with
      retrains := [s.dev.clk.tick], since := s.dev.clk.tick, state := .retrain
      replay := p.replay.map (fun r => { r with replays := 0 }) })))) ∧
  (∀ (s : State) j, s.dev.errDue = [] → (s.dev.port j).state = .retrain →
    exec (.RETRAIN_DONE j) s = .next (s.withDev (s.dev.modPort j (fun p => ({ p with state := .up } : Port).drain)))) ∧
  (∀ (s : State) j, (s.dev.port j).state = .retrain → (s.dev.port j).since + 10000 < s.dev.clk.tick →
    exec (.RETRAIN_TIMEOUT j) s = .next (s.put (s.dev.portDown j true))) ∧
  (∀ (s : State) j, s.dev.errDue = [] → (s.dev.port j).state = .training →
    exec (.FULL_TRAINING_DONE j []) s = .next (s.withDev (s.dev.modPort j (fun p =>
      { p with state := .up, spareUsed := false, badLane := 0xF }))) ∧
    (∀ l, exec (.FULL_TRAINING_DONE j [l]) s = .next (s.withDev (s.dev.modPort j (fun p =>
      { p with state := .up, spareUsed := true, badLane := l })))) ∧
    (∀ a b l, exec (.FULL_TRAINING_DONE j (a :: b :: l)) s = .next (s.put (s.dev.portDown j false))))

/-- R594 to R601, R613, R632, R660: the host's side; the data of a forwarded read are a free value. -/
def Obligations.HostPathComplete : Prop :=
  (∀ (s : State) speed width, s.dev.lamp.stage = 8 → (s.dev.links.bridge = true → s.dev.lamp.perst.holds = false) →
    s.dev.bridgeRoute = true →
    let l := { s.dev.links with
      l0 := s.dev.links.bridge, bme := s.dev.links.bridge, speed := if s.dev.links.bridge = true then speed else 0
      width := if s.dev.links.bridge = true then width else 0, hostUp := true }
    exec (.HOST_PATH_UP speed width) s = .next (s.put { s.dev with links := l }.hostResend) ∧
    ∀ ws : List (Nat × List Byte), s.dev.errDue = [] → s.dev.links.bridge = true →
      s.dev.links.hostHeld = ws.map (fun w => .hostWrite w.1 w.2) →
      exec (.HOST_PATH_UP speed width) s = .next (s.withDev { s.dev with
        links := { l with hostHeld := [] }, mem := { s.dev.mem with host := ws.foldl (fun m w => putBytes m w.1 w.2) s.dev.mem.host } })) ∧
  (∀ (s : State) cause, s.dev.errDue = [] →
    exec (.HOST_PATH_DOWN cause) s = .next (s.withDev { s.dev with links := { s.dev.links with
      hostUp := false, l0 := s.dev.links.l0 && decide (cause ≠ .linkLeft), bme := s.dev.links.bme && decide (cause ≠ .busMasterOff) } })) ∧
  (∀ (s : State) v, s.dev.errDue = [] → v ∈ s.dev.links.msixAgain → v ∉ s.dev.links.msixSent → s.dev.links.hostUp = true →
    tget true s.dev.links.msixMask v = false →
    exec (.MSIX_COALESCED_SEND v) s = .next (s.withDev { s.dev with links := { s.dev.links with
      msixAgain := s.dev.links.msixAgain.filter (· != v), msixSent := s.dev.links.msixSent ++ [v] } })) ∧
  (∀ (s : State) v,
    let d := { s.dev with links := { s.dev.links with
      msixMask := tput true s.dev.links.msixMask v false, msixPend := s.dev.links.msixPend.filter (· != v) } }
    exec (.MSIX_VECTOR_UNMASK v) s = .next (s.put (if v ∈ s.dev.links.msixPend then d.hostBound (.hostNotify v) else d))) ∧
  (∀ (s : State) ns, s.dev.errDue = [] → s.dev.lamp.on = true → filterNs ≤ ns →
    exec (.HOST_PERST_N true ns) s = .next (s.withDev (s.dev.modInput 1 (fun r =>
      { r with level := true, stuckLow := false, seen := false, ignored := r.ignored && decide (ns < stuckNs) })))) ∧
  (∀ (s : State) ns, s.dev.lamp.on = true → filterNs ≤ ns → s.dev.beforeStage1 = false →
    let d := if s.dev.lamp.perst.seen = true then s.dev else s.dev.perstFalls
    exec (.HOST_PERST_N false ns) s = .next (s.put (if stuckNs < ns then d.inputSticks 1 else d))) ∧
  (∀ (s : State) q off n, s.dev.lamp.cdUp = true → q < 256 → s.dev.hitsUe q (sectorPieces off n) = none →
    exec (.QUEUE_WINDOW_ACCESS q off n none) s = .next (s.put ((s.dev.correctAll
      (((sectorPieces off n).filterMap (fun p => s.dev.windowAddr q p.1)).map (· / 64))).setRead
        ((sectorPieces off n).flatMap (fun p => match s.dev.windowAddr q p.1 with
          | some a => getBytes s.dev.mem.bytes a p.2
          | none => zeros p.2)) false))) ∧
  (∀ (s : State) q off n data, s.dev.lamp.cdUp = true → q < 256 →
    s.dev.hitsUe q ((sectorPieces off data.length).filter (fun p => decide (p.2 < 64))) = none →
    exec (.QUEUE_WINDOW_ACCESS q off n (some data)) s = .next (s.put ((sectorPieces off data.length).foldl
      (fun (d : Dev) p => match d.windowAddr q p.1 with
        | some a => d.poke false a (slice data (p.1 - off) p.2)
        | none => d) s.dev))) ∧
  (∀ (s : State) o n, s.dev.links.bridge = true → s.dev.lamp.cdUp = true → o < 0x2000000 →
    exec (.GROUP_WINDOW_ACCESS 0 o ⟨n, none⟩) s = .next (s.put (if n = 8 then s.dev.readPair o else s.dev.readFor .host o)) ∧
    (∀ b, exec (.GROUP_WINDOW_ACCESS 0 o ⟨n, (some b)⟩) s = .next (s.put
      ((wordOffs n).foldl (fun (d : Dev) i => d.writeReg .host (o + i) (leAt b i 4)) s.dev)))) ∧
  (∀ (s : State) slot o n w, s.dev.links.bridge = true → s.dev.lamp.cdUp = true → 0 < slot → slot < 8 → o < 0x200000000 →
    exec (.GROUP_WINDOW_ACCESS slot o ⟨n, w⟩) s = .next (s.put (if s.dev.pathOpen slot = true then s.dev.forwardAccess slot o n w
      else
        let d := s.dev.modLinks (fun l => { l with hostDiscard := (l.hostDiscard + 1) % 2 ^ 64 })
        if w.isNone = true then d.setRead (zeros n) false else d)))

/-- R249: a doorbell of an existing or absent queue; its count saturates at the width of its register. -/
def Obligations.SubmissionDoorbellRule : Prop :=
  (∀ (s : State) (hi lo : Word), s.dev.errDue = [] → hi.toNat / 256 % 256 ≠ 0 → exec (.SUBMISSION_DOORBELL hi lo) s = .next s) ∧
  ∀ (s : State) (hi lo : Word), s.dev.errDue = [] → hi.toNat / 256 % 256 = 0 →
    let q := hi.toNat % 256
    let v := lo.toNat
    let k := s.dev.queue q
    let d := (v + (2 ^ 32 - k.tail % 2 ^ 32)) % 2 ^ 32
    ((k.state = .disabled ∨ d = 0 ∨ 2 ^ 31 ≤ d) → exec (.SUBMISSION_DOORBELL hi lo) s = .next (s.withDev (s.dev.setQueue q
      { k with dbIgnored := min 0xFFFFFFFF (k.dbIgnored + 1) }))) ∧
    (¬(k.state = .disabled ∨ d = 0 ∨ 2 ^ 31 ≤ d) → 2 ^ k.sqLog2 < (v + (2 ^ 32 - k.head % 2 ^ 32)) % 2 ^ 32 →
      exec (.SUBMISSION_DOORBELL hi lo) s = .next (s.withDev (s.dev.setQueue q
        { k with dbIgnored := min 0xFFFFFFFF (k.dbIgnored + 1), overrun := true }))) ∧
    (¬(k.state = .disabled ∨ d = 0 ∨ 2 ^ 31 ≤ d) → (v + (2 ^ 32 - k.head % 2 ^ 32)) % 2 ^ 32 ≤ 2 ^ k.sqLog2 →
      exec (.SUBMISSION_DOORBELL hi lo) s = .next (s.withDev (s.dev.setQueue q { k with tail := v })))

/-- R250. -/
def Obligations.CompletionDoorbellRule : Prop :=
  (∀ (s : State) (hi lo : Word), s.dev.errDue = [] → hi.toNat / 256 % 256 ≠ 1 → exec (.COMPLETION_DOORBELL hi lo) s = .next s) ∧
  ∀ (s : State) (hi lo : Word), s.dev.errDue = [] → hi.toNat / 256 % 256 = 1 →
    let q := hi.toNat % 256
    let v := lo.toNat
    let k := s.dev.queue q
    let d := (v + (2 ^ 32 - k.cqHead % 2 ^ 32)) % 2 ^ 32
    let past := (v + (2 ^ 32 - k.written % 2 ^ 32)) % 2 ^ 32
    ((k.state = .disabled ∨ d = 0 ∨ 2 ^ 31 ≤ d) → exec (.COMPLETION_DOORBELL hi lo) s = .next (s.withDev (s.dev.setQueue q
      { k with dbIgnored := min 0xFFFFFFFF (k.dbIgnored + 1) }))) ∧
    (¬(k.state = .disabled ∨ d = 0 ∨ 2 ^ 31 ≤ d) → past ≠ 0 → past < 2 ^ 31 →
      exec (.COMPLETION_DOORBELL hi lo) s = .next (s.withDev (s.dev.setQueue q
        { k with dbIgnored := min 0xFFFFFFFF (k.dbIgnored + 1), overrun := true }))) ∧
    (¬(k.state = .disabled ∨ d = 0 ∨ 2 ^ 31 ≤ d) → (past = 0 ∨ 2 ^ 31 ≤ past) →
      exec (.COMPLETION_DOORBELL hi lo) s = .next (s.withDev (s.dev.setQueue q { k with cqHead := v })))

/-- R236, R252 to R271, R540: a packet's way through its queue. -/
def Obligations.QueueMachineryCompletes : Prop :=
  (∀ (s : State) q f, s.dev.reads q = true → s.dev.fetch q = some f → f.isBad = false →
    (s.dev.submitStatus q f.entry f.ue.isSome = stOk → exec (.SUBMISSION q) s = .next (s.put (s.dev.accept q f))) ∧
    (s.dev.submitStatus q f.entry f.ue.isSome ≠ stOk → exec (.SUBMISSION q) s = .next (s.put
      (s.dev.take q f (f.entry.ended (s.dev.submitStatus q f.entry f.ue.isSome)))))) ∧
  (∀ (s : State) q f, s.dev.reads q = true → s.dev.fetch q = some f → f.isBad = true →
    exec (.SUBMISSION q) s = .next (s.put (s.dev.take q f (f.entry.ended f.status)))) ∧
  (∀ (s : State) q e, s.dev.readyHead q = some e → s.dev.goesNext q e = true →
    (s.dev.engineOf e = none → exec (.DISPATCH q) s = .next (s.put (s.dev.leaveQueue q e))) ∧
    (∀ g, s.dev.engineOf e = some g →
      exec (.DISPATCH q) s = .next (s.put ((s.dev.advanceTags g (s.dev.rivals g) q e).leaveQueue q e)))) ∧
  (∀ (s : State) q e, s.dev.errDue = [] → (s.dev.queue q).headEntry = some e → e.lapsed = true →
    exec (.WAIT_TIMEOUT q) s = .next (s.withDev (s.dev.modQueue q (fun k => k.modEntry e.hdr.seq (fun x => x.ended stWaitTimeout))))) ∧
  (∀ (s : State) c e, s.dev.errDue = [] → s.dev.entry c = some e → e.phase = .rerun →
    ((s.dev.queue e.hdr.queue).entries.find? Entry.isHeld).map (·.ref) = some e.ref →
    (14 ≤ e.hdr.part ∨ (s.dev.part e.hdr.part).state = .active) → (∀ u, e.heldBy = some u → s.dev.recoveringOf u = none) →
    s.dev.saving e.hdr.part = false →
    exec (.RERUN_ISSUE c) s = .next (s.withDev (s.dev.modEntry c (fun x =>
      { x with phase := .dispatched, heldBy := none, since := s.dev.qs.nextOrder })))) ∧
  (∀ (s : State) c e, s.dev.errDue = [] → s.dev.entry c = some e → s.dev.moreToFlush e = true →
    exec (.COMMAND_COMMIT c) s = .next (s.withDev (s.dev.setPhase c (.running (.stage 1 (Result.failed stOk 0 false)))))) ∧
  (∀ (s : State) c e r, s.dev.entry c = some e → e.phase = .ran r → e.chain = none → s.dev.moreToFlush e = false →
    (s.dev.commitFail r = none → exec (.COMMAND_COMMIT c) s = .next (s.put (s.dev.publish c e r))) ∧
    (∀ f, s.dev.commitFail r = some f → exec (.COMMAND_COMMIT c) s = .next (s.put (s.dev.commitFails e r f)))) ∧
  (∀ (s : State) sp n, s.dev.chainMembers sp n ≠ [] →
    (∀ e ∈ s.dev.chainMembers sp n, ∃ r, e.phase = .ran r ∧ s.dev.commitFail r = none) →
    exec (.CHAIN_COMMIT sp n) s = .next (s.put ((s.dev.chainMembers sp n).foldl (fun d e => d.commitOne e.ref) s.dev))) ∧
  (∀ (s : State) q e rest r, (s.dev.queue q).entries = e :: rest → e.phase = .done r → (s.dev.queue q).state ≠ .saved → s.dev.chainOwes e = false →
    exec (.RECORD_WRITE q) s = .next (s.put (s.dev.writeFirst q e rest r)))

/-- R256, R261: the commit point of a command that holds no effect but its signal; 0xFF names no token. -/
def Obligations.CommitSignals : Prop :=
  ∀ (s : State) c e r, s.dev.errDue = [] → s.dev.entry c = some e → e.phase = .ran r → e.chain = none → r.effects = [] →
    s.dev.mem.ue = [] → s.dev.mem.ces = [] → e.hdr.log = false → e.payload = .nop →
    let set := if e.hdr.part < 14 then e.hdr.part else 14
    let d₀ := s.dev.keepOld (some c) []
    let d := if e.hdr.sig < 64 then d₀.setToken set e.hdr.sig (max (s.dev.token set e.hdr.sig) (e.hdr.sigVal % 2 ^ 64)) else d₀
    exec (.COMMAND_COMMIT c) s = .next (s.withDev (d.modEntry c (fun x => { x with phase := .done r }))) ∧
      (∀ p t, (p, t) ≠ (set, e.hdr.sig) → t < 64 → e.hdr.sig < 64 → d.token p t = s.dev.token p t)

/-- R261: what the end of a run leaves as it was, for every run of every command. -/
def Obligations.RunHoldsItsEffects : Prop :=
  ∀ (s : State) c e (m : Run Counts) k x, s.dev.entry c = some e → m (.start s.dev c e) = .ok k x →
    let d := s.dev.run c e m
    d.qs.tokens = s.dev.qs.tokens ∧ d.wick = s.dev.wick ∧ d.reqs = s.dev.reqs ∧ d.links = s.dev.links ∧
      d.xch = s.dev.xch ∧ d.train = s.dev.train ∧ d.lamp = s.dev.lamp ∧ d.power = s.dev.power ∧ d.clk = s.dev.clk ∧
      d.paths = s.dev.paths ∧ d.mem.bytes = s.dev.mem.bytes ∧ d.mem.host = s.dev.mem.host ∧ d.mem.skein = s.dev.mem.skein ∧
      d.mem.hbm = s.dev.mem.hbm ∧ d.mem.ddr = s.dev.mem.ddr ∧ d.mem.ue = s.dev.mem.ue ∧
      (14 ≤ e.hdr.part ∨ (s.dev.part e.hdr.part).state ≠ .free →
        d.sp = (s.dev.countRun e (rowsOf e.payload k.c1) (k.frozen e) (k.frozen e + Config.cycles s.dev.free)).sp) ∧
      (∀ p, p ≠ e.hdr.part ∨ (s.dev.part p).state ≠ .free →
        (d.part p).pt = (s.dev.part p).pt ∧ (d.part p).state = (s.dev.part p).state ∧ (d.part p).spindles = (s.dev.part p).spindles) ∧
      (∃ e', d.entry c = some e' ∧ ∃ r, e'.phase = .ran r ∧ r.effects = x.eff.reverse ∧ r.status = k.status) ∧
      (∀ n, n ≠ c.seq → d.entry ⟨c.queue, n⟩ = s.dev.entry ⟨c.queue, n⟩)

/-- R258, R261: a failing run outside a chain. -/
def Obligations.FailedRunChangesNothing : Prop :=
  ∀ (s : State) c e (m : Run Counts) f x, s.dev.entry c = some e → e.chain = none → m (.start s.dev c e) = .error f x →
    let d := s.dev.run c e m
    d.qs.tokens = s.dev.qs.tokens ∧ d.mem.bytes = s.dev.mem.bytes ∧ d.mem.host = s.dev.mem.host ∧ d.wick = s.dev.wick ∧
      d.reqs = s.dev.reqs ∧ d.links = s.dev.links ∧ d.clk = s.dev.clk ∧ ((∀ p, e.payload ≠ .vecRun p) → 14 ≤ e.hdr.part ∨ (s.dev.part e.hdr.part).state ≠ .free →
        ∃ rows frozen cycles, d.sp = (s.dev.countRun e rows frozen cycles).sp) ∧
      (∃ e', d.entry c = some e' ∧ ∃ r, e'.phase = .done r ∧ r.status = f.status ∧ r.effects = [])

/-- R246, R267. -/
def Obligations.RecordAdvancesQueue : Prop :=
  ∀ (s : State) q e rest r, s.dev.errDue = [] → s.dev.mem.ue = [] → q ≠ 1 → e.chain = none → (s.dev.queue q).entries = e :: rest → e.phase = .done r →
    ((s.dev.queue q).state = .running ∨ (s.dev.queue q).state = .halted) → e.reqRecords = [] →
    ∃ t, exec (.RECORD_WRITE q) s = .next t ∧
      (t.dev.queue q).entries = rest ∧ (t.dev.queue q).written = ((s.dev.queue q).written + 1) % 2 ^ 32 ∧
      (t.dev.queue q).lastStatus = r.status ∧ (t.dev.queue q).head = (s.dev.queue q).head ∧
      (t.dev.queue q).tail = (s.dev.queue q).tail ∧ (t.dev.queue q).cqHead = (s.dev.queue q).cqHead

/-- R28, R32, R257, R600, R646: the events of the clocks. -/
def Obligations.ClockEventsComplete : Prop :=
  (∀ (s : State), s.dev.errDue = [] → s.dev.clk.standby = true →
    exec .DEVICE_TICK s = .next (s.withDev { s.dev.markLapsed.markHeads with
      clk := s.dev.clk.next s.dev.free, links := { s.dev.links with msixSent := [] }, free := s.dev.free + 1 }) ∧
    (s.dev.clk.next s.dev.free).tick = (s.dev.clk.tick + 1) % 2 ^ 64 ∧
    (s.dev.clk.refPresent = false → (s.dev.clk.next s.dev.free).tickFree = true) ∧
    (s.dev.clk.tickFree = true → (s.dev.clk.next s.dev.free).tickFree = true)) ∧
  (∀ (s : State), s.dev.errDue = [] → s.dev.clk.standby = false → exec .DEVICE_TICK s = .next s) ∧
  (∀ (s : State), s.dev.clk.standby = true → s.dev.clk.refPresent = true →
    exec .REFCLK_LOST s = .next (s.put (({ s.dev with clk := { s.dev.clk with
      refPresent := false, refReturning := false, tickFree := true } } : Dev).takeError (lampError 0x08 0)))) ∧
  (∀ (s : State), s.dev.clk.standby = true → s.dev.clk.refPresent = false →
    exec .REFCLK_RETURN s = .next (s.put (({ s.dev with clk := { s.dev.clk with
      refPresent := true, refReturning := true } } : Dev).takeError (lampError 0x08 1)))) ∧
  (∀ (s : State) n, s.dev.lamp.cdUp = true → n < 3 →
    exec (.CD_REFCLK_LOST n) s = .next (s.put ({ s.dev with
      clk := { s.dev.clk with cdRefLost := sortNat (s.dev.clk.cdRefLost ++ [n]) }
      errDue := s.dev.errDue ++ (clockUnits n).map (fun u => ⟨u, unitIsland u, 0x03, 0xFF, 0xFF, 0, n⟩) } : Dev).settle))

/-- R33: the two halves of the tick count on one path, and every other path's latch. -/
def Obligations.TickLatches : Prop :=
  ∀ (s : State) p wide, s.dev.errDue = [] → s.dev.clk.tick < 2 ^ 64 → tblWf PathRegs.reset s.dev.paths = true →
    s.dev.reaches p tickLoOff = true → (wide = false ∨ p ≠ .host) →
    ∃ t, exec (.TICK_LO_READ ⟨p, wide⟩) s = .next t ∧ t.dev.links.readData = leBytes 4 (s.dev.clk.tick % 2 ^ 32) ∧
      (t.dev.readReg p 0x1800014).1 = s.dev.clk.tick / 2 ^ 32 ∧
      (∀ p', p' ≠ p → (t.dev.readReg p' 0x1800014).1 = (s.dev.readReg p' 0x1800014).1) ∧ t.dev.clk = s.dev.clk

/-- R33, R34, R43, R288; R39, R612: the paths that reach the register. -/
def Obligations.RegisterReadsComplete : Prop :=
  (∀ (s : State) p, s.dev.errDue = [] → s.dev.lamp.cdUp = true → s.dev.reaches p tokLoOff = true →
    exec (.TOKEN_LO_READ p) s = .next (s.withDev ((s.dev.modPath p (fun x =>
      { x with tokHi := s.dev.selectedToken p / 2 ^ 32 })).setRead (leBytes 4 (s.dev.selectedToken p % 2 ^ 32)) false))) ∧
  (∀ (s : State) p c wide, s.dev.errDue = [] → s.dev.lamp.cdUp = true → c ∈ allCounters → s.dev.reaches p (counterOff c) = true →
    (wide = false ∨ p ≠ .host) →
    exec (.COUNTER_LO_READ ⟨p, wide⟩ c) s = .next (s.withDev ((s.dev.modPath p (fun x =>
      { x with hi := setLatch x.hi c (s.dev.counter p c / 2 ^ 32) })).setRead (leBytes 4 (s.dev.counter p c % 2 ^ 32)) false))) ∧
  (∀ (s : State) c, s.dev.errDue = [] → s.dev.lamp.cdUp = true → c ∈ allCounters → counterOff c % 8 = 0 →
    s.dev.reaches .host (counterOff c) = true → s.dev.counter .host c < 2 ^ 64 →
    exec (.COUNTER_LO_READ ⟨.host, true⟩ c) s = .next (s.withDev ((s.dev.modPath .host (fun x =>
      { x with hi := setLatch x.hi c (s.dev.counter .host c / 2 ^ 32) })).setRead (leBytes 8 (s.dev.counter .host c)) false))) ∧
  (∀ (s : State), s.dev.errDue = [] → s.dev.reaches .host tickLoOff = true → s.dev.clk.tick < 2 ^ 64 →
    tblWf PathRegs.reset s.dev.paths = true →
    exec (.TICK_LO_READ ⟨.host, true⟩) s = .next (s.withDev ((s.dev.modPath .host (fun x =>
      { x with tickHi := s.dev.clk.tick / 2 ^ 32 })).setRead (leBytes 8 s.dev.clk.tick) false))) ∧
  (∀ (s : State) p off u, s.dev.lamp.cdUp = false → blockUnit off = some u → s.dev.reaches p off = true →
    exec (.DOWN_ACCESS_READ p off) s = .next (s.put (({ s.dev with
      lamp := { s.dev.lamp with downAccess := true }
      errDue := s.dev.errDue ++ [⟨u, unitIsland u, 0x07, 0xFF, 0xFF, 0, off⟩] } : Dev).setRead (zeros 4) false))) ∧
  (∀ (s : State) p wide, s.dev.errDue = [] → s.dev.reaches p tickLoOff = false → exec (.TICK_LO_READ ⟨p, wide⟩) s = .next s) ∧
  (∀ (s : State) p, s.dev.errDue = [] → s.dev.reaches p tokLoOff = false → exec (.TOKEN_LO_READ p) s = .next s) ∧
  (∀ (s : State) p c wide, s.dev.errDue = [] → s.dev.reaches p (counterOff c) = false → exec (.COUNTER_LO_READ ⟨p, wide⟩ c) s = .next s) ∧
  (∀ (s : State) p off, s.dev.errDue = [] → s.dev.reaches p off = false → exec (.DOWN_ACCESS_READ p off) s = .next s)

/-- R164: the sum with the written field in place of the present one; a SAVED partition counts what R549 says. -/
def Obligations.QuotaWriteRule : Prop :=
  ∀ (s : State) p part (v : Word), s.dev.errDue = [] → s.dev.lamp.cdUp = true → part < 14 → p ≠ .lamplighter →
    s.dev.reaches p 0x1000100 = true →
    let after := s.dev.skeinSumWith part (bits v.toNat 8 0)
    (376 < after → s.dev.skeinSum < after →
      exec (.SKN_QUOTA_WRITE p part 0 v) s = .next (s.withDev { s.dev with mem := { s.dev.mem with quotaRej := true } })) ∧
    ((after ≤ 376 ∨ after ≤ s.dev.skeinSum) →
      exec (.SKN_QUOTA_WRITE p part 0 v) s = .next (s.withDev (s.dev.modPart part (fun x =>
        { x with quotaSkein := bits v.toNat 8 0, quotaWick := bits v.toNat 24 16 }))))

/-- R577. -/
def Obligations.DevNumWriteRule : Prop :=
  ∀ (s : State) p (v : Word), s.dev.errDue = [] → s.dev.lamp.cdUp = true → p ≠ .lamplighter → s.dev.reaches p 0x1600000 = true →
    ((∀ j, j < 8 → (s.dev.port j).state ≠ .up ∧ (s.dev.port j).state ≠ .training) →
      exec (.DEV_NUM_WRITE p v) s = .next (s.withDev { s.dev with links := { s.dev.links with
        devNum := v.toNat % 2 ^ 14, numRej := s.dev.links.numRej && !bit v.toNat 31 } })) ∧
    (∀ j, j < 8 → (s.dev.port j).state = .up ∨ (s.dev.port j).state = .training →
      exec (.DEV_NUM_WRITE p v) s = .next (s.withDev { s.dev with links := { s.dev.links with numRej := true } }))

/-- R43, R138, R139, R193, R194, R575, R605, R612. -/
def Obligations.RegisterWritesComplete : Prop :=
  (∀ (s : State) p off v, s.dev.downError off = none → s.dev.reaches p off = true →
    exec (.REGISTER_WRITE p off v) s = .next (s.put (s.dev.writeUp p off v.toNat))) ∧
  (∀ (s : State) p off v e, s.dev.downError off = some e → s.dev.reaches p off = true →
    exec (.REGISTER_WRITE p off v) s = .next (s.put ({ s.dev with
      lamp := { s.dev.lamp with downAccess := true }, errDue := s.dev.errDue ++ [e] } : Dev))) ∧
  (∀ (s : State) p part (v : Word), s.dev.errDue = [] → s.dev.lamp.cdUp = true → part < 14 → p ≠ .lamplighter →
    s.dev.reaches p 0x1000140 = true →
    exec (.SKN_QUOTA_WRITE p part 1 v) s = .next (s.withDev (s.dev.modPart part (fun x => { x with quotaHbm := bits v.toNat 22 0 }))) ∧
    exec (.SKN_QUOTA_WRITE p part 2 v) s = .next (s.withDev (s.dev.modPart part (fun x => { x with quotaDdr := bits v.toNat 22 0 })))) ∧
  (∀ (s : State) p, s.dev.errDue = [] → s.dev.lamp.cdUp = true → s.dev.reaches p 0x1000010 = true →
    exec (.CE_CLR p) s = .next (s.withDev { s.dev with mem := { s.dev.mem with ceCount := 0 } })) ∧
  (∀ (s : State) p sp (v : Word), s.dev.errDue = [] → s.dev.lamp.cdUp = true → sp < 14 → s.dev.reaches p 0x204 = true →
    exec (.PILOT_CFG_WRITE p sp v) s = .next (s.withDev (s.dev.modSpin sp (fun x => { x with pilotNext := some (pilotCfgOf v.toNat) })))) ∧
  (∀ (s : State) p j (v : Word), s.dev.errDue = [] → s.dev.lamp.cdUp = true → j < 8 → p ≠ .lamplighter →
    s.dev.reaches p 0x1600100 = true →
    exec (.PORT_ENABLE_WRITE p j v) s = .next (s.withDev (s.dev.writePortCtl j v.toNat))) ∧
  (∀ (s : State) p, s.dev.lamp.recovery = true → s.dev.reaches p 0x1800020 = true → exec (.RESTART p) s = .next (s.put s.dev.bootFrom1)) ∧
  (∀ (s : State) p, s.dev.errDue = [] → s.dev.lamp.recovery = false → exec (.RESTART p) s = .next s) ∧
  (∀ (s : State) p v, s.dev.errDue = [] → s.dev.lamp.recovery = true → s.dev.reaches p 0x1800080 = true →
    exec (.RECOVERY_DATA_WRITE p v) s = .next (s.withDev { s.dev with
      lamp := { s.dev.lamp with flashB := s.dev.lamp.flashB ++ leBytes 4 v.toNat } })) ∧
  (∀ (s : State) p v, s.dev.errDue = [] → s.dev.lamp.recovery = false → exec (.RECOVERY_DATA_WRITE p v) s = .next s) ∧
  (∀ (s : State) p off v, s.dev.errDue = [] → s.dev.reaches p off = false → exec (.REGISTER_WRITE p off v) s = .next s)

/-- R610 to R616, R621 to R623, R631, R635, R656; the bytes of keys, certificates and signatures are free values. -/
def Obligations.LampCommandsComplete : Prop :=
  let given (s : State) (q out : Nat) (data : List Byte) (e : Effect) : Prop :=
    (q = 1 ∧ e = .lamp (.output data)) ∨ (q ≠ 1 ∧ s.dev.links.hostUp = true ∧ e = .host out data)
  (∀ s c e mask out nonce r k ef, Ready s c e → s.dev.lampBusy = false → e.payload = .attestReport mask out nonce r →
    s.dev.lamp.key = some k → k.next < 1024 →
    let d := s.dev.modLamp (fun l => { l with key := some { k with next := k.next + 1 } })
    given s e.hdr.queue out (d.report k mask nonce) ef →
    exec (.ATTEST_REPORT c) s = .next ((s.withDev d).ran c e (okCounts 6040 k.next (1048576 - s.dev.lamp.idIndex)) (.made d c e [ef]))) ∧
  (∀ s c e reg out digest r, Ready s c e → s.dev.lampBusy = false → e.payload = .attestExtend reg out digest r →
    let d := { s.dev with free := s.dev.free + 1 }
    exec (.EXTEND c) s = .next ((s.withDev d).ran c e (okCounts 0 (Config.freeWord s.dev.free).toNat (1048576 - s.dev.lamp.idIndex))
      (.made d c e [.lamp (.extend reg digest)]))) ∧
  (∀ s c e op out r ef, Ready s c e → s.dev.lampBusy = false → e.payload = .devrecRead op out r →
    let rec_ := s.dev.lamp.copy s.dev.lamp.live
    let data := if op = 0 then recordSummary s.dev.lamp.live rec_ else rec_
    given s e.hdr.queue out data ef →
    exec (.DEVREC_READ c) s = .next (s.ran c e (okCounts data.length (recordCounter rec_) s.dev.lamp.live) (.made s.dev c e [ef]))) ∧
  (∀ s c e len iova r, Ready s c e → s.dev.lampBusy = false → e.payload = .devrecInstall len iova r → e.hdr.queue ≠ 1 →
    s.dev.links.hostUp = true →
    let rec_ := getBytes s.dev.mem.host iova len
    recordOk ((s.dev.lamp.board.map (·.serial)).getD 0) s.dev.lamp.minCounter rec_ = true →
    recordCounter (s.dev.lamp.copy s.dev.lamp.live) ≤ recordCounter rec_ →
    exec (.DEVREC_INSTALL c) s = .next (s.ran c e (okCounts (recordCounter rec_) (1 - s.dev.lamp.live) 0)
      (.made s.dev c e [.lamp (.install rec_)]))) ∧
  (∀ s c e len r, Ready s c e → s.dev.lampBusy = false → e.payload = .devrecInstall len 0 r → e.hdr.queue = 1 → c = e.ref →
    let k := s.dev.contOf e
    let e₁ := { e with phase := .running (.stage 1 Result.fresh), issued := true }
    let d := (s.dev.toStage c 1 Result.fresh).dropCont c
    (k.data.length ≠ len → exec (.DEVREC_INSTALL c) s = .next (s.withDev (s.dev.toStage c 1 Result.fresh))) ∧
    (k.data.length = len → recordOk ((s.dev.lamp.board.map (·.serial)).getD 0) s.dev.lamp.minCounter k.data = true →
      recordCounter (s.dev.lamp.copy s.dev.lamp.live) ≤ recordCounter k.data →
      exec (.DEVREC_INSTALL c) s = .next ((s.withDev d).ran c e₁ (okCounts (recordCounter k.data) (1 - s.dev.lamp.live) 0)
        (.made d c e₁ [.lamp (.install k.data)])))) ∧
  (∀ s c e out r ef, Ready s c e → s.dev.lampBusy = false → e.payload = .telemetry out r → s.dev.lamp.sample ≠ [] →
    given s e.hdr.queue out s.dev.lamp.sample ef →
    exec (.TELEMETRY c) s = .next (s.ran c e (okCounts s.dev.lamp.sample.length 0 0) (.made s.dev c e [ef]))) ∧
  (∀ s c e n first out r ef, Ready s c e → s.dev.lampBusy = false → e.payload = .errqRead n 0 first out r →
    let rs := s.dev.lamp.errq.take n
    given s e.hdr.queue out (rs.flatMap ErrRecord.bytes) ef →
    exec (.ERRQ_READ c) s = .next (s.ran c e (okCounts rs.length (s.dev.lamp.errq.length - rs.length) s.dev.lamp.dropped)
      (.made s.dev c e [.lamp (.errqTake rs.length), ef]))) ∧
  (∀ s c e n first out r ef, Ready s c e → s.dev.lampBusy = false → e.payload = .errqRead n 1 first out r →
    let rs := (s.dev.lamp.mram.drop first).take n
    given s e.hdr.queue out (rs.flatMap ErrRecord.bytes) ef →
    exec (.ERRQ_READ c) s = .next (s.ran c e
      (okCounts rs.length s.dev.lamp.errq.length s.dev.lamp.dropped) (.made s.dev c e [ef]))) ∧
  (∀ s c e mw persist r, Ready s c e → s.dev.lampBusy = false → e.payload = .powerCap mw persist r →
    exec (.POWER_CAP c) s = .next (s.ran c e (okCounts mw s.dev.power.cap 0) (.made s.dev c e [.lamp (.cap mw (persist == 1))])))

/-- R40, R248, R249, R606 to R608, R611, R634. -/
def Obligations.SidebandComplete : Prop :=
  (∀ (s : State) (src : SbEnd) b, s.dev.lamp.on = true → s.dev.lamp.recovery = false → (s.dev.queue 1).state ≠ .disabled → src.port < 2 →
    let n := granulesOf (byteAt b 2)
    ((s.dev.queue 1).sqRoom n = true → exec (.SB_COMMAND_PACKET ⟨src, 0x28D1A⟩ b) s = .next (s.put
      ((s.dev.appendGranules n (fitBytes (64 * n) b)).modLamp (fun l =>
        { l with cameBy := tins l.cameBy (leAt b 8 8) src })))) ∧
    ((s.dev.queue 1).sqRoom n = false → exec (.SB_COMMAND_PACKET ⟨src, 0x28D1A⟩ b) s = .next (s.put (s.dev.modQueue 1 (fun k =>
      { k with dbIgnored := min max32 (k.dbIgnored + 1), overrun := true }))))) ∧
  (∀ (s : State) (src : SbEnd) tag addr, s.dev.sbServes src.port addr = true → addr % 4 = 0 →
    exec (.SB_REGISTER_READ ⟨src, 0x28D1A⟩ tag addr 1) s = .next (s.put ((s.dev.sbReadWord src.port addr).2.sbSend src
      (0x05 :: (leBytes 1 tag ++ (s.dev.sbReadWord src.port addr).1))))) ∧
  (∀ (s : State) (src : SbEnd) tag addr words, s.dev.errDue = [] → s.dev.sbServes src.port addr = true →
    (words = 0 ∨ 16 < words ∨ addr % 4 ≠ 0) →
    exec (.SB_REGISTER_READ ⟨src, 0x28D1A⟩ tag addr words) s = .next (s.withDev (s.dev.sbSend src (0x05 :: (leBytes 1 tag ++ [1]))))) ∧
  (∀ (s : State) (src : SbEnd) tag addr (v : Word), s.dev.sbServes src.port addr = true → addr % 4 = 0 →
    (inRegs addr = true → exec (.SB_REGISTER_WRITE ⟨src, 0x28D1A⟩ tag addr v) s = .next (s.put
      ((s.dev.writeReg (sbPath src.port) (addr - regBase) v.toNat).sbSend src (0x05 :: (leBytes 1 tag ++ [0]))))) ∧
    (inRegs addr = false → exec (.SB_REGISTER_WRITE ⟨src, 0x28D1A⟩ tag addr v) s = .next (s.put
      ((s.dev.sbMemWrite addr (leBytes 4 v.toNat)).2.sbSend src
        (0x05 :: (leBytes 1 tag ++ [if (s.dev.sbMemWrite addr (leBytes 4 v.toNat)).1 then 0 else 1])))))) ∧
  (∀ (s : State) (src : SbEnd) off data k len, s.dev.lamp.on = true → s.dev.lamp.recovery = false →
    s.dev.awaiting.find? (fun x => x.2.port == src.port) = some (len, k) →
    (off = k.data.length ∧ 1 ≤ data.length ∧ data.length ≤ 1024 ∧ off + data.length ≤ len →
      exec (.SB_CONTINUATION ⟨src, 0x28D1A⟩ off data) s = .next (s.put
        ((s.dev.setCont { k with data := k.data ++ data, tick := s.dev.clk.tick }).contDone
          { k with data := k.data ++ data, tick := s.dev.clk.tick }))) ∧
    (∀ e, s.dev.entry k.cmd = some e → ¬(off = k.data.length ∧ 1 ≤ data.length ∧ data.length ≤ 1024 ∧ off + data.length ≤ len) →
      exec (.SB_CONTINUATION ⟨src, 0x28D1A⟩ off data) s = .next (s.put
        ((s.dev.dropCont k.cmd).failEntry k.cmd e ⟨stBadParam, none, none⟩ e.runCycles)))) ∧
  (∀ (s : State) len k e, s.dev.awaiting = [(len, k)] → s.dev.entry k.cmd = some e → k.tick + 1000000 < s.dev.clk.tick →
    exec .CONTINUATION_TIMEOUT s = .next (s.put ((s.dev.dropCont k.cmd).failEntry k.cmd e ⟨stBadParam, none, none⟩ e.runCycles))) ∧
  (∀ (s : State) (src : SbEnd), s.dev.errDue = [] → s.dev.lamp.on = true → s.dev.lamp.recovery = false → src.port < 2 →
    exec (.GET_VENDOR_DEFINED_MESSAGE_SUPPORT src) s = .next (s.withDev (s.dev.sbSend src (leBytes 4 0x28D1A)))) ∧
  (∀ (s : State) port r, s.dev.errDue = [] → s.dev.lamp.on = true → port < 2 → s.dev.lamp.errq.getLast? = some r →
    0 < (tget SidePort.reset s.dev.lamp.ports port).events →
    (∀ t, (tget SidePort.reset s.dev.lamp.ports port).lastSent = some t → t + 10000 ≤ s.dev.clk.tick) →
    exec (.ALERT_SEND port) s = .next (s.withDev { s.dev with lamp := { s.dev.lamp with
      sbOut := s.dev.lamp.sbOut ++ [(⟨port, Config.alertEid port⟩,
        0x06 :: (leBytes 2 (min 0xFFFF (tget SidePort.reset s.dev.lamp.ports port).events) ++ r.bytes))]
      ports := tput SidePort.reset s.dev.lamp.ports port ⟨0, some s.dev.clk.tick⟩ } })) ∧
  (∀ (s : State) src v tag addr words off (w : Word) (data : List Byte), s.dev.errDue = [] → v ≠ 0x28D1A →
    exec (.SB_COMMAND_PACKET ⟨src, v⟩ data) s = .next s ∧ exec (.SB_REGISTER_READ ⟨src, v⟩ tag addr words) s = .next s ∧
    exec (.SB_REGISTER_WRITE ⟨src, v⟩ tag addr w) s = .next s ∧ exec (.SB_CONTINUATION ⟨src, v⟩ off data) s = .next s)

/-- R271, R624 to R630: one error, and the ends of its action. -/
def Obligations.ErrorsComplete : Prop :=
  (∀ (s : State) e, s.dev.errDue = [] → s.dev.lamp.on = true → s.dev.recoveringOf e.unit = none → e.code ≠ 0x0D → s.dev.failNamed e = s.dev →
    (startLevel e.code 0 = 0 → exec (.ERROR_TAKEN e) s = .next (s.withDev { s.dev with
      lamp := s.dev.lamp.addRecord (s.dev.errRecord e 0 false false) })) ∧
    (startLevel e.code 0 = 1 → exec (.ERROR_TAKEN e) s = .next (s.put ((s.dev.fileError e 1 false false).restartUnit e.unit))) ∧
    (startLevel e.code 0 = 2 → exec (.ERROR_TAKEN e) s = .next (s.put ((s.dev.fileError e 2 false false).tearUnit e.unit)))) ∧
  (∀ (s : State) e x, s.dev.lamp.on = true → s.dev.recoveringOf e.unit = none → e.code = 0x01 →
    s.dev.entry ⟨e.queue, e.seq⟩ = some x → x.inFlight = true → x.isHeld = false → x.released = false →
    exec (.ERROR_TAKEN e) s = .next (s.put (((((((s.dev.untakeFor x).forget x.ref).unwait x).unsave x).untakeKv x).failEntry x.ref x
      ⟨stUncorrectable, none, none⟩ x.runCycles).takeError e))) ∧
  (∀ (s : State) e r, s.dev.lamp.on = true → s.dev.recoveringOf e.unit = some r → s.dev.failNamed e = s.dev →
    exec (.ERROR_TAKEN e) s = .next (s.put (s.dev.actOn e (max (startLevel e.code r.level) (min 3 (r.level + 1))) true))) ∧
  (∀ (s : State) u r, s.dev.recoveringOf u = some r → r.level = 1 →
    exec (.UNIT_RESTART_DONE u) s = .next (s.put (((s.dev.live.map (·.2)).filter (fun e => e.heldBy == some u)).foldl
      (fun d e => d.reissue e.ref)
      { s.dev with lamp := { s.dev.lamp with recovering := s.dev.lamp.recovering.filter (fun x => x.unit != u) } }))) ∧
  (∀ (s : State) u r, s.dev.recoveringOf u = some r → r.level = 1 → r.since + 10000 < s.dev.clk.tick →
    exec (.RECOVERY_TIMEOUT u) s = .next (s.put (s.dev.takeError ⟨u, unitIsland u, 0x05, 0xFF, 0xFF, 0, 0⟩))) ∧
  (∀ (s : State) c e, s.dev.entry c = some e → e.inFlight = true → e.phase ≠ .rerun → s.dev.inTerm e = false →
    exec (.WATCHDOG c) s = .next (s.put (s.dev.takeError
      ⟨s.dev.unitOf e, unitIsland (s.dev.unitOf e), 0x04, e.hdr.part, e.hdr.queue, e.hdr.seq, e.hdr.opcode⟩))) ∧
  (∀ (s : State), s.dev.lamp.on = true → s.dev.recoveringOf ⟨9, 0⟩ = none →
    exec .LOCKSTEP_FAULT s = .next (s.put ((s.dev.setRecovering ⟨⟨9, 0⟩, 3, s.dev.clk.tick, []⟩).fatalError ⟨⟨9, 0⟩, 54, 0x0D, 0xFF, 0xFF, 0, 0⟩ false)))

/-- R29, R612, R613, R632, R635, R643 to R652; the energy of a sample is a free value. -/
def Obligations.PowerAndResetComplete : Prop :=
  (∀ (s : State) b, s.dev.clk.standby = false →
    exec (.STANDBY_POWER_UP b) s = .next (s.put (({ s.dev with
      clk := { Clock.reset with standby := true, refPresent := true }, links := { s.dev.links with bridge := b.hostEn }
      power := { Power.reset with stored := s.dev.power.stored }
      lamp := { s.dev.lamp with
        board := some b, on := true
        copyA := if s.dev.lamp.copyA.isEmpty && s.dev.lamp.copyB.isEmpty then b.mramA else s.dev.lamp.copyA
        copyB := if s.dev.lamp.copyA.isEmpty && s.dev.lamp.copyB.isEmpty then b.mramB else s.dev.lamp.copyB
        minVersion := if s.dev.lamp.copyA.isEmpty && s.dev.lamp.copyB.isEmpty then b.minVersion else s.dev.lamp.minVersion } } : Dev).bootFrom1))) ∧
  (∀ (s : State), s.dev.clk.standby = true →
    exec .STANDBY_POWER_LOSS s = .next (s.withDev { Dev.initial with
      mem := { Mem.reset with host := s.dev.mem.host }, lamp := s.dev.lamp.mramOnly
      power := { Power.reset with stored := s.dev.power.stored }, links := { s.dev.links.held with bridge := false }
      free := s.dev.free })) ∧
  (∀ (s : State) ns, s.dev.lamp.on = true → s.dev.lamp.stage ≠ 0 → 1000 ≤ ns → ns ≤ 100000000 →
    s.dev.lamp.rst.ignores s.dev.clk.tick = false →
    let d := (s.dev.modInput 0 (fun r => r.pulse s.dev.clk.tick)).deviceReset true
    exec (.SB_RST_N ns) s = .next (s.put (if d.chatters 0 = true then d.latchChatter 0 else d))) ∧
  (∀ (s : State) ns, s.dev.lamp.on = true → s.dev.lamp.stage ≠ 0 → 100000000 < ns → s.dev.lamp.rst.stuckLow = false →
    s.dev.lamp.rst.ignores s.dev.clk.tick = false →
    let d := ((s.dev.modInput 0 (fun r => r.pulse s.dev.clk.tick)).deviceReset true).latchStuck 0
    exec (.SB_RST_N ns) s = .next (s.put (if d.chatters 0 = true then d.latchChatter 0 else d))) ∧
  (∀ (s : State) ns, s.dev.errDue = [] → ns < 1000 → exec (.SB_RST_N ns) s = .next s) ∧
  (∀ (s : State) i, s.dev.lamp.on = true → i < 2 →
    ((s.dev.lamp.input i).level = false → (s.dev.lamp.input i).stuckLow = false → (s.dev.lamp.input i).ignores s.dev.clk.tick = false →
      exec (.INPUT_STUCK i) s = .next (s.put ((s.dev.modInput i (fun r =>
        { r with level := false, stuckLow := true, stuck := true })).takeError (inputError i)))) ∧
    ((s.dev.lamp.input i).level = true → s.dev.lamp.stage ≠ 0 →
      exec (.INPUT_STUCK i) s = .next (s.put ((if i = 0 then s.dev.inputPulse 0 1000 else s.dev.perstFalls).inputSticks i))) ∧
    (s.dev.chatters i = true → exec (.INPUT_CHATTER i) s = .next (s.put
      ((s.dev.modInput i (fun r => { r with chatter := true, ignored := true })).takeError (inputError i))))) ∧
  (∀ (s : State) r, s.dev.waitingRail = some r →
    exec .POWER_GOOD_TIMEOUT s = .next (s.put (s.dev.takeError ⟨⟨11, r⟩, 54, 0x11, 0xFF, 0xFF, 0, 0⟩))) ∧
  (∀ (s : State) b, s.dev.lamp.board = some b →
    (s.dev.lamp.enIo = true → b.pgIo = true → exec (.POWER_GOOD_LOST 0) s = .next (s.put (s.dev.takeError (powerError 0x11 0 0)))) ∧
    (s.dev.lamp.enCore = true → b.pgCore = true → exec (.POWER_GOOD_LOST 1) s = .next (s.put (s.dev.takeError (powerError 0x11 1 0)))) ∧
    (s.dev.lamp.enHbm = true → b.pgHbm = true → exec (.POWER_GOOD_LOST 2) s = .next (s.put (s.dev.takeError (powerError 0x11 2 0))))) ∧
  (∀ (s : State) avg, s.dev.errDue = [] → s.dev.lamp.on = true → s.dev.lamp.cdUp = true → s.dev.power.brake = false →
    dueAgain s.dev.power.evalAt 100 s.dev.clk.tick = true →
    (s.dev.power.cap < avg → 950 < s.dev.power.target → exec (.POWER_EVAL avg) s = .next (s.withDev { s.dev with
      power := ({ s.dev.power with evalAt := some s.dev.clk.tick, avg := avg, target := s.dev.power.target - 25 } : Power).trimmed })) ∧
    (s.dev.power.cap < avg → s.dev.power.target ≤ 950 → exec (.POWER_EVAL avg) s = .next (s.withDev { s.dev with
      power := ({ s.dev.power with evalAt := some s.dev.clk.tick, avg := avg, memLevel := s.dev.power.memLevel - 1 } : Power).trimmed })) ∧
    (100 * avg < 97 * s.dev.power.cap → s.dev.power.therm = false → s.dev.power.memLevel = 16 → s.dev.power.target < 1900 →
      exec (.POWER_EVAL avg) s = .next (s.withDev { s.dev with
        power := ({ s.dev.power with evalAt := some s.dev.clk.tick, avg := avg, target := s.dev.power.target + 25 } : Power).trimmed }))) ∧
  (∀ (s : State), s.dev.errDue = [] → s.dev.lamp.on = true → s.dev.lamp.cdUp = true →
    ∀ ns, 1000 ≤ ns → exec (.PWR_BRAKE_N ⟨true, ns⟩) s = .next (s.withDev { s.dev with
      power := ({ s.dev.power with brake := true, target := 950, memLevel := min 16 Config.shareLevel } : Power).trimmed }) ∧
    exec (.PWR_BRAKE_N ⟨false, ns⟩) s = .next (s.withDev { s.dev with power := { s.dev.power with brake := false } })) ∧
  (∀ (s : State) x, s.dev.errDue = [] → s.dev.lamp.on = true → (sensorList x).any atThrottle = false →
    dueAgain s.dev.power.comparedAt 1 s.dev.clk.tick = true →
    exec (.THERMAL_COMPARE x) s = .next (s.withDev ((s.dev.readStacks x).modPower (fun p => { p with
      comparedAt := some s.dev.clk.tick, hot := hotCounts s.dev.power.hot (sensorList x), cool := (sensorList x).all isCool
      therm := p.therm && !(s.dev.power.therm && (sensorList x).all belowThrottle) })))) ∧
  (∀ (s : State) source i x, s.dev.lamp.on = true → source ≠ 4 → 10 ≤ tget 0 s.dev.power.hot (64 * source + i) →
    exec (.THERMAL_TRIP source i x) s = .next (s.put (({ s.dev with power := { s.dev.power with
      tripped := true, cool := (sensorList x).all isCool, latched := true, source := source, index := i
      tempC := min 255 ((sensorList x).foldl (fun (m : Int) y => max m y.2.2) 0 / 8) } } : Dev).takeError
        ⟨⟨11, source⟩, 54, 0x10, 0xFF, 0xFF, 0, i⟩))) ∧
  (∀ (s : State) x y, s.dev.lamp.on = true → s.dev.power.therm = false → (sensorList x).find? atThrottle = some y →
    dueAgain s.dev.power.comparedAt 1 s.dev.clk.tick = true →
    exec (.THERMAL_COMPARE x) s = .next (s.put (((s.dev.readStacks x).modPower (fun p => { p with
      comparedAt := some s.dev.clk.tick, hot := hotCounts s.dev.power.hot (sensorList x), cool := (sensorList x).all isCool
      therm := true })).takeError ⟨⟨11, y.1⟩, 54, 0x12, 0xFF, 0xFF, 0, y.2.1⟩))) ∧
  (∀ (s : State) x mw, s.dev.errDue = [] → s.dev.lamp.on = true → dueAgain s.dev.power.sampledAt 100 s.dev.clk.tick = true →
    ∃ t, exec (.TELEMETRY_SAMPLE x mw) s = .next t ∧ t.dev.lamp.sample = s.dev.sampleBytes x mw ∧ t.dev.qs = s.dev.qs ∧
      t.dev.mem.bytes = s.dev.mem.bytes ∧ t.dev.clk = s.dev.clk)

/-- R256, R261, R262: the bytes stored are those that the effect names, at its address; no sector of memory holds an error,
the header asks for no log entry, and the command is no QUEUE_DESTROY that has packets left to flush. -/
def Obligations.CommitWritesMemory : Prop :=
  ∀ (s : State) c e r pa data, s.dev.errDue = [] → s.dev.entry c = some e → e.phase = .ran r → e.chain = none →
    r.effects = [.mem pa data] → s.dev.moreToFlush e = false → s.dev.mem.ue = [] → s.dev.mem.ces = [] → e.hdr.log = false →
    let set := if e.hdr.part < 14 then e.hdr.part else 14
    ∃ t, exec (.COMMAND_COMMIT c) s = .next t ∧ t.pending = s.pending ∧
      (∀ a, getByte t.dev.mem.bytes a =
        if pa ≤ a ∧ a < pa + data.length then data.getD (a - pa) 0 else getByte s.dev.mem.bytes a) ∧
      t.dev.mem.host = s.dev.mem.host ∧ t.dev.mem.skein = s.dev.mem.skein ∧ t.dev.mem.hbm = s.dev.mem.hbm ∧
      t.dev.mem.ddr = s.dev.mem.ddr ∧ t.dev.mem.ue = [] ∧ t.dev.mem.ces = [] ∧
      (e.hdr.sig < 64 → 0 < max (s.dev.token set e.hdr.sig) (e.hdr.sigVal % 2 ^ 64) →
        t.dev.token set e.hdr.sig = max (s.dev.token set e.hdr.sig) (e.hdr.sigVal % 2 ^ 64)) ∧
      (∀ p n, n < 64 → (p, n) ≠ (set, e.hdr.sig) → t.dev.token p n = s.dev.token p n) ∧
      (∃ r', t.dev.entry c = some { e with phase := .done r' } ∧ r'.status = r.status) ∧
      (∀ n, n ≠ c.seq → t.dev.entry ⟨c.queue, n⟩ = s.dev.entry ⟨c.queue, n⟩) ∧
      t.dev.clk = s.dev.clk ∧ t.dev.sp = s.dev.sp ∧ t.dev.wick = s.dev.wick ∧ t.dev.reqs = s.dev.reqs ∧
      t.dev.links = s.dev.links ∧ t.dev.parts = s.dev.parts ∧ t.dev.lamp = s.dev.lamp ∧ t.dev.power = s.dev.power ∧
      t.dev.paths = s.dev.paths

/-- The queue of commands is the model's own (log entry 2): step takes the front; an empty queue idles. -/
def Obligations.StepRunsFront : Prop :=
  (∀ (s : State) c rest, s.pending = c :: rest → step s = exec c { s with pending := rest }) ∧
  (∀ (s : State), s.pending = [] → step s = .next s)

/-- R29, R242, R255, R532, R605, R631: the values at reset, before the first rise of the standby rails. -/
def Obligations.ResetValues : Prop :=
  State.reset.pending = [] ∧ State.reset.dev.clk.standby = false ∧ State.reset.dev.clk.tick = 0 ∧
    State.reset.dev.clk.copies = List.replicate 55 0 ∧ (∀ p t, State.reset.dev.token p t = 0) ∧
    (∀ q, (State.reset.dev.queue q).state = .disabled) ∧ (∀ p, (State.reset.dev.part p).state = .free) ∧
    (∀ j, (State.reset.dev.port j).state = .disabled) ∧ State.reset.dev.links.sent = [] ∧ State.reset.dev.links.hostUp = false ∧
    (∀ a, getByte State.reset.dev.mem.bytes a = 0 ∧ getByte State.reset.dev.mem.host a = 0) ∧
    State.reset.dev.lamp.on = false ∧ State.reset.dev.lamp.errq = [] ∧
    (∀ p, (State.reset.dev.pathOf p) = PathRegs.reset) ∧ State.reset.dev.errDue = []

/-- R29, R30; the canonical forms are the model's. -/
def Obligations.ResetHoldsInvariant : Prop := State.reset.Inv

/-- R30, R629: over all commands; the canonical forms are the model's. -/
def Obligations.EveryStepKeepsInvariant : Prop :=
  ∀ s : State, s.Inv → ∃ t, step s = .next t ∧ t.Inv

/-- R29, over all commands. -/
def Obligations.TickCountsWithoutBreak : Prop :=
  ∀ (s t : State) c rest, s.pending = c :: rest → step s = .next t →
    (∀ b, c = .STANDBY_POWER_UP b → s.dev.clk.standby = false → t.dev.clk.standby = true ∧ t.dev.clk.tick = 0) ∧
    (∀ b, c = .STANDBY_POWER_UP b → s.dev.clk.standby = true → t.dev.clk.standby = true ∧ t.dev.clk.tick = s.dev.clk.tick) ∧
    (c = .DEVICE_TICK → s.dev.clk.standby = true → t.dev.clk.standby = true ∧ t.dev.clk.tick = (s.dev.clk.tick + 1) % 2 ^ 64) ∧
    (c ≠ .DEVICE_TICK → c ≠ .STANDBY_POWER_LOSS → (∀ b, c ≠ .STANDBY_POWER_UP b) →
      t.dev.clk.standby = s.dev.clk.standby ∧ t.dev.clk.tick = s.dev.clk.tick)
end

