-- ==== Sys2Proof/Laws/Tables.lean ====
section
/-! SUPPORT. Reads after writes of the sparse tables, and that every write keeps their canonical form. -/

namespace Sys2Proof.Machine

@[simp] theorem tget_tins_self {α : Type} (d : α) (t : Tbl α) (i : Nat) (v : α) : tget d (tins t i v) i = v := by
  induction t with
  | nil => simp [tins, tget]
  | cons a t ih =>
    obtain ⟨k, w⟩ := a
    simp only [tins]
    split
    · simp [tget]
    · split
      · simp [tget]
      · rename_i h; simp [tget, h, ih]

theorem tget_tins_ne {α : Type} (d : α) (t : Tbl α) {i j : Nat} (v : α) (h : j ≠ i) :
    tget d (tins t i v) j = tget d t j := by
  induction t with
  | nil => simp [tins, tget, h]
  | cons a t ih =>
    obtain ⟨k, w⟩ := a
    simp only [tins]
    split
    · simp [tget, h]
    · split
      · rename_i e; subst e; simp [tget, h]
      · simp [tget, ih]

theorem tget_terase_ne {α : Type} (d : α) (t : Tbl α) {i j : Nat} (h : j ≠ i) : tget d (terase t i) j = tget d t j := by
  induction t with
  | nil => simp [terase, tget]
  | cons a t ih =>
    obtain ⟨k, w⟩ := a
    simp only [terase]
    split
    · rename_i e; subst e; simp [tget, h]
    · split <;> simp [tget, ih]

theorem tget_tput_ne {α : Type} [DecidableEq α] (d : α) (t : Tbl α) {i j : Nat} (v : α) (h : j ≠ i) :
    tget d (tput d t i v) j = tget d t j := by
  unfold tput; split
  · exact tget_terase_ne d t h
  · exact tget_tins_ne d t v h

theorem tget_tput_of_ne {α : Type} [DecidableEq α] {d : α} (t : Tbl α) (i : Nat) {v : α} (h : v ≠ d) :
    tget d (tput d t i v) i = v := by
  simp [tput, h]

theorem keysRising_cons {α : Type} (k : Nat) (v : α) (t : Tbl α) :
    keysRising ((k, v) :: t) = true ↔ (∀ p ∈ t.head?, k < p.1) ∧ keysRising t = true := by
  cases t with
  | nil => simp [keysRising]
  | cons b t => obtain ⟨k', v'⟩ := b; simp [keysRising]

theorem keysRising_pairwise {α : Type} (t : Tbl α) : keysRising t = true ↔ t.Pairwise (fun a b => a.1 < b.1) := by
  induction t with
  | nil => simp [keysRising]
  | cons a t ih =>
    obtain ⟨k, v⟩ := a
    rw [keysRising_cons, ih, List.pairwise_cons]
    constructor
    · rintro ⟨h, hp⟩
      refine ⟨?_, hp⟩
      intro b hb
      cases t with
      | nil => simp at hb
      | cons c t =>
        have hc : k < c.1 := h c (by simp)
        rcases List.mem_cons.1 hb with rfl | hb
        · exact hc
        · exact lt_trans hc ((List.pairwise_cons.1 hp).1 b hb)
    · rintro ⟨h, hp⟩
      exact ⟨fun p hpm => h p (List.mem_of_mem_head? hpm), hp⟩

/-- The canonical form in the terms of list lemmas. -/
theorem tblWf_iff {α : Type} [DecidableEq α] (d : α) (t : Tbl α) :
    tblWf d t = true ↔ t.Pairwise (fun a b => a.1 < b.1) ∧ ∀ p ∈ t, p.2 ≠ d := by
  simp [tblWf, keysRising_pairwise, List.all_eq_true]

theorem mem_tins {α : Type} {t : Tbl α} {i : Nat} {v : α} {p : Nat × α} (h : p ∈ tins t i v) : p = (i, v) ∨ p ∈ t := by
  induction t with
  | nil => simpa [tins] using h
  | cons a t ih =>
    obtain ⟨k, w⟩ := a
    simp only [tins] at h
    split at h
    · simpa using h
    · split at h
      · rcases List.mem_cons.1 h with h | h <;> simp [h]
      · rcases List.mem_cons.1 h with h | h
        · simp [h]
        · rcases ih h with h | h <;> simp [h]

theorem mem_terase {α : Type} {t : Tbl α} {i : Nat} {p : Nat × α} (h : p ∈ terase t i) : p ∈ t := by
  induction t with
  | nil => simp [terase] at h
  | cons a t ih =>
    obtain ⟨k, w⟩ := a
    simp only [terase] at h
    split at h
    · simp [h]
    · split at h
      · exact h
      · rcases List.mem_cons.1 h with h | h
        · simp [h]
        · simp [ih h]

theorem pairwise_tins {α : Type} {t : Tbl α} (i : Nat) (v : α) (h : t.Pairwise (fun a b => a.1 < b.1)) :
    (tins t i v).Pairwise (fun a b => a.1 < b.1) := by
  induction t with
  | nil => simp [tins]
  | cons a t ih =>
    obtain ⟨k, w⟩ := a
    have hc := List.pairwise_cons.1 h
    simp only [tins]
    split
    · rename_i hi
      refine List.pairwise_cons.2 ⟨?_, h⟩
      intro b hb
      rcases List.mem_cons.1 hb with rfl | hb
      · exact hi
      · exact lt_trans hi (hc.1 b hb)
    · split
      · rename_i e; subst e; exact List.pairwise_cons.2 ⟨hc.1, hc.2⟩
      · refine List.pairwise_cons.2 ⟨?_, ih hc.2⟩
        intro b hb
        rcases mem_tins hb with rfl | hb
        · simp; omega
        · exact hc.1 b hb

theorem pairwise_terase {α : Type} {t : Tbl α} (i : Nat) (h : t.Pairwise (fun a b => a.1 < b.1)) :
    (terase t i).Pairwise (fun a b => a.1 < b.1) := by
  induction t with
  | nil => simp [terase]
  | cons a t ih =>
    obtain ⟨k, w⟩ := a
    have hc := List.pairwise_cons.1 h
    simp only [terase]
    split
    · exact hc.2
    · split
      · exact h
      · exact List.pairwise_cons.2 ⟨fun b hb => hc.1 b (mem_terase hb), ih hc.2⟩

/-- A change of every value that drops the ones at the default keeps the canonical form. -/
theorem tblWf_mapped {α : Type} [DecidableEq α] {d : α} {t : Tbl α} (f : α → α) (h : tblWf d t = true) :
    tblWf d ((t.map (fun kv => (kv.1, f kv.2))).filter (fun kv => decide (kv.2 ≠ d))) = true := by
  rw [tblWf_iff] at h ⊢
  refine ⟨List.Pairwise.filter _ (List.pairwise_map.2 h.1), ?_⟩
  intro p hp
  exact of_decide_eq_true (List.mem_filter.1 hp).2

theorem tblWf_tput {α : Type} [DecidableEq α] {d : α} {t : Tbl α} (i : Nat) (v : α) (h : tblWf d t = true) :
    tblWf d (tput d t i v) = true := by
  rw [tblWf_iff] at h ⊢
  unfold tput; split
  · exact ⟨pairwise_terase i h.1, fun p hp => h.2 p (mem_terase hp)⟩
  · rename_i hv
    refine ⟨pairwise_tins i v h.1, fun p hp => ?_⟩
    rcases mem_tins hp with rfl | hp
    · exact hv
    · exact h.2 p hp

/-- In a canonical table, the erased key reads as the default. -/
theorem tget_terase_self {α : Type} (d : α) {t : Tbl α} (i : Nat) (h : t.Pairwise (fun a b => a.1 < b.1)) :
    tget d (terase t i) i = d := by
  induction t with
  | nil => simp [terase, tget]
  | cons a t ih =>
    obtain ⟨k, w⟩ := a
    have hc := List.pairwise_cons.1 h
    have none : ∀ u : Tbl α, (∀ b ∈ u, i < b.1) → tget d u i = d := by
      intro u
      induction u with
      | nil => simp [tget]
      | cons b u ihu =>
        intro hb
        have := hb b (by simp)
        simp only [tget]
        rw [if_neg (by omega)]
        exact ihu (fun x hx => hb x (by simp [hx]))
    simp only [terase]
    split
    · rename_i e; subst e; exact none t hc.1
    · split
      · rename_i hn hl
        exact none _ (by
          intro b hb
          rcases List.mem_cons.1 hb with rfl | hb
          · exact hl
          · exact lt_trans hl (hc.1 b hb))
      · rename_i hn _; simp [tget, hn, ih hc.2]

/-- A table reads what was put in it. -/
theorem tget_tput_self {α : Type} [DecidableEq α] {d : α} {t : Tbl α} (i : Nat) (v : α) (h : tblWf d t = true) :
    tget d (tput d t i v) i = v := by
  unfold tput; split
  · rename_i e; subst e; exact tget_terase_self _ i ((tblWf_iff _ t).1 h).1
  · exact tget_tins_self d t i v

end Sys2Proof.Machine
end

