-- ==== Sys2Proof/Laws/Commands.lean ====
section
/-! SUPPORT. What the shared operations of a command's run do: one lemma each, for the proofs to cite. -/

namespace Sys2Proof.Machine

@[simp] theorem settle_of_calm {d : Dev} (h : d.errDue = []) : d.settle = d := by
  simp [Dev.settle, Dev.settleIn, h]

theorem settleIn_errDue (d : Dev) (n : Nat) : (d.settleIn n).errDue = [] := by
  induction n generalizing d with
  | zero =>
    have h : ∀ (es : List ErrorInfo) (d : Dev), d.errDue = [] → (es.foldl Dev.note d).errDue = [] := by
      intro es
      induction es with
      | nil => exact fun _ h => h
      | cons e es ih => exact fun d h => ih _ h
    exact h _ _ rfl
  | succ n ih =>
    unfold Dev.settleIn
    split
    · assumption
    · exact ih _

/-- R629: no error waits after a command. -/
theorem settle_errDue (d : Dev) : d.settle.errDue = [] := settleIn_errDue d _

@[simp] theorem onPacket_ready {d : Dev} {c : CmdRef} {e : Entry} (f : Entry → Dev) (h : d.entry c = some e)
    (hp : e.phase = .dispatched) (hr : d.rootHolds e = false) : d.onPacket c f = f e := by
  simp [Dev.onPacket, h, hp, hr]

/-- R263: what a command sees differs from the block in bytes of its memory alone. -/
theorem seenBy_eq (d : Dev) (e : Entry) : d.seenBy e = { d with mem := { d.mem with bytes := (d.seenBy e).mem.bytes } } := by
  unfold Dev.seenBy; split <;> rfl

/-- What does not look at the bytes of memory is the same for a command as for the block. -/
theorem seenBy_same {α : Type} (f : Dev → α) (h : ∀ (d : Dev) b, f { d with mem := { d.mem with bytes := b } } = f d) (d : Dev)
    (e : Entry) : f (d.seenBy e) = f d := by
  rw [seenBy_eq]; exact h d _

@[simp] theorem seenBy_part (d : Dev) (e : Entry) (p : Nat) : (d.seenBy e).part p = d.part p :=
  seenBy_same (·.part p) (fun _ _ => rfl) d e
@[simp] theorem seenBy_parts (d : Dev) (e : Entry) : (d.seenBy e).parts = d.parts := seenBy_same (·.parts) (fun _ _ => rfl) d e
@[simp] theorem seenBy_spin (d : Dev) (e : Entry) (i : Nat) : (d.seenBy e).spin i = d.spin i :=
  seenBy_same (·.spin i) (fun _ _ => rfl) d e
@[simp] theorem seenBy_queue (d : Dev) (e : Entry) (q : Nat) : (d.seenBy e).queue q = d.queue q :=
  seenBy_same (·.queue q) (fun _ _ => rfl) d e
@[simp] theorem seenBy_hasQueue (d : Dev) (e : Entry) (q : Nat) : (d.seenBy e).hasQueue q = d.hasQueue q :=
  seenBy_same (·.hasQueue q) (fun _ _ => rfl) d e
@[simp] theorem seenBy_queuesOf (d : Dev) (e : Entry) (p : Nat) : (d.seenBy e).queuesOf p = d.queuesOf p :=
  seenBy_same (·.queuesOf p) (fun _ _ => rfl) d e
@[simp] theorem seenBy_token (d : Dev) (e : Entry) (p t : Nat) : (d.seenBy e).token p t = d.token p t :=
  seenBy_same (·.token p t) (fun _ _ => rfl) d e
@[simp] theorem seenBy_live (d : Dev) (e : Entry) : (d.seenBy e).live = d.live := seenBy_same (·.live) (fun _ _ => rfl) d e
@[simp] theorem seenBy_links (d : Dev) (e : Entry) : (d.seenBy e).links = d.links := seenBy_same (·.links) (fun _ _ => rfl) d e
@[simp] theorem seenBy_wick (d : Dev) (e : Entry) : (d.seenBy e).wick = d.wick := seenBy_same (·.wick) (fun _ _ => rfl) d e
@[simp] theorem seenBy_reqs (d : Dev) (e : Entry) : (d.seenBy e).reqs = d.reqs := seenBy_same (·.reqs) (fun _ _ => rfl) d e
@[simp] theorem seenBy_xch (d : Dev) (e : Entry) : (d.seenBy e).xch = d.xch := seenBy_same (·.xch) (fun _ _ => rfl) d e
@[simp] theorem seenBy_train (d : Dev) (e : Entry) : (d.seenBy e).train = d.train := seenBy_same (·.train) (fun _ _ => rfl) d e
@[simp] theorem seenBy_clk (d : Dev) (e : Entry) : (d.seenBy e).clk = d.clk := seenBy_same (·.clk) (fun _ _ => rfl) d e
@[simp] theorem seenBy_ringRangeOk (d : Dev) (e : Entry) (p va n : Nat) : (d.seenBy e).ringRangeOk p va n = d.ringRangeOk p va n :=
  seenBy_same (·.ringRangeOk p va n) (fun _ _ => rfl) d e
@[simp] theorem seenBy_ringPieces (d : Dev) (e : Entry) (p va n : Nat) : (d.seenBy e).ringPieces p va n = d.ringPieces p va n :=
  seenBy_same (·.ringPieces p va n) (fun _ _ => rfl) d e
@[simp] theorem seenBy_pickSpindles (d : Dev) (e : Entry) (w : Nat) : (d.seenBy e).pickSpindles w = d.pickSpindles w :=
  seenBy_same (·.pickSpindles w) (fun _ _ => rfl) d e

theorem run_ok {d : Dev} {c : CmdRef} {e : Entry} {m : Run Counts} {k : Counts} {x : Ctx}
    (h : m (.start d c e) = .ok k x) : d.run c e m = d.ranOk c e k x := by
  simp [Dev.run, h]

theorem run_error {d : Dev} {c : CmdRef} {e : Entry} {m : Run Counts} {f : Fail} {x : Ctx}
    (h : m (.start d c e) = .error f x) : d.run c e m = d.ranFail c e f x := by
  simp [Dev.run, h]

/-- R254: a table-changing command runs on the block with what the waiting ones take taken. -/
theorem runClaimed_ok {d : Dev} {c : CmdRef} {e : Entry} {m : Run Counts} {k : Counts} {x : Ctx}
    (h : m (.start d.claimed c e) = .ok k x) : d.runClaimed c e m = d.ranOk c e k x := by
  simp [Dev.runClaimed, h]

theorem runClaimed_error {d : Dev} {c : CmdRef} {e : Entry} {m : Run Counts} {f : Fail} {x : Ctx}
    (h : m (.start d.claimed c e) = .error f x) : d.runClaimed c e m = d.ranFail c e f x := by
  simp [Dev.runClaimed, h]

theorem account_errDue (d : Dev) (q p : Nat) (f : Acct → Acct) : (d.account q p f).errDue = d.errDue := by
  unfold Dev.account; simp only; split <;> rfl

theorem countRun_errDue (d : Dev) (e : Entry) (r f n : Nat) : (d.countRun e r f n).errDue = d.errDue := by
  unfold Dev.countRun; split <;> rfl

@[simp] theorem ranOk_errDue (d : Dev) (c : CmdRef) (e : Entry) (k : Counts) (x : Ctx) :
    (d.ranOk c e k x).errDue = d.errDue := by
  simp only [Dev.ranOk, Dev.issuedRun, Dev.setPhase, Dev.modEntry, Dev.modQueue, Dev.setQueue, Dev.spend, Dev.useFree,
    countRun_errDue, account_errDue, Dev.correctAll, Dev.modMem]

/-- A meaning whose effect leaves no error waiting is that effect. -/
theorem runDev_calm {s : State} {f : Dev → Dev} (h : (f s.dev).errDue = []) : s.runDev f = .next (s.withDev (f s.dev)) := by
  simp [State.runDev, State.after, State.withDev, h]

/-- A meaning is its effect with its errors taken. -/
theorem runPut {s : State} {d : Dev} {f : Dev → Dev} (h : f s.dev = d) : s.runDev f = .next (s.put d) := by
  simp [State.runDev, State.after, State.put, State.withDev, h]

@[simp] theorem queue_setQueue_ne (d : Dev) {q p : Nat} (v : Queue) (h : p ≠ q) : (d.setQueue q v).queue p = d.queue p := by
  simp [Dev.queue, Dev.setQueue, tget_tput_ne _ _ _ h]

theorem queue_setQueue_of_ne (d : Dev) (q : Nat) {v : Queue} (h : v ≠ Queue.off) : (d.setQueue q v).queue q = v := by
  simp [Dev.queue, Dev.setQueue, tget_tput_of_ne _ _ h]

theorem entries_ne_nil {k : Queue} {seq : Nat} {e : Entry} (h : k.entry seq = some e) : k.entries ≠ [] := by
  intro h'; simp [Queue.entry, h'] at h

theorem entry_seq {d : Dev} {c : CmdRef} {e : Entry} (h : d.entry c = some e) : e.hdr.seq = c.seq := by
  have := List.find?_some h; simpa using this

theorem queue_entry_modEntry {k : Queue} {seq : Nat} {e : Entry} {f : Entry → Entry} (hf : ∀ x, (f x).hdr.seq = x.hdr.seq)
    (h : k.entry seq = some e) : (k.modEntry seq f).entry seq = some (f e) := by
  unfold Queue.entry Queue.modEntry at *
  simp only
  generalize k.entries = l at h
  induction l with
  | nil => simp at h
  | cons a l ih =>
    simp only [List.map_cons, List.find?_cons] at h ⊢
    by_cases ha : a.hdr.seq == seq
    · simp [ha] at h; subst h; simp [ha, hf]
    · simp [ha] at h ⊢; simpa using ih h

/-- A packet reads as the function changed it. -/
theorem entry_modEntry {d : Dev} {c : CmdRef} {e : Entry} {f : Entry → Entry} (hf : ∀ x, (f x).hdr.seq = x.hdr.seq)
    (h : d.entry c = some e) : (d.modEntry c f).entry c = some (f e) := by
  unfold Dev.entry Dev.modEntry Dev.modQueue at *
  have h1 := queue_entry_modEntry hf h
  rw [queue_setQueue_of_ne]
  · exact h1
  · intro h2; replace h2 : (d.queue c.queue).modEntry c.seq f = Queue.off := h2; rw [h2] at h1; simp [Queue.entry, Queue.off] at h1

theorem entry_setPhase {d : Dev} {c : CmdRef} {e : Entry} (p : Phase) (h : d.entry c = some e) :
    (d.setPhase c p).entry c = some { e with phase := p } := entry_modEntry (fun _ => rfl) h

theorem account_q (d : Dev) (q p : Nat) (f : Acct → Acct) : (d.account q p f).qs.q = d.qs.q := by
  unfold Dev.account; simp only; split <;> rfl

theorem account_entry (d : Dev) (q p : Nat) (f : Acct → Acct) (c : CmdRef) : (d.account q p f).entry c = d.entry c := by
  simp [Dev.entry, Dev.queue, account_q]

theorem countRun_entry (d : Dev) (e : Entry) (r f n : Nat) (c : CmdRef) : (d.countRun e r f n).entry c = d.entry c := by
  unfold Dev.countRun; split <;> rfl

/-- R261: a run that ends well leaves its packet run, with what it made waiting for the commit point. -/
theorem ranOk_entry {d : Dev} {c : CmdRef} {e e₀ : Entry} {k : Counts} {x : Ctx} (h : d.entry c = some e₀) :
    (d.ranOk c e k x).entry c = some { e₀ with
      ce := e.ce || !x.ces.isEmpty, issued := true
      phase := .ran (runResult k (k.frozen e + Config.cycles d.free) (e.ce || !x.ces.isEmpty) x) } := by
  simp only [Dev.ranOk, Dev.issuedRun, Dev.spend, Dev.useFree, Dev.correctAll, Dev.modMem]
  refine (entry_setPhase _ (e := { e₀ with ce := e.ce || !x.ces.isEmpty, issued := true }) ?_).trans ?_
  · rw [countRun_entry]
    refine entry_modEntry (e := e₀) (f := fun e₁ => { e₁ with ce := e.ce || !x.ces.isEmpty, issued := true }) (fun _ => rfl) ?_
    rw [account_entry]; exact h
  · rfl

theorem runDev_ran {s : State} {c : CmdRef} {e : Entry} {k : Counts} {x : Ctx} {f : Dev → Dev} (hc : s.dev.errDue = [])
    (h : f s.dev = s.dev.ranOk c e k x) : s.runDev f = .next (s.ran c e k x) := by
  rw [runDev_calm (by simp [h, hc]), h]; rfl

end Sys2Proof.Machine
end

