-- ==== Sys2Proof/Laws/Memory.lean ====
section
/-! SUPPORT. The memories: every write keeps their canonical form, a byte reads as what was stored there, a store leaves every
other byte, and a read of n bytes is a read of each. -/

namespace Sys2Proof.Machine

/-! ### Memory operations keep the canonical form -/

theorem cellsOf_mem {a : Nat} {bs : List Byte} {p : Host.Cell} (h : p ∈ cellsOf a bs) :
    a ≤ p.1 ∧ p.1 < a + bs.length ∧ p.2 ≠ 0 := by
  induction bs generalizing a with
  | nil => simp [cellsOf] at h
  | cons b t ih =>
    simp only [cellsOf] at h
    simp only [List.length_cons]
    split at h
    · have := ih h; exact ⟨by omega, by omega, this.2.2⟩
    · rename_i hb
      rcases List.mem_cons.1 h with rfl | h
      · exact ⟨Nat.le_refl _, by simp, hb⟩
      · have := ih h; exact ⟨by omega, by omega, this.2.2⟩

theorem cellsOf_rising (a : Nat) (bs : List Byte) : (cellsOf a bs).Pairwise (fun x y => x.1 < y.1) := by
  induction bs generalizing a with
  | nil => simp [cellsOf]
  | cons b t ih =>
    simp only [cellsOf]
    split
    · exact ih _
    · refine List.pairwise_cons.2 ⟨fun p hp => ?_, ih _⟩
      have := cellsOf_mem hp
      show a < p.1
      omega

/-- Cells in rising order within a range keep the canonical form when they replace that range. -/
theorem tblWf_splice {m c : List Host.Cell} {a n : Nat} (hm : tblWf (0 : Byte) m = true)
    (hc : c.Pairwise (fun x y => x.1 < y.1)) (h : ∀ p ∈ c, a ≤ p.1 ∧ p.1 < a + n ∧ p.2 ≠ 0) :
    tblWf (0 : Byte) (splice m a n c) = true := by
  rw [tblWf_iff] at hm ⊢
  have hf : ∀ f : Host.Cell → Bool, (m.filter f).Pairwise (fun x y => x.1 < y.1) := fun f => hm.1.filter _
  unfold splice
  refine ⟨?_, ?_⟩
  · rw [List.append_assoc, List.pairwise_append, List.pairwise_append]
    refine ⟨hf _, ⟨hc, hf _, ?_⟩, ?_⟩
    · intro x hx y hy
      have h1 := h x hx
      have h2 := of_decide_eq_true (List.mem_filter.1 hy).2
      omega
    · intro x hx y hy
      have h1 := of_decide_eq_true (List.mem_filter.1 hx).2
      rcases List.mem_append.1 hy with hy | hy
      · have := h y hy; omega
      · have h2 := of_decide_eq_true (List.mem_filter.1 hy).2
        omega
  · intro p hp
    rcases List.mem_append.1 hp with hp | hp
    · rcases List.mem_append.1 hp with hp | hp
      · exact hm.2 p (List.mem_filter.1 hp).1
      · exact (h p hp).2.2
    · exact hm.2 p (List.mem_filter.1 hp).1

theorem tblWf_putBytes {m : List Host.Cell} (a : Nat) (bs : List Byte) (h : tblWf (0 : Byte) m = true) :
    tblWf (0 : Byte) (putBytes m a bs) = true :=
  tblWf_splice h (cellsOf_rising a bs) (fun _ hp => cellsOf_mem hp)

theorem tblWf_putCells {m : List Host.Cell} (a n : Nat) (c : List Host.Cell) (h : tblWf (0 : Byte) m = true) :
    tblWf (0 : Byte) (putCells m a n c) = true := by
  unfold putCells
  split
  · rename_i hc
    unfold cellsWf at hc
    rw [Bool.and_eq_true, tblWf_iff, List.all_eq_true] at hc
    refine tblWf_splice h ?_ ?_
    · rw [List.pairwise_map]
      exact hc.1.1.imp (fun hxy => by simp; omega)
    · intro p hp
      obtain ⟨k, hk, rfl⟩ := List.mem_map.1 hp
      have h1 := of_decide_eq_true (hc.2 k hk)
      exact ⟨by simp, by simp; omega, hc.1.2 k hk⟩
  · exact h

/-- Memory at reset is in canonical form. -/
theorem memReset_wf : Mem.reset.wf := ⟨rfl, rfl⟩

/-! ### A byte after a store -/

theorem tget_append {α : Type} (d : α) (t u : Tbl α) (i : Nat) :
    tget d (t ++ u) i = if t.any (fun kv => kv.1 == i) then tget d t i else tget d u i := by
  induction t with
  | nil => simp
  | cons a t ih =>
    obtain ⟨k, v⟩ := a
    by_cases h : i = k
    · simp [tget, h]
    · have h' : (k == i) = false := by simpa using fun e => h e.symm
      rw [List.cons_append, List.any_cons]
      simp only [tget, h, if_false, ih, h', Bool.false_or]

/-- A key that a table does not list reads as the default. -/
theorem tget_not_mem {α : Type} (d : α) {t : Tbl α} {i : Nat} (h : ∀ kv ∈ t, kv.1 ≠ i) : tget d t i = d := by
  induction t with
  | nil => rfl
  | cons a t ih =>
    obtain ⟨k, v⟩ := a
    have := h (k, v) (by simp)
    simp only [tget]
    rw [if_neg (fun e => this e.symm)]
    exact ih (fun kv hkv => h kv (by simp [hkv]))

/-- A filter on keys keeps what the keys that it keeps read. -/
theorem tget_filter {α : Type} (d : α) (t : Tbl α) (p : Nat → Bool) (i : Nat) :
    tget d (t.filter (fun kv => p kv.1)) i = if p i then tget d t i else d := by
  induction t with
  | nil => simp [tget]
  | cons a t ih =>
    obtain ⟨k, v⟩ := a
    by_cases h : i = k
    · subst h
      by_cases hp : p i = true
      · simp [hp, tget]
      · have hp' : p i = false := by simpa using hp
        simp only [List.filter_cons, hp']
        simpa [hp'] using ih
    · by_cases hp : p k = true
      · simp [hp, tget, h, ih]
      · simp [hp, tget, h, ih]

theorem tget_cellsOf (a : Nat) (bs : List Byte) (i : Nat) :
    tget (0 : Byte) (cellsOf a bs) i = if a ≤ i ∧ i < a + bs.length then bs.getD (i - a) 0 else 0 := by
  induction bs generalizing a with
  | nil => simp [cellsOf, tget]
  | cons b t ih =>
    simp only [cellsOf, List.length_cons]
    by_cases hi : i = a
    · subst hi
      split
      · rename_i hb
        rw [ih, if_neg (by omega), if_pos (by omega)]; simp [hb]
      · rw [if_pos (by omega)]; simp [tget]
    · have e : (b :: t).getD (i - a) 0 = t.getD (i - (a + 1)) 0 ∨ i < a := by
        by_cases h : i < a
        · exact .inr h
        · left
          rw [show i - a = (i - (a + 1)) + 1 by omega]; simp
      have step : tget (0 : Byte) (cellsOf (a + 1) t) i =
          if a ≤ i ∧ i < a + (t.length + 1) then (b :: t).getD (i - a) 0 else 0 := by
        rw [ih]
        by_cases h : a + 1 ≤ i ∧ i < a + 1 + t.length
        · rw [if_pos h, if_pos (by omega)]
          rcases e with e | e
          · exact e.symm
          · omega
        · rw [if_neg h, if_neg (by omega)]
      split
      · exact step
      · simp only [tget]; rw [if_neg hi]; exact step

/-- A byte after bytes were stored: theirs where they lie, and as before elsewhere. -/
theorem getByte_putBytes (m : List Host.Cell) (a : Nat) (bs : List Byte) (i : Nat) :
    getByte (putBytes m a bs) i = if a ≤ i ∧ i < a + bs.length then bs.getD (i - a) 0 else getByte m i := by
  unfold getByte putBytes splice
  rw [tget_append, tget_append]
  have h1 := tget_filter (0 : Byte) m (fun k => decide (k < a)) i
  have h2 := tget_filter (0 : Byte) m (fun k => decide (a + bs.length ≤ k)) i
  by_cases hr : a ≤ i ∧ i < a + bs.length
  · rw [if_pos hr]
    have n1 : (m.filter (fun kv => decide (kv.1 < a))).any (fun kv => kv.1 == i) = false := by
      simp only [List.any_eq_false, List.mem_filter, decide_eq_true_eq]
      rintro kv ⟨_, hk⟩ h
      have := eq_of_beq h; omega
    rw [List.any_append, n1, Bool.false_or]
    simp only [Bool.false_eq_true, if_false]
    split
    · rw [tget_cellsOf, if_pos hr]
    · rename_i hn
      rw [h2, if_neg (by simp; omega)]
      have := tget_cellsOf a bs i
      rw [if_pos hr] at this
      rw [← this]
      refine (tget_not_mem _ ?_).symm
      intro kv hkv e
      simp only [List.any_eq_true, not_exists, not_and] at hn
      exact hn kv hkv (by simp [e])
  · rw [if_neg hr]
    have n2 : (cellsOf a bs).any (fun kv => kv.1 == i) = false := by
      simp only [List.any_eq_false]
      intro kv hkv h
      have := cellsOf_mem hkv
      have := eq_of_beq h
      omega
    rw [List.any_append, n2, Bool.or_false]
    by_cases hl : i < a
    · split
      · rw [h1, if_pos (by simpa using hl)]
      · rename_i hc
        rw [h2, if_neg (by simp; omega)]
        refine (tget_not_mem _ ?_).symm
        intro kv hkv e
        simp only [List.any_eq_true, List.mem_filter, not_exists, not_and] at hc
        exact hc kv ⟨hkv, by simp; omega⟩ (by simp [e])
    · have n1 : (m.filter (fun kv => decide (kv.1 < a))).any (fun kv => kv.1 == i) = false := by
        simp only [List.any_eq_false, List.mem_filter, decide_eq_true_eq]
        rintro kv ⟨_, hk⟩ h
        have := eq_of_beq h; omega
      rw [n1]; simp only [Bool.false_eq_true, if_false]
      rw [h2, if_pos (by simp; omega)]

/-! ### A read of several bytes -/

theorem takeBytes_eq (n a : Nat) {t : List Host.Cell} (hs : t.Pairwise (fun x y => x.1 < y.1)) (ha : ∀ kv ∈ t, a ≤ kv.1) :
    takeBytes n a t = (List.range' a n).map (fun i => tget (0 : Byte) t i) := by
  induction n generalizing a t with
  | zero => simp [takeBytes]
  | succ n ih =>
    rw [List.range'_succ, List.map_cons]
    cases t with
    | nil => simp only [takeBytes, tget]; rw [ih (a + 1) List.Pairwise.nil (by simp)]; simp [tget]
    | cons c t =>
      obtain ⟨k, v⟩ := c
      have hc := List.pairwise_cons.1 hs
      simp only [takeBytes]
      split
      · rename_i e; subst e
        rw [ih (k + 1) hc.2 (fun kv hkv => hc.1 kv hkv)]
        simp only [tget, if_true, List.cons.injEq, true_and]
        refine List.map_congr_left (fun i hi => ?_)
        have := (List.mem_range'_1.1 hi).1
        rw [if_neg (by omega)]
      · rename_i e
        have hk : a ≤ k := ha (k, v) (by simp)
        rw [ih (a + 1) hs (by
          intro kv hkv
          rcases List.mem_cons.1 hkv with rfl | h
          · simp; omega
          · have := hc.1 kv h; omega)]
        congr 1
        simp only [tget]; rw [if_neg (by omega)]
        refine (tget_not_mem _ (fun kv hkv => ?_)).symm
        have := hc.1 kv hkv; omega

theorem dropBelow_eq (a : Nat) {t : List Host.Cell} (hs : t.Pairwise (fun x y => x.1 < y.1)) :
    (dropBelow a t).Pairwise (fun x y => x.1 < y.1) ∧ (∀ kv ∈ dropBelow a t, a ≤ kv.1) ∧
      ∀ i, a ≤ i → tget (0 : Byte) (dropBelow a t) i = tget (0 : Byte) t i := by
  induction t with
  | nil => exact ⟨List.Pairwise.nil, by simp [dropBelow], fun _ _ => rfl⟩
  | cons c t ih =>
    obtain ⟨k, v⟩ := c
    have hc := List.pairwise_cons.1 hs
    simp only [dropBelow]
    split
    · have := ih hc.2
      refine ⟨this.1, this.2.1, fun i hi => ?_⟩
      rw [this.2.2 i hi]; simp only [tget]; rw [if_neg (by omega)]
    · refine ⟨hs, ?_, fun _ _ => rfl⟩
      intro kv hkv
      rcases List.mem_cons.1 hkv with rfl | h
      · simp; omega
      · have := hc.1 kv h; omega

/-- In a memory in canonical form, a read of n bytes reads each of them. -/
theorem getBytes_eq {m : List Host.Cell} (a n : Nat) (h : tblWf (0 : Byte) m = true) :
    getBytes m a n = (List.range' a n).map (getByte m) := by
  have hs := ((tblWf_iff _ _).1 h).1
  obtain ⟨h1, h2, h3⟩ := dropBelow_eq a hs
  unfold getBytes
  rw [takeBytes_eq n a h1 h2]
  exact List.map_congr_left (fun i hi => h3 i (List.mem_range'_1.1 hi).1)

end Sys2Proof.Machine
end

