-- ==== Sys2Proof/Laws/Keeps.lean ====
section
/-! SUPPORT. What almost every effect keeps: standby power, the tick and its copies, and the canonical form of the memories and of the
register paths. The files Keeps* below this one say it of every function that an effect is made of. -/

namespace Sys2Proof.Machine

/-! ### The relation -/

/-- The memories and the register paths of a block are in canonical form. -/
abbrev Tidy (bytes host loc : List Host.Cell) (paths : Tbl PathRegs) : Prop :=
  tblWf (0 : Byte) bytes = true ∧ tblWf (0 : Byte) host = true ∧ tblWf (0 : Byte) loc = true ∧ tblWf PathRegs.reset paths = true

/-- What a block `d` shares with the block `d₀` that it came from. -/
def KeepsAs (d₀ : Dev) (standby : Bool) (tick : Nat) (copies : List Nat) (bytes host loc : List Host.Cell) (paths : Tbl PathRegs) : Prop :=
  standby = d₀.clk.standby ∧ tick = d₀.clk.tick ∧ copies = d₀.clk.copies ∧
    (Tidy d₀.mem.bytes d₀.mem.host d₀.lamp.localMem d₀.paths → Tidy bytes host loc paths)

/-- `d` has the standby power and the tick of `d₀`, and is in canonical form if `d₀` is. -/
def Keeps (d₀ d : Dev) : Prop := KeepsAs d₀ d.clk.standby d.clk.tick d.clk.copies d.mem.bytes d.mem.host d.lamp.localMem d.paths

theorem keeps_refl (d : Dev) : Keeps d d := ⟨rfl, rfl, rfl, fun h => h⟩

theorem keeps_trans {a b c : Dev} (h1 : Keeps a b) (h2 : Keeps b c) : Keeps a c :=
  ⟨h2.1.trans h1.1, h2.2.1.trans h1.2.1, h2.2.2.1.trans h1.2.2.1, fun h => h2.2.2.2 (h1.2.2.2 h)⟩

theorem keeps_mk (d₀ : Dev) (clk qs sp mem parts wick reqs links xch train lamp power paths errDue free) :
    Keeps d₀ ⟨clk, qs, sp, mem, parts, wick, reqs, links, xch, train, lamp, power, paths, errDue, free⟩ ↔
      KeepsAs d₀ clk.standby clk.tick clk.copies mem.bytes mem.host lamp.localMem paths := Iff.rfl

theorem keepsAs_iff (d₀ d : Dev) :
    KeepsAs d₀ d.clk.standby d.clk.tick d.clk.copies d.mem.bytes d.mem.host d.lamp.localMem d.paths ↔ Keeps d₀ d := Iff.rfl

/-- A change of memory that keeps the canonical form. -/
theorem keeps_mem {d₀ d : Dev} (h : Keeps d₀ d) (f : Mem → Mem)
    (hb : tblWf (0 : Byte) d.mem.bytes = true → tblWf (0 : Byte) (f d.mem).bytes = true)
    (hh : tblWf (0 : Byte) d.mem.host = true → tblWf (0 : Byte) (f d.mem).host = true) : Keeps d₀ (d.modMem f) :=
  ⟨h.1, h.2.1, h.2.2.1, fun w => let u := h.2.2.2 w; ⟨hb u.1, hh u.2.1, u.2.2⟩⟩

theorem keeps_of_eq {d₀ d d' : Dev} (h : Keeps d₀ d) (h1 : d'.clk = d.clk) (h2 : d'.mem = d.mem) (h3 : d'.lamp = d.lamp)
    (h4 : d'.paths = d.paths) : Keeps d₀ d' := by
  unfold Keeps; rw [h1, h2, h3, h4]; exact h

theorem keeps_ite {d₀ a b : Dev} {c : Prop} [Decidable c] (ha : Keeps d₀ a) (hb : Keeps d₀ b) : Keeps d₀ (if c then a else b) := by
  split
  · exact ha
  · exact hb

theorem keeps_foldl {α : Type} {d₀ d : Dev} {f : Dev → α → Dev} (l : List α) (h : Keeps d₀ d)
    (hf : ∀ d a, Keeps d₀ d → Keeps d₀ (f d a)) : Keeps d₀ (l.foldl f d) := by
  induction l generalizing d with
  | nil => exact h
  | cons a l ih => exact ih (hf d a h)

theorem keeps_fold_fst {α β : Type} {d₀ : Dev} {f : Dev × β → α → Dev × β} {x : Dev × β} (l : List α) (h : Keeps d₀ x.1)
    (hf : ∀ x a, Keeps d₀ x.1 → Keeps d₀ (f x a).1) : Keeps d₀ (l.foldl f x).1 := by
  induction l generalizing x with
  | nil => exact h
  | cons a l ih => exact ih (hf x a h)

theorem keeps_fold_snd {α β : Type} {d₀ : Dev} {f : β × Dev → α → β × Dev} {x : β × Dev} (l : List α) (h : Keeps d₀ x.2)
    (hf : ∀ x a, Keeps d₀ x.2 → Keeps d₀ (f x a).2) : Keeps d₀ (l.foldl f x).2 := by
  induction l generalizing x with
  | nil => exact h
  | cons a l ih => exact ih (hf x a h)

end Sys2Proof.Machine
end

