-- ==== Sys2Proof/Laws/KeepsOps.lean ====
section
/-! SUPPORT. What `Keeps` says of the functions of the operations, messages and engines: one lemma each. -/

set_option linter.all false

namespace Sys2Proof.Machine

/-! ### Ops -/

theorem keeps_setQueue {d₀ : Dev} (d : Dev) (q : Nat) (v : Queue) (h : Keeps d₀ d) :
    Keeps d₀ (Dev.setQueue d q v) := by
  unfold Dev.setQueue; try dsimp only
  (with_reducible (repeat' first | assumption | split | refine keeps_foldl _ ?_ (fun _ _ _ => ?_))) <;>
      simp (maxDischargeDepth := 100) only [*, keeps_ite, keeps_mk, keepsAs_iff]

theorem keeps_modQueue {d₀ : Dev} (d : Dev) (q : Nat) (f : Queue → Queue) (h : Keeps d₀ d) :
    Keeps d₀ (Dev.modQueue d q f) := by
  unfold Dev.modQueue; try dsimp only
  (with_reducible (repeat' first | assumption | apply keeps_setQueue | split | refine keeps_foldl _ ?_ (fun _ _ _ => ?_))) <;> simp (maxDischargeDepth := 100) only [*, keeps_ite, keeps_mk, keepsAs_iff, keeps_setQueue]

theorem keeps_setPart {d₀ : Dev} (d : Dev) (p : Nat) (v : Partition) (h : Keeps d₀ d) :
    Keeps d₀ (Dev.setPart d p v) := by
  unfold Dev.setPart; try dsimp only
  (with_reducible (repeat' first | assumption | split | refine keeps_foldl _ ?_ (fun _ _ _ => ?_))) <;>
      simp (maxDischargeDepth := 100) only [*, keeps_ite, keeps_mk, keepsAs_iff]

theorem keeps_modPart {d₀ : Dev} (d : Dev) (p : Nat) (f : Partition → Partition) (h : Keeps d₀ d) :
    Keeps d₀ (Dev.modPart d p f) := by
  unfold Dev.modPart; try dsimp only
  (with_reducible (repeat' first | assumption | apply keeps_setPart | split | refine keeps_foldl _ ?_ (fun _ _ _ => ?_))) <;> simp (maxDischargeDepth := 100) only [*, keeps_ite, keeps_mk, keepsAs_iff, keeps_setPart]

theorem keeps_setSpin {d₀ : Dev} (d : Dev) (s : Nat) (v : Spindle) (h : Keeps d₀ d) :
    Keeps d₀ (Dev.setSpin d s v) := by
  unfold Dev.setSpin; try dsimp only
  (with_reducible (repeat' first | assumption | split | refine keeps_foldl _ ?_ (fun _ _ _ => ?_))) <;>
      simp (maxDischargeDepth := 100) only [*, keeps_ite, keeps_mk, keepsAs_iff]

theorem keeps_modSpin {d₀ : Dev} (d : Dev) (s : Nat) (f : Spindle → Spindle) (h : Keeps d₀ d) :
    Keeps d₀ (Dev.modSpin d s f) := by
  unfold Dev.modSpin; try dsimp only
  (with_reducible (repeat' first | assumption | apply keeps_setSpin | split | refine keeps_foldl _ ?_ (fun _ _ _ => ?_))) <;> simp (maxDischargeDepth := 100) only [*, keeps_ite, keeps_mk, keepsAs_iff, keeps_setSpin]

theorem keeps_modMem (d₀ d : Dev) (f : Mem → Mem) : Keeps d₀ (d.modMem f) ↔
    KeepsAs d₀ d.clk.standby d.clk.tick d.clk.copies (f d.mem).bytes (f d.mem).host d.lamp.localMem d.paths := Iff.rfl

theorem keeps_useFree {d₀ : Dev} (d : Dev) (h : Keeps d₀ d) :
    Keeps d₀ (Dev.useFree d).2 := by
  unfold Dev.useFree; try dsimp only
  (with_reducible (repeat' first | assumption | split | refine keeps_foldl _ ?_ (fun _ _ _ => ?_))) <;>
      simp (maxDischargeDepth := 100) only [*, keeps_ite, keeps_mk, keepsAs_iff]

theorem keeps_setToken {d₀ : Dev} (d : Dev) (set t v : Nat) (h : Keeps d₀ d) :
    Keeps d₀ (Dev.setToken d set t v) := by
  unfold Dev.setToken; try dsimp only
  (with_reducible (repeat' first | assumption | split | refine keeps_foldl _ ?_ (fun _ _ _ => ?_))) <;>
      simp (maxDischargeDepth := 100) only [*, keeps_ite, keeps_mk, keepsAs_iff]

theorem keeps_signal {d₀ : Dev} (d : Dev) (set t v : Nat) (h : Keeps d₀ d) :
    Keeps d₀ (Dev.signal d set t v) := by
  unfold Dev.signal; try dsimp only
  (with_reducible (repeat' first | assumption | apply keeps_setToken | split | refine keeps_foldl _ ?_ (fun _ _ _ => ?_))) <;> simp (maxDischargeDepth := 100) only [*, keeps_ite, keeps_mk, keepsAs_iff, keeps_setToken]

theorem keeps_modEntry {d₀ : Dev} (d : Dev) (c : CmdRef) (f : Entry → Entry) (h : Keeps d₀ d) :
    Keeps d₀ (Dev.modEntry d c f) := by
  unfold Dev.modEntry; try dsimp only
  (with_reducible (repeat' first | assumption | apply keeps_modQueue | split | refine keeps_foldl _ ?_ (fun _ _ _ => ?_))) <;> simp (maxDischargeDepth := 100) only [*, keeps_ite, keeps_mk, keepsAs_iff, keeps_modQueue]

theorem keeps_setPhase {d₀ : Dev} (d : Dev) (c : CmdRef) (p : Phase) (h : Keeps d₀ d) :
    Keeps d₀ (Dev.setPhase d c p) := by
  unfold Dev.setPhase; try dsimp only
  (with_reducible (repeat' first | assumption | apply keeps_modEntry | split | refine keeps_foldl _ ?_ (fun _ _ _ => ?_))) <;> simp (maxDischargeDepth := 100) only [*, keeps_ite, keeps_mk, keepsAs_iff, keeps_modEntry]

theorem keeps_mapEntries {d₀ : Dev} (d : Dev) (f : Entry → Entry) (h : Keeps d₀ d) :
    Keeps d₀ (Dev.mapEntries d f) := by
  unfold Dev.mapEntries; try dsimp only
  (with_reducible (repeat' first | assumption | split | refine keeps_foldl _ ?_ (fun _ _ _ => ?_))) <;>
      simp (maxDischargeDepth := 100) only [*, keeps_ite, keeps_mk, keepsAs_iff]

theorem keeps_latchFault {d₀ : Dev} (d : Dev) (seq : Nat) (l : FaultInfo) (h : Keeps d₀ d) :
    Keeps d₀ (Dev.latchFault d seq l) := by
  unfold Dev.latchFault; try dsimp only
  (with_reducible (repeat' first | assumption | apply keeps_modPart | split | refine keeps_foldl _ ?_ (fun _ _ _ => ?_))) <;> simp (maxDischargeDepth := 100) only [*, keeps_ite, keeps_mk, keepsAs_iff, keeps_modPart]

theorem keeps_modQAcct {d₀ : Dev} (d : Dev) (q : Nat) (f : Acct → Acct) (h : Keeps d₀ d) :
    Keeps d₀ (Dev.modQAcct d q f) := by
  unfold Dev.modQAcct; try dsimp only
  (with_reducible (repeat' first | assumption | split | refine keeps_foldl _ ?_ (fun _ _ _ => ?_))) <;>
      simp (maxDischargeDepth := 100) only [*, keeps_ite, keeps_mk, keepsAs_iff]

theorem keeps_account {d₀ : Dev} (d : Dev) (q part : Nat) (f : Acct → Acct) (h : Keeps d₀ d) :
    Keeps d₀ (Dev.account d q part f) := by
  unfold Dev.account; try dsimp only
  (with_reducible (repeat' first | assumption | apply keeps_modPart | apply keeps_modQAcct | split | refine keeps_foldl _ ?_ (fun _ _ _ => ?_))) <;> simp (maxDischargeDepth := 100) only [*, keeps_ite, keeps_mk, keepsAs_iff, keeps_modPart, keeps_modQAcct]

theorem keeps_spend {d₀ : Dev} (d : Dev) (e : Entry) (least : Nat) (h : Keeps d₀ d) :
    Keeps d₀ (Dev.spend d e least).2 := by
  unfold Dev.spend; try dsimp only
  (with_reducible (repeat' first | assumption | apply keeps_account | apply keeps_useFree | split | refine keeps_foldl _ ?_ (fun _ _ _ => ?_))) <;> simp (maxDischargeDepth := 100) only [*, keeps_ite, keeps_mk, keepsAs_iff, keeps_account, keeps_useFree]

@[simp] theorem correct_bytes (m : Mem) (a : Nat) : (m.correct a).bytes = m.bytes := by
  unfold Mem.correct; dsimp only; (repeat' split) <;> rfl
@[simp] theorem correct_host (m : Mem) (a : Nat) : (m.correct a).host = m.host := by
  unfold Mem.correct; dsimp only; (repeat' split) <;> rfl
@[simp] theorem corrects_bytes (l : List Nat) (m : Mem) : (l.foldl Mem.correct m).bytes = m.bytes := by
  induction l generalizing m with
  | nil => rfl
  | cons a l ih => simp [ih]
@[simp] theorem corrects_host (l : List Nat) (m : Mem) : (l.foldl Mem.correct m).host = m.host := by
  induction l generalizing m with
  | nil => rfl
  | cons a l ih => simp [ih]
@[simp] theorem noteUe_bytes (m : Mem) (a : Nat) : (m.noteUe a).bytes = m.bytes := by
  unfold Mem.noteUe; (repeat' split) <;> rfl
@[simp] theorem noteUe_host (m : Mem) (a : Nat) : (m.noteUe a).host = m.host := by
  unfold Mem.noteUe; (repeat' split) <;> rfl

theorem keeps_correctAll {d₀ : Dev} (d : Dev) (sectors : List Nat) (h : Keeps d₀ d)
     :
    Keeps d₀ (d.correctAll sectors) := by
  simpa only [Dev.correctAll, keeps_modMem, corrects_bytes, corrects_host, keepsAs_iff] using h

theorem keeps_due {d₀ : Dev} (d : Dev) (e : ErrorInfo) (h : Keeps d₀ d) :
    Keeps d₀ (Dev.due d e) := by
  unfold Dev.due; try dsimp only
  (with_reducible (repeat' first | assumption | split | refine keeps_foldl _ ?_ (fun _ _ _ => ?_))) <;>
      simp (maxDischargeDepth := 100) only [*, keeps_ite, keeps_mk, keepsAs_iff]

theorem keeps_abortChain {d₀ : Dev} (d : Dev) (c : CmdRef) (chain : Option Nat) (h : Keeps d₀ d) :
    Keeps d₀ (Dev.abortChain d c chain) := by
  unfold Dev.abortChain; try dsimp only
  (with_reducible (repeat' first | assumption | apply keeps_mapEntries | split | refine keeps_foldl _ ?_ (fun _ _ _ => ?_))) <;> simp (maxDischargeDepth := 100) only [*, keeps_ite, keeps_mk, keepsAs_iff, keeps_mapEntries]

theorem keeps_giveUp {d₀ : Dev} (d : Dev) (e : Entry) (h : Keeps d₀ d) :
    Keeps d₀ (Dev.giveUp d e) := by
  unfold Dev.giveUp; try dsimp only
  (with_reducible (repeat' first | assumption | apply keeps_modSpin | split | refine keeps_foldl _ ?_ (fun _ _ _ => ?_))) <;> simp (maxDischargeDepth := 100) only [*, keeps_ite, keeps_mk, keepsAs_iff, keeps_modSpin]

theorem keeps_failEntry {d₀ : Dev} (d : Dev) (c : CmdRef) (e : Entry) (f : Fail) (cycles : Nat) (h : Keeps d₀ d) :
    Keeps d₀ (Dev.failEntry d c e f cycles) := by
  unfold Dev.failEntry; try dsimp only
  (with_reducible (repeat' first | assumption | apply keeps_abortChain | apply keeps_due | apply keeps_giveUp | apply keeps_latchFault | apply keeps_modMem | apply keeps_setPhase | split | refine keeps_foldl _ ?_ (fun _ _ _ => ?_))) <;> simp (maxDischargeDepth := 100) only [*, keeps_ite, keeps_mk, keepsAs_iff, keeps_abortChain, keeps_due, keeps_giveUp, keeps_latchFault, keeps_modMem, keeps_setPhase, noteUe_bytes, noteUe_host]

theorem keeps_issuedRun {d₀ : Dev} (d : Dev) (c : CmdRef) (e : Entry) (x : Ctx) (least : Nat) (h : Keeps d₀ d) :
    Keeps d₀ (Dev.issuedRun d c e x least).2.2 := by
  unfold Dev.issuedRun; try dsimp only
  (with_reducible (repeat' first | assumption | apply keeps_correctAll | apply keeps_modEntry | apply keeps_spend | split | refine keeps_foldl _ ?_ (fun _ _ _ => ?_))) <;> simp (maxDischargeDepth := 100) only [*, keeps_ite, keeps_mk, keepsAs_iff, keeps_correctAll, keeps_modEntry, keeps_spend]

theorem keeps_countRun {d₀ : Dev} (d : Dev) (e : Entry) (rows frozen cycles : Nat) (h : Keeps d₀ d) :
    Keeps d₀ (Dev.countRun d e rows frozen cycles) := by
  unfold Dev.countRun; try dsimp only
  (with_reducible (repeat' first | assumption | apply keeps_modSpin | split | refine keeps_foldl _ ?_ (fun _ _ _ => ?_))) <;> simp (maxDischargeDepth := 100) only [*, keeps_ite, keeps_mk, keepsAs_iff, keeps_modSpin]

theorem keeps_ranOk {d₀ : Dev} (d : Dev) (c : CmdRef) (e : Entry) (k : Counts) (x : Ctx) (h : Keeps d₀ d) :
    Keeps d₀ (Dev.ranOk d c e k x) := by
  unfold Dev.ranOk; try dsimp only
  (with_reducible (repeat' first | assumption | apply keeps_countRun | apply keeps_issuedRun | apply keeps_setPhase | split | refine keeps_foldl _ ?_ (fun _ _ _ => ?_))) <;> simp (maxDischargeDepth := 100) only [*, keeps_ite, keeps_mk, keepsAs_iff, keeps_countRun, keeps_issuedRun, keeps_setPhase]

theorem keeps_ranFail {d₀ : Dev} (d : Dev) (c : CmdRef) (e : Entry) (f : Fail) (x : Ctx) (h : Keeps d₀ d) :
    Keeps d₀ (Dev.ranFail d c e f x) := by
  unfold Dev.ranFail; try dsimp only
  (with_reducible (repeat' first | assumption | apply keeps_countRun | apply keeps_failEntry | apply keeps_issuedRun | apply keeps_useFree | split | refine keeps_foldl _ ?_ (fun _ _ _ => ?_))) <;> simp (maxDischargeDepth := 100) only [*, keeps_ite, keeps_mk, keepsAs_iff, keeps_countRun, keeps_failEntry, keeps_issuedRun, keeps_useFree]

theorem keeps_keepOld {d₀ : Dev} (d : Dev) (c : Option CmdRef) (rs : List (Nat × Nat)) (h : Keeps d₀ d) :
    Keeps d₀ (Dev.keepOld d c rs) := by
  unfold Dev.keepOld; try dsimp only
  (with_reducible (repeat' first | assumption | apply keeps_modMem | split | refine keeps_foldl _ ?_ (fun _ _ _ => ?_))) <;> simp (maxDischargeDepth := 100) only [*, keeps_ite, keeps_mk, keepsAs_iff, keeps_modMem]

theorem keeps_refuse {d₀ : Dev} (d : Dev) (c : CmdRef) (e : Entry) (status : Nat) (h : Keeps d₀ d) :
    Keeps d₀ (Dev.refuse d c e status) := by
  unfold Dev.refuse; try dsimp only
  (with_reducible (repeat' first | assumption | apply keeps_ranFail | split | refine keeps_foldl _ ?_ (fun _ _ _ => ?_))) <;> simp (maxDischargeDepth := 100) only [*, keeps_ite, keeps_mk, keepsAs_iff, keeps_ranFail]

theorem keeps_run {d₀ : Dev} (d : Dev) (c : CmdRef) (e : Entry) (m : Run Counts) (h : Keeps d₀ d) :
    Keeps d₀ (Dev.run d c e m) := by
  unfold Dev.run; try dsimp only
  (with_reducible (repeat' first | assumption | apply keeps_ranFail | apply keeps_ranOk | split | refine keeps_foldl _ ?_ (fun _ _ _ => ?_))) <;> simp (maxDischargeDepth := 100) only [*, keeps_ite, keeps_mk, keepsAs_iff, keeps_ranFail, keeps_ranOk]

theorem keeps_onPacket {d₀ : Dev} (d : Dev) (c : CmdRef) (f : Entry → Dev) (h : Keeps d₀ d)
    (hf : ∀ e, Keeps d₀ (f e)) :
    Keeps d₀ (d.onPacket c f) := by
  unfold Dev.onPacket; (repeat' split) <;> first | exact h | exact hf _

/-! ### Msg -/

theorem keeps_modLinks {d₀ : Dev} (d : Dev) (f : Links → Links) (h : Keeps d₀ d) :
    Keeps d₀ (Dev.modLinks d f) := by
  unfold Dev.modLinks; try dsimp only
  (with_reducible (repeat' first | assumption | split | refine keeps_foldl _ ?_ (fun _ _ _ => ?_))) <;>
      simp (maxDischargeDepth := 100) only [*, keeps_ite, keeps_mk, keepsAs_iff]

theorem keeps_modPort {d₀ : Dev} (d : Dev) (j : Nat) (f : Port → Port) (h : Keeps d₀ d) :
    Keeps d₀ (Dev.modPort d j f) := by
  unfold Dev.modPort; try dsimp only
  (with_reducible (repeat' first | assumption | apply keeps_modLinks | split | refine keeps_foldl _ ?_ (fun _ _ _ => ?_))) <;> simp (maxDischargeDepth := 100) only [*, keeps_ite, keeps_mk, keepsAs_iff, keeps_modLinks]

theorem keeps_countDrop {d₀ : Dev} (d : Dev) (dst : Nat) (h : Keeps d₀ d) :
    Keeps d₀ (Dev.countDrop d dst) := by
  unfold Dev.countDrop; try dsimp only
  (with_reducible (repeat' first | assumption | apply keeps_modPort | split | refine keeps_foldl _ ?_ (fun _ _ _ => ?_))) <;> simp (maxDischargeDepth := 100) only [*, keeps_ite, keeps_mk, keepsAs_iff, keeps_modPort]

theorem keeps_newMsg {d₀ : Dev} (d : Dev) (dst : Nat) (body : MsgBody) (h : Keeps d₀ d) :
    Keeps d₀ (Dev.newMsg d dst body).2 := by
  unfold Dev.newMsg; try dsimp only
  (with_reducible (repeat' first | assumption | apply keeps_modLinks | split | refine keeps_foldl _ ?_ (fun _ _ _ => ?_))) <;> simp (maxDischargeDepth := 100) only [*, keeps_ite, keeps_mk, keepsAs_iff, keeps_modLinks]

theorem keeps_giveFlits {d₀ : Dev} (d : Dev) (j vc cls n : Nat) (h : Keeps d₀ d) :
    Keeps d₀ (Dev.giveFlits d j vc cls n) := by
  unfold Dev.giveFlits; try dsimp only
  (with_reducible (repeat' first | assumption | apply keeps_modPort | split | refine keeps_foldl _ ?_ (fun _ _ _ => ?_))) <;> simp (maxDischargeDepth := 100) only [*, keeps_ite, keeps_mk, keepsAs_iff, keeps_modPort]

theorem keeps_leave {d₀ : Dev} (d : Dev) (m : Message) (cls : Nat) (h : Keeps d₀ d) :
    Keeps d₀ (Dev.leave d m cls) := by
  unfold Dev.leave; try dsimp only
  (with_reducible (repeat' first | assumption | apply keeps_countDrop | apply keeps_giveFlits | apply keeps_modLinks | split | refine keeps_foldl _ ?_ (fun _ _ _ => ?_))) <;> simp (maxDischargeDepth := 100) only [*, keeps_ite, keeps_mk, keepsAs_iff, keeps_countDrop, keeps_giveFlits, keeps_modLinks]

theorem keeps_sendMsg {d₀ : Dev} (d : Dev) (cmd : Option CmdRef) (dst : Nat) (body : MsgBody) (h : Keeps d₀ d) :
    Keeps d₀ (Dev.sendMsg d cmd dst body) := by
  unfold Dev.sendMsg; try dsimp only
  (with_reducible (repeat' first | assumption | apply keeps_leave | apply keeps_modLinks | apply keeps_newMsg | split | refine keeps_foldl _ ?_ (fun _ _ _ => ?_))) <;> simp (maxDischargeDepth := 100) only [*, keeps_ite, keeps_mk, keepsAs_iff, keeps_leave, keeps_modLinks, keeps_newMsg]

theorem keeps_answer {d₀ : Dev} (d : Dev) (dst : Nat) (body : MsgBody) (h : Keeps d₀ d) :
    Keeps d₀ (Dev.answer d dst body) := by
  unfold Dev.answer; try dsimp only
  (with_reducible (repeat' first | assumption | apply keeps_leave | apply keeps_modLinks | apply keeps_newMsg | split | refine keeps_foldl _ ?_ (fun _ _ _ => ?_))) <;> simp (maxDischargeDepth := 100) only [*, keeps_ite, keeps_mk, keepsAs_iff, keeps_leave, keeps_modLinks, keeps_newMsg]

theorem keeps_ackMsg {d₀ : Dev} (d : Dev) (m : Message) (h : Keeps d₀ d) :
    Keeps d₀ (Dev.ackMsg d m) := by
  unfold Dev.ackMsg; try dsimp only
  (with_reducible (repeat' first | assumption | apply keeps_answer | split | refine keeps_foldl _ ?_ (fun _ _ _ => ?_))) <;> simp (maxDischargeDepth := 100) only [*, keeps_ite, keeps_mk, keepsAs_iff, keeps_answer]

theorem keeps_settled {d₀ : Dev} (d : Dev) (msg : Nat) (h : Keeps d₀ d) :
    Keeps d₀ (Dev.settled d msg) := by
  unfold Dev.settled; try dsimp only
  (with_reducible (repeat' first | assumption | apply keeps_modLinks | split | refine keeps_foldl _ ?_ (fun _ _ _ => ?_))) <;> simp (maxDischargeDepth := 100) only [*, keeps_ite, keeps_mk, keepsAs_iff, keeps_modLinks]

theorem keeps_raiseMsix {d₀ : Dev} (d : Dev) (v : Nat) (h : Keeps d₀ d) :
    Keeps d₀ (Dev.raiseMsix d v) := by
  unfold Dev.raiseMsix; try dsimp only
  (with_reducible (repeat' first | assumption | apply keeps_modLinks | split | refine keeps_foldl _ ?_ (fun _ _ _ => ?_))) <;> simp (maxDischargeDepth := 100) only [*, keeps_ite, keeps_mk, keepsAs_iff, keeps_modLinks]

theorem keeps_toHost {d₀ : Dev} (d : Dev) (b : MsgBody) (h : Keeps d₀ d) : Keeps d₀ (d.toHost b) := by
  unfold Dev.toHost; split
  · exact keeps_mem h _ (fun w => w) (fun w => tblWf_putBytes _ _ w)
  · exact keeps_raiseMsix _ _ h
  · exact h

theorem keeps_hostBound {d₀ : Dev} (d : Dev) (b : MsgBody) (h : Keeps d₀ d) :
    Keeps d₀ (Dev.hostBound d b) := by
  unfold Dev.hostBound; try dsimp only
  (with_reducible (repeat' first | assumption | apply keeps_modLinks | apply keeps_sendMsg | apply keeps_toHost | split | refine keeps_foldl _ ?_ (fun _ _ _ => ?_))) <;> simp (maxDischargeDepth := 100) only [*, keeps_ite, keeps_mk, keepsAs_iff, keeps_modLinks, keeps_sendMsg, keeps_toHost]

theorem keeps_hostResend {d₀ : Dev} (d : Dev) (h : Keeps d₀ d) : Keeps d₀ (d.hostResend) := by
  exact keeps_foldl _ (keeps_modLinks _ _ h) (fun _ _ hd => keeps_hostBound _ _ hd)

theorem keeps_hostLost {d₀ : Dev} (d : Dev) (m : Message) (h : Keeps d₀ d) :
    Keeps d₀ (Dev.hostLost d m) := by
  unfold Dev.hostLost; try dsimp only
  (with_reducible (repeat' first | assumption | apply keeps_hostResend | apply keeps_modLinks | split | refine keeps_foldl _ ?_ (fun _ _ _ => ?_))) <;> simp (maxDischargeDepth := 100) only [*, keeps_ite, keeps_mk, keepsAs_iff, keeps_hostResend, keeps_modLinks]

theorem keeps_hostForward {d₀ : Dev} (d : Dev) (m : Message) (h : Keeps d₀ d) :
    Keeps d₀ (Dev.hostForward d m) := by
  unfold Dev.hostForward; try dsimp only
  (with_reducible (repeat' first | assumption | apply keeps_ackMsg | apply keeps_modLinks | apply keeps_toHost | split | refine keeps_foldl _ ?_ (fun _ _ _ => ?_))) <;> simp (maxDischargeDepth := 100) only [*, keeps_ite, keeps_mk, keepsAs_iff, keeps_ackMsg, keeps_modLinks, keeps_toHost]

/-! ### Scoreboard -/

theorem keeps_joinChain {d₀ : Dev} (d : Dev) (c : CmdRef) (members : List Entry) (h : Keeps d₀ d) :
    Keeps d₀ (Dev.joinChain d c members) := by
  unfold Dev.joinChain; try dsimp only
  (with_reducible (repeat' first | assumption | apply keeps_mapEntries | split | refine keeps_foldl _ ?_ (fun _ _ _ => ?_))) <;> simp (maxDischargeDepth := 100) only [*, keeps_ite, keeps_mk, keepsAs_iff, keeps_mapEntries]

/-! ### MemCmd -/

theorem keeps_freeFrame {d₀ : Dev} (d : Dev) (part f : Nat) (h : Keeps d₀ d) :
    Keeps d₀ (Dev.freeFrame d part f) := by
  unfold Dev.freeFrame; try dsimp only
  (repeat' first | assumption | split | refine keeps_foldl _ ?_ (fun _ _ _ => ?_)) <;>
      simp (maxDischargeDepth := 100) only [*, keeps_ite, keeps_mk, keepsAs_iff, keeps_modMem, keeps_modPart]

/-! ### Vector -/

theorem keeps_vecContinue {d₀ : Dev} (d : Dev) (c : CmdRef) (e : Entry) (p : VecRun) (v : VecCtx) (x : Ctx) (h : Keeps d₀ d) :
    Keeps d₀ (vecContinue d c e p v x) := by
  unfold vecContinue; try dsimp only
  (with_reducible (repeat' first | assumption | apply keeps_countRun | apply keeps_issuedRun | apply keeps_modSpin | apply keeps_ranFail | apply keeps_ranOk | apply keeps_setPhase | split | refine keeps_foldl _ ?_ (fun _ _ _ => ?_))) <;> simp (maxDischargeDepth := 100) only [*, keeps_ite, keeps_mk, keepsAs_iff, keeps_countRun, keeps_issuedRun, keeps_modSpin, keeps_ranFail, keeps_ranOk, keeps_setPhase]

theorem keeps_doVecRun {d₀ : Dev} (d : Dev) (c : CmdRef) (h : Keeps d₀ d) :
    Keeps d₀ (doVecRun d c) := by
  unfold doVecRun; try dsimp only
  (with_reducible (repeat' first | assumption | refine keeps_onPacket _ _ _ ?_ (fun _ => ?_) | apply keeps_vecContinue | split | refine keeps_foldl _ ?_ (fun _ _ _ => ?_))) <;> simp (maxDischargeDepth := 100) only [*, keeps_ite, keeps_mk, keepsAs_iff, keeps_vecContinue]

theorem keeps_doTqPop {d₀ : Dev} (d : Dev) (c : CmdRef) (h : Keeps d₀ d) :
    Keeps d₀ (doTqPop d c) := by
  unfold doTqPop; try dsimp only
  (with_reducible (repeat' first | assumption | apply keeps_setSpin | apply keeps_vecContinue | split | refine keeps_foldl _ ?_ (fun _ _ _ => ?_))) <;> simp (maxDischargeDepth := 100) only [*, keeps_ite, keeps_mk, keepsAs_iff, keeps_setSpin, keeps_vecContinue]

theorem keeps_doTqPopTimeout {d₀ : Dev} (d : Dev) (c : CmdRef) (h : Keeps d₀ d) :
    Keeps d₀ (doTqPopTimeout d c) := by
  unfold doTqPopTimeout; try dsimp only
  (with_reducible (repeat' first | assumption | apply keeps_ranFail | split | refine keeps_foldl _ ?_ (fun _ _ _ => ?_))) <;> simp (maxDischargeDepth := 100) only [*, keeps_ite, keeps_mk, keepsAs_iff, keeps_ranFail]

theorem keeps_doVecTqFlush {d₀ : Dev} (d : Dev) (c : CmdRef) (h : Keeps d₀ d) :
    Keeps d₀ (doVecTqFlush d c) := by
  unfold doVecTqFlush; try dsimp only
  (with_reducible (repeat' first | assumption | refine keeps_onPacket _ _ _ ?_ (fun _ => ?_) | apply keeps_run | split | refine keeps_foldl _ ?_ (fun _ _ _ => ?_))) <;> simp (maxDischargeDepth := 100) only [*, keeps_ite, keeps_mk, keepsAs_iff, keeps_run]

/-! ### Wick -/

theorem keeps_onWickStep {d₀ : Dev} (d : Dev) (c : CmdRef) (want : Nat) (f : Entry → Nat → Nat → Run Counts) (h : Keeps d₀ d) :
    Keeps d₀ (Dev.onWickStep d c want f) := by
  unfold Dev.onWickStep; try dsimp only
  (with_reducible (repeat' first | assumption | refine keeps_onPacket _ _ _ ?_ (fun _ => ?_) | apply keeps_run | split | refine keeps_foldl _ ?_ (fun _ _ _ => ?_))) <;> simp (maxDischargeDepth := 100) only [*, keeps_ite, keeps_mk, keepsAs_iff, keeps_run]

theorem keeps_doStats {d₀ : Dev} (d : Dev) (c : CmdRef) (h : Keeps d₀ d) :
    Keeps d₀ (doStats d c) := by
  unfold doStats; try dsimp only
  (with_reducible (repeat' first | assumption | apply keeps_onWickStep | split | refine keeps_foldl _ ?_ (fun _ _ _ => ?_))) <;> simp (maxDischargeDepth := 100) only [*, keeps_ite, keeps_mk, keepsAs_iff, keeps_onWickStep]

theorem keeps_doStatsT {d₀ : Dev} (d : Dev) (c : CmdRef) (h : Keeps d₀ d) :
    Keeps d₀ (doStatsT d c) := by
  unfold doStatsT; try dsimp only
  (with_reducible (repeat' first | assumption | apply keeps_onWickStep | split | refine keeps_foldl _ ?_ (fun _ _ _ => ?_))) <;> simp (maxDischargeDepth := 100) only [*, keeps_ite, keeps_mk, keepsAs_iff, keeps_onWickStep]

theorem keeps_doStatsS {d₀ : Dev} (d : Dev) (c : CmdRef) (h : Keeps d₀ d) :
    Keeps d₀ (doStatsS d c) := by
  unfold doStatsS; try dsimp only
  (with_reducible (repeat' first | assumption | apply keeps_onWickStep | split | refine keeps_foldl _ ?_ (fun _ _ _ => ?_))) <;> simp (maxDischargeDepth := 100) only [*, keeps_ite, keeps_mk, keepsAs_iff, keeps_onWickStep]

theorem keeps_doGrad {d₀ : Dev} (d : Dev) (c : CmdRef) (h : Keeps d₀ d) :
    Keeps d₀ (doGrad d c) := by
  unfold doGrad; try dsimp only
  (with_reducible (repeat' first | assumption | apply keeps_onWickStep | split | refine keeps_foldl _ ?_ (fun _ _ _ => ?_))) <;> simp (maxDischargeDepth := 100) only [*, keeps_ite, keeps_mk, keepsAs_iff, keeps_onWickStep]

theorem keeps_doRelease {d₀ : Dev} (d : Dev) (c : CmdRef) (h : Keeps d₀ d) :
    Keeps d₀ (doRelease d c) := by
  unfold doRelease; try dsimp only
  (with_reducible (repeat' first | assumption | apply keeps_onWickStep | split | refine keeps_foldl _ ?_ (fun _ _ _ => ?_))) <;> simp (maxDischargeDepth := 100) only [*, keeps_ite, keeps_mk, keepsAs_iff, keeps_onWickStep]

/-! ### Engines -/

theorem keeps_runClaimed {d₀ : Dev} (d : Dev) (c : CmdRef) (e : Entry) (m : Run Counts) (h : Keeps d₀ d) :
    Keeps d₀ (Dev.runClaimed d c e m) := by
  unfold Dev.runClaimed; try dsimp only
  (with_reducible (repeat' first | assumption | apply keeps_ranFail | apply keeps_ranOk | split | refine keeps_foldl _ ?_ (fun _ _ _ => ?_))) <;> simp (maxDischargeDepth := 100) only [*, keeps_ite, keeps_mk, keepsAs_iff, keeps_ranFail, keeps_ranOk]

theorem keeps_onArray {d₀ : Dev} (d : Dev) (c : CmdRef) (f : Entry → Nat → Option (Run Counts)) (h : Keeps d₀ d) :
    Keeps d₀ (Dev.onArray d c f) := by
  unfold Dev.onArray; try dsimp only
  (with_reducible (repeat' first | assumption | refine keeps_onPacket _ _ _ ?_ (fun _ => ?_) | apply keeps_joinChain | apply keeps_refuse | apply keeps_run | split | refine keeps_foldl _ ?_ (fun _ _ _ => ?_))) <;> simp (maxDischargeDepth := 100) only [*, keeps_ite, keeps_mk, keepsAs_iff, keeps_joinChain, keeps_refuse, keeps_run]

theorem keeps_doArrMatmul {d₀ : Dev} (d : Dev) (c : CmdRef) (h : Keeps d₀ d) :
    Keeps d₀ (doArrMatmul d c) := by
  unfold doArrMatmul; try dsimp only
  (with_reducible (repeat' first | assumption | apply keeps_onArray | split | refine keeps_foldl _ ?_ (fun _ _ _ => ?_))) <;> simp (maxDischargeDepth := 100) only [*, keeps_ite, keeps_mk, keepsAs_iff, keeps_onArray]

theorem keeps_doArrStream {d₀ : Dev} (d : Dev) (c : CmdRef) (h : Keeps d₀ d) :
    Keeps d₀ (doArrStream d c) := by
  unfold doArrStream; try dsimp only
  (with_reducible (repeat' first | assumption | apply keeps_onArray | split | refine keeps_foldl _ ?_ (fun _ _ _ => ?_))) <;> simp (maxDischargeDepth := 100) only [*, keeps_ite, keeps_mk, keepsAs_iff, keeps_onArray]

theorem keeps_doArrConv {d₀ : Dev} (d : Dev) (c : CmdRef) (h : Keeps d₀ d) :
    Keeps d₀ (doArrConv d c) := by
  unfold doArrConv; try dsimp only
  (with_reducible (repeat' first | assumption | apply keeps_onArray | split | refine keeps_foldl _ ?_ (fun _ _ _ => ?_))) <;> simp (maxDischargeDepth := 100) only [*, keeps_ite, keeps_mk, keepsAs_iff, keeps_onArray]

theorem keeps_doArrShallow {d₀ : Dev} (d : Dev) (c : CmdRef) (h : Keeps d₀ d) :
    Keeps d₀ (doArrShallow d c) := by
  unfold doArrShallow; try dsimp only
  (with_reducible (repeat' first | assumption | apply keeps_onArray | split | refine keeps_foldl _ ?_ (fun _ _ _ => ?_))) <;> simp (maxDischargeDepth := 100) only [*, keeps_ite, keeps_mk, keepsAs_iff, keeps_onArray]

theorem keeps_doArrQuad {d₀ : Dev} (d : Dev) (c : CmdRef) (h : Keeps d₀ d) :
    Keeps d₀ (doArrQuad d c) := by
  unfold doArrQuad; try dsimp only
  (with_reducible (repeat' first | assumption | apply keeps_onArray | split | refine keeps_foldl _ ?_ (fun _ _ _ => ?_))) <;> simp (maxDischargeDepth := 100) only [*, keeps_ite, keeps_mk, keepsAs_iff, keeps_onArray]

theorem keeps_doArrAccZero {d₀ : Dev} (d : Dev) (c : CmdRef) (h : Keeps d₀ d) :
    Keeps d₀ (doArrAccZero d c) := by
  unfold doArrAccZero; try dsimp only
  (with_reducible (repeat' first | assumption | apply keeps_onArray | split | refine keeps_foldl _ ?_ (fun _ _ _ => ?_))) <;> simp (maxDischargeDepth := 100) only [*, keeps_ite, keeps_mk, keepsAs_iff, keeps_onArray]

theorem keeps_doArrAccLoad {d₀ : Dev} (d : Dev) (c : CmdRef) (h : Keeps d₀ d) :
    Keeps d₀ (doArrAccLoad d c) := by
  unfold doArrAccLoad; try dsimp only
  (with_reducible (repeat' first | assumption | apply keeps_onArray | split | refine keeps_foldl _ ?_ (fun _ _ _ => ?_))) <;> simp (maxDischargeDepth := 100) only [*, keeps_ite, keeps_mk, keepsAs_iff, keeps_onArray]

theorem keeps_doArrAccStore {d₀ : Dev} (d : Dev) (c : CmdRef) (h : Keeps d₀ d) :
    Keeps d₀ (doArrAccStore d c) := by
  unfold doArrAccStore; try dsimp only
  (with_reducible (repeat' first | assumption | apply keeps_onArray | split | refine keeps_foldl _ ?_ (fun _ _ _ => ?_))) <;> simp (maxDischargeDepth := 100) only [*, keeps_ite, keeps_mk, keepsAs_iff, keeps_onArray]

theorem keeps_doArrAccPost {d₀ : Dev} (d : Dev) (c : CmdRef) (h : Keeps d₀ d) :
    Keeps d₀ (doArrAccPost d c) := by
  unfold doArrAccPost; try dsimp only
  (with_reducible (repeat' first | assumption | apply keeps_onArray | split | refine keeps_foldl _ ?_ (fun _ _ _ => ?_))) <;> simp (maxDischargeDepth := 100) only [*, keeps_ite, keeps_mk, keepsAs_iff, keeps_onArray]

theorem keeps_doMemCopy {d₀ : Dev} (d : Dev) (c : CmdRef) (h : Keeps d₀ d) :
    Keeps d₀ (doMemCopy d c) := by
  unfold doMemCopy; try dsimp only
  (with_reducible (repeat' first | assumption | refine keeps_onPacket _ _ _ ?_ (fun _ => ?_) | apply keeps_run | split | refine keeps_foldl _ ?_ (fun _ _ _ => ?_))) <;> simp (maxDischargeDepth := 100) only [*, keeps_ite, keeps_mk, keepsAs_iff, keeps_run]

theorem keeps_doMemFill {d₀ : Dev} (d : Dev) (c : CmdRef) (h : Keeps d₀ d) :
    Keeps d₀ (doMemFill d c) := by
  unfold doMemFill; try dsimp only
  (with_reducible (repeat' first | assumption | refine keeps_onPacket _ _ _ ?_ (fun _ => ?_) | apply keeps_run | split | refine keeps_foldl _ ?_ (fun _ _ _ => ?_))) <;> simp (maxDischargeDepth := 100) only [*, keeps_ite, keeps_mk, keepsAs_iff, keeps_run]

theorem keeps_doMemAlloc {d₀ : Dev} (d : Dev) (c : CmdRef) (h : Keeps d₀ d) :
    Keeps d₀ (doMemAlloc d c) := by
  unfold doMemAlloc; try dsimp only
  (with_reducible (repeat' first | assumption | refine keeps_onPacket _ _ _ ?_ (fun _ => ?_) | apply keeps_runClaimed | split | refine keeps_foldl _ ?_ (fun _ _ _ => ?_))) <;> simp (maxDischargeDepth := 100) only [*, keeps_ite, keeps_mk, keepsAs_iff, keeps_runClaimed]

theorem keeps_doMemFree {d₀ : Dev} (d : Dev) (c : CmdRef) (h : Keeps d₀ d) :
    Keeps d₀ (doMemFree d c) := by
  unfold doMemFree; try dsimp only
  (with_reducible (repeat' first | assumption | refine keeps_onPacket _ _ _ ?_ (fun _ => ?_) | apply keeps_runClaimed | split | refine keeps_foldl _ ?_ (fun _ _ _ => ?_))) <;> simp (maxDischargeDepth := 100) only [*, keeps_ite, keeps_mk, keepsAs_iff, keeps_runClaimed]

theorem keeps_doMemMigrate {d₀ : Dev} (d : Dev) (c : CmdRef) (h : Keeps d₀ d) :
    Keeps d₀ (doMemMigrate d c) := by
  unfold doMemMigrate; try dsimp only
  (with_reducible (repeat' first | assumption | refine keeps_onPacket _ _ _ ?_ (fun _ => ?_) | apply keeps_runClaimed | split | refine keeps_foldl _ ?_ (fun _ _ _ => ?_))) <;> simp (maxDischargeDepth := 100) only [*, keeps_ite, keeps_mk, keepsAs_iff, keeps_runClaimed]

theorem keeps_doSeal {d₀ : Dev} (d : Dev) (c : CmdRef) (h : Keeps d₀ d) :
    Keeps d₀ (doSeal d c) := by
  unfold doSeal; try dsimp only
  (with_reducible (repeat' first | assumption | refine keeps_onPacket _ _ _ ?_ (fun _ => ?_) | apply keeps_runClaimed | split | refine keeps_foldl _ ?_ (fun _ _ _ => ?_))) <;> simp (maxDischargeDepth := 100) only [*, keeps_ite, keeps_mk, keepsAs_iff, keeps_runClaimed]

theorem keeps_doMap {d₀ : Dev} (d : Dev) (c : CmdRef) (h : Keeps d₀ d) :
    Keeps d₀ (doMap d c) := by
  unfold doMap; try dsimp only
  (with_reducible (repeat' first | assumption | refine keeps_onPacket _ _ _ ?_ (fun _ => ?_) | apply keeps_runClaimed | split | refine keeps_foldl _ ?_ (fun _ _ _ => ?_))) <;> simp (maxDischargeDepth := 100) only [*, keeps_ite, keeps_mk, keepsAs_iff, keeps_runClaimed]

theorem keeps_doUnmap {d₀ : Dev} (d : Dev) (c : CmdRef) (h : Keeps d₀ d) :
    Keeps d₀ (doUnmap d c) := by
  unfold doUnmap; try dsimp only
  (with_reducible (repeat' first | assumption | refine keeps_onPacket _ _ _ ?_ (fun _ => ?_) | apply keeps_runClaimed | split | refine keeps_foldl _ ?_ (fun _ _ _ => ?_))) <;> simp (maxDischargeDepth := 100) only [*, keeps_ite, keeps_mk, keepsAs_iff, keeps_runClaimed]

theorem keeps_doUnseal {d₀ : Dev} (d : Dev) (c : CmdRef) (h : Keeps d₀ d) :
    Keeps d₀ (doUnseal d c) := by
  unfold doUnseal; try dsimp only
  (with_reducible (repeat' first | assumption | refine keeps_onPacket _ _ _ ?_ (fun _ => ?_) | apply keeps_runClaimed | split | refine keeps_foldl _ ?_ (fun _ _ _ => ?_))) <;> simp (maxDischargeDepth := 100) only [*, keeps_ite, keeps_mk, keepsAs_iff, keeps_runClaimed]

theorem keeps_doWickDesc {d₀ : Dev} (d : Dev) (c : CmdRef) (h : Keeps d₀ d) :
    Keeps d₀ (doWickDesc d c) := by
  unfold doWickDesc; try dsimp only
  (with_reducible (repeat' first | assumption | refine keeps_onPacket _ _ _ ?_ (fun _ => ?_) | apply keeps_runClaimed | split | refine keeps_foldl _ ?_ (fun _ _ _ => ?_))) <;> simp (maxDischargeDepth := 100) only [*, keeps_ite, keeps_mk, keepsAs_iff, keeps_runClaimed]

theorem keeps_doWickDescRemove {d₀ : Dev} (d : Dev) (c : CmdRef) (h : Keeps d₀ d) :
    Keeps d₀ (doWickDescRemove d c) := by
  unfold doWickDescRemove; try dsimp only
  (with_reducible (repeat' first | assumption | refine keeps_onPacket _ _ _ ?_ (fun _ => ?_) | apply keeps_runClaimed | split | refine keeps_foldl _ ?_ (fun _ _ _ => ?_))) <;> simp (maxDischargeDepth := 100) only [*, keeps_ite, keeps_mk, keepsAs_iff, keeps_runClaimed]

theorem keeps_doWickTokmap {d₀ : Dev} (d : Dev) (c : CmdRef) (h : Keeps d₀ d) :
    Keeps d₀ (doWickTokmap d c) := by
  unfold doWickTokmap; try dsimp only
  (with_reducible (repeat' first | assumption | refine keeps_onPacket _ _ _ ?_ (fun _ => ?_) | apply keeps_runClaimed | split | refine keeps_foldl _ ?_ (fun _ _ _ => ?_))) <;> simp (maxDischargeDepth := 100) only [*, keeps_ite, keeps_mk, keepsAs_iff, keeps_runClaimed]

/-! ### Requests -/

theorem keeps_onRequest {d₀ : Dev} (d : Dev) (c : CmdRef) (f : Entry → Dev) (h : Keeps d₀ d)
    (hf : ∀ e, Keeps d₀ (f e)) :
    Keeps d₀ (d.onRequest c f) := by
  unfold Dev.onRequest; refine keeps_onPacket _ _ _ h (fun e => ?_); split <;> first | exact h | exact hf e

theorem keeps_doReqAdmit {d₀ : Dev} (d : Dev) (c : CmdRef) (h : Keeps d₀ d) :
    Keeps d₀ (doReqAdmit d c) := by
  unfold doReqAdmit; try dsimp only
  (with_reducible (repeat' first | assumption | refine keeps_onRequest _ _ _ ?_ (fun _ => ?_) | apply keeps_runClaimed | split | refine keeps_foldl _ ?_ (fun _ _ _ => ?_))) <;> simp (maxDischargeDepth := 100) only [*, keeps_ite, keeps_mk, keepsAs_iff, keeps_runClaimed]

theorem keeps_doPoolAdd {d₀ : Dev} (d : Dev) (c : CmdRef) (h : Keeps d₀ d) :
    Keeps d₀ (doPoolAdd d c) := by
  unfold doPoolAdd; try dsimp only
  (with_reducible (repeat' first | assumption | refine keeps_onRequest _ _ _ ?_ (fun _ => ?_) | apply keeps_runClaimed | split | refine keeps_foldl _ ?_ (fun _ _ _ => ?_))) <;> simp (maxDischargeDepth := 100) only [*, keeps_ite, keeps_mk, keepsAs_iff, keeps_runClaimed]

theorem keeps_doPoolRemove {d₀ : Dev} (d : Dev) (c : CmdRef) (h : Keeps d₀ d) :
    Keeps d₀ (doPoolRemove d c) := by
  unfold doPoolRemove; try dsimp only
  (with_reducible (repeat' first | assumption | refine keeps_onRequest _ _ _ ?_ (fun _ => ?_) | apply keeps_runClaimed | split | refine keeps_foldl _ ?_ (fun _ _ _ => ?_))) <;> simp (maxDischargeDepth := 100) only [*, keeps_ite, keeps_mk, keepsAs_iff, keeps_runClaimed]

theorem keeps_doReqRelease {d₀ : Dev} (d : Dev) (c : CmdRef) (h : Keeps d₀ d) :
    Keeps d₀ (doReqRelease d c) := by
  unfold doReqRelease; try dsimp only
  (with_reducible (repeat' first | assumption | refine keeps_onRequest _ _ _ ?_ (fun _ => ?_) | apply keeps_runClaimed | split | refine keeps_foldl _ ?_ (fun _ _ _ => ?_))) <;> simp (maxDischargeDepth := 100) only [*, keeps_ite, keeps_mk, keepsAs_iff, keeps_runClaimed]

theorem keeps_doOpen {d₀ : Dev} (d : Dev) (c : CmdRef) (h : Keeps d₀ d) :
    Keeps d₀ (doOpen d c) := by
  unfold doOpen; try dsimp only
  (with_reducible (repeat' first | assumption | refine keeps_onRequest _ _ _ ?_ (fun _ => ?_) | apply keeps_runClaimed | split | refine keeps_foldl _ ?_ (fun _ _ _ => ?_))) <;> simp (maxDischargeDepth := 100) only [*, keeps_ite, keeps_mk, keepsAs_iff, keeps_runClaimed]

theorem keeps_doPrefill {d₀ : Dev} (d : Dev) (c : CmdRef) (h : Keeps d₀ d) :
    Keeps d₀ (doPrefill d c) := by
  unfold doPrefill; try dsimp only
  (with_reducible (repeat' first | assumption | refine keeps_onRequest _ _ _ ?_ (fun _ => ?_) | apply keeps_runClaimed | split | refine keeps_foldl _ ?_ (fun _ _ _ => ?_))) <;> simp (maxDischargeDepth := 100) only [*, keeps_ite, keeps_mk, keepsAs_iff, keeps_runClaimed]

theorem keeps_doClose {d₀ : Dev} (d : Dev) (c : CmdRef) (h : Keeps d₀ d) :
    Keeps d₀ (doClose d c) := by
  unfold doClose; try dsimp only
  (with_reducible (repeat' first | assumption | refine keeps_onRequest _ _ _ ?_ (fun _ => ?_) | apply keeps_runClaimed | split | refine keeps_foldl _ ?_ (fun _ _ _ => ?_))) <;> simp (maxDischargeDepth := 100) only [*, keeps_ite, keeps_mk, keepsAs_iff, keeps_runClaimed]

theorem keeps_doAbort {d₀ : Dev} (d : Dev) (c : CmdRef) (h : Keeps d₀ d) :
    Keeps d₀ (doAbort d c) := by
  unfold doAbort; try dsimp only
  (with_reducible (repeat' first | assumption | refine keeps_onRequest _ _ _ ?_ (fun _ => ?_) | apply keeps_runClaimed | split | refine keeps_foldl _ ?_ (fun _ _ _ => ?_))) <;> simp (maxDischargeDepth := 100) only [*, keeps_ite, keeps_mk, keepsAs_iff, keeps_runClaimed]

theorem keeps_doConfig {d₀ : Dev} (d : Dev) (c : CmdRef) (h : Keeps d₀ d) :
    Keeps d₀ (doConfig d c) := by
  unfold doConfig; try dsimp only
  (with_reducible (repeat' first | assumption | refine keeps_onRequest _ _ _ ?_ (fun _ => ?_) | apply keeps_runClaimed | split | refine keeps_foldl _ ?_ (fun _ _ _ => ?_))) <;> simp (maxDischargeDepth := 100) only [*, keeps_ite, keeps_mk, keepsAs_iff, keeps_runClaimed]

theorem keeps_doDraw {d₀ : Dev} (d : Dev) (c : CmdRef) (h : Keeps d₀ d) :
    Keeps d₀ (doDraw d c) := by
  unfold doDraw; try dsimp only
  (with_reducible (repeat' first | assumption | refine keeps_onRequest _ _ _ ?_ (fun _ => ?_) | apply keeps_runClaimed | split | refine keeps_foldl _ ?_ (fun _ _ _ => ?_))) <;> simp (maxDischargeDepth := 100) only [*, keeps_ite, keeps_mk, keepsAs_iff, keeps_runClaimed]

theorem keeps_doSetBalance {d₀ : Dev} (d : Dev) (c : CmdRef) (h : Keeps d₀ d) :
    Keeps d₀ (doSetBalance d c) := by
  unfold doSetBalance; try dsimp only
  (with_reducible (repeat' first | assumption | refine keeps_onPacket _ _ _ ?_ (fun _ => ?_) | apply keeps_run | split | refine keeps_foldl _ ?_ (fun _ _ _ => ?_))) <;> simp (maxDischargeDepth := 100) only [*, keeps_ite, keeps_mk, keepsAs_iff, keeps_run]

theorem keeps_doAddBalance {d₀ : Dev} (d : Dev) (c : CmdRef) (h : Keeps d₀ d) :
    Keeps d₀ (doAddBalance d c) := by
  unfold doAddBalance; try dsimp only
  (with_reducible (repeat' first | assumption | refine keeps_onPacket _ _ _ ?_ (fun _ => ?_) | apply keeps_run | split | refine keeps_foldl _ ?_ (fun _ _ _ => ?_))) <;> simp (maxDischargeDepth := 100) only [*, keeps_ite, keeps_mk, keepsAs_iff, keeps_run]

theorem keeps_doBind {d₀ : Dev} (d : Dev) (c : CmdRef) (h : Keeps d₀ d) :
    Keeps d₀ (doBind d c) := by
  unfold doBind; try dsimp only
  (with_reducible (repeat' first | assumption | refine keeps_onPacket _ _ _ ?_ (fun _ => ?_) | apply keeps_run | split | refine keeps_foldl _ ?_ (fun _ _ _ => ?_))) <;> simp (maxDischargeDepth := 100) only [*, keeps_ite, keeps_mk, keepsAs_iff, keeps_run]

/-! ### Treadle -/

theorem keeps_modTraining {d₀ : Dev} (d : Dev) (f : Training → Training) (h : Keeps d₀ d) :
    Keeps d₀ (Dev.modTraining d f) := by
  unfold Dev.modTraining; try dsimp only
  (with_reducible (repeat' first | assumption | split | refine keeps_foldl _ ?_ (fun _ _ _ => ?_))) <;>
      simp (maxDischargeDepth := 100) only [*, keeps_ite, keeps_mk, keepsAs_iff]

theorem keeps_modTreadle {d₀ : Dev} (d : Dev) (die : Nat) (f : Treadle → Treadle) (h : Keeps d₀ d) :
    Keeps d₀ (Dev.modTreadle d die f) := by
  unfold Dev.modTreadle; try dsimp only
  (with_reducible (repeat' first | assumption | apply keeps_modTraining | split | refine keeps_foldl _ ?_ (fun _ _ _ => ?_))) <;> simp (maxDischargeDepth := 100) only [*, keeps_ite, keeps_mk, keepsAs_iff, keeps_modTraining]

theorem keeps_modTrain {d₀ : Dev} (d : Dev) (p : Nat) (f : Train → Train) (h : Keeps d₀ d) :
    Keeps d₀ (Dev.modTrain d p f) := by
  unfold Dev.modTrain; try dsimp only
  (with_reducible (repeat' first | assumption | apply keeps_modTraining | split | refine keeps_foldl _ ?_ (fun _ _ _ => ?_))) <;> simp (maxDischargeDepth := 100) only [*, keeps_ite, keeps_mk, keepsAs_iff, keeps_modTraining]

theorem keeps_onDie {d₀ : Dev} (d : Dev) (c : CmdRef) (f : Entry → Dev) (h : Keeps d₀ d)
    (hf : ∀ e, Keeps d₀ (f e)) :
    Keeps d₀ (d.onDie c f) := by
  unfold Dev.onDie; refine keeps_onPacket _ _ _ h (fun e => ?_); split <;> first | exact h | exact hf e

theorem keeps_runVerify {d₀ : Dev} (d : Dev) (c : CmdRef) (e : Entry) (p : TrdUpdate) (part n sampleVa : Nat) (h : Keeps d₀ d) :
    Keeps d₀ (Dev.runVerify d c e p part n sampleVa) := by
  unfold Dev.runVerify; try dsimp only
  (with_reducible (repeat' first | assumption | apply keeps_due | apply keeps_issuedRun | apply keeps_modEntry | apply keeps_ranFail | apply keeps_ranOk | apply keeps_setPhase | split | refine keeps_foldl _ ?_ (fun _ _ _ => ?_))) <;> simp (maxDischargeDepth := 100) only [*, keeps_ite, keeps_mk, keepsAs_iff, keeps_due, keeps_issuedRun, keeps_modEntry, keeps_ranFail, keeps_ranOk, keeps_setPhase]

theorem keeps_doTrdUpdate {d₀ : Dev} (d : Dev) (c : CmdRef) (h : Keeps d₀ d) :
    Keeps d₀ (doTrdUpdate d c) := by
  unfold doTrdUpdate; try dsimp only
  (with_reducible (repeat' first | assumption | refine keeps_onDie _ _ _ ?_ (fun _ => ?_) | apply keeps_run | split | refine keeps_foldl _ ?_ (fun _ _ _ => ?_))) <;> simp (maxDischargeDepth := 100) only [*, keeps_ite, keeps_mk, keepsAs_iff, keeps_run]

theorem keeps_doTrdVerify {d₀ : Dev} (d : Dev) (c : CmdRef) (h : Keeps d₀ d) :
    Keeps d₀ (doTrdVerify d c) := by
  unfold doTrdVerify; try dsimp only
  (with_reducible (repeat' first | assumption | refine keeps_onDie _ _ _ ?_ (fun _ => ?_) | apply keeps_runVerify | split | refine keeps_foldl _ ?_ (fun _ _ _ => ?_))) <;> simp (maxDischargeDepth := 100) only [*, keeps_ite, keeps_mk, keepsAs_iff, keeps_runVerify]

theorem keeps_doRoot {d₀ : Dev} (d : Dev) (c : CmdRef) (h : Keeps d₀ d) :
    Keeps d₀ (doRoot d c) := by
  unfold doRoot; try dsimp only
  (with_reducible (repeat' first | assumption | refine keeps_onPacket _ _ _ ?_ (fun _ => ?_) | apply keeps_run | split | refine keeps_foldl _ ?_ (fun _ _ _ => ?_))) <;> simp (maxDischargeDepth := 100) only [*, keeps_ite, keeps_mk, keepsAs_iff, keeps_run]

end Sys2Proof.Machine
end

