-- ==== Sys2Proof/Laws/KeepsTraining.lean ====
section
/-! SUPPORT. What `Keeps` says of the functions of the Roving log, exchanges, snapshots, group commands and the step commit: one lemma each. -/

set_option linter.all false

namespace Sys2Proof.Machine

/-! ### RovingLog -/

theorem keeps_markDirty {d₀ : Dev} (d : Dev) (trd : Bool) (pa : Nat) (data : List Byte) (h : Keeps d₀ d) :
    Keeps d₀ (Dev.markDirty d trd pa data) := by
  unfold Dev.markDirty; try dsimp only
  (with_reducible (repeat' first | assumption | apply keeps_modTraining | split | refine keeps_foldl _ ?_ (fun _ _ _ => ?_))) <;> simp (maxDischargeDepth := 100) only [*, keeps_ite, keeps_mk, keepsAs_iff, keeps_modTraining]

theorem keeps_meetUe {d₀ : Dev} (d : Dev) (pa : Nat) (h : Keeps d₀ d) : Keeps d₀ (d.meetUe pa) := by
  exact keeps_due _ _ (keeps_mem h _ (fun w => (noteUe_bytes _ _).symm ▸ w) (fun w => (noteUe_host _ _).symm ▸ w))

theorem keeps_mergePartial {d₀ : Dev} (d : Dev) (pa n : Nat) (h : Keeps d₀ d) :
    Keeps d₀ (Dev.mergePartial d pa n) := by
  unfold Dev.mergePartial; try dsimp only
  (with_reducible (repeat' first | assumption | apply keeps_correctAll | apply keeps_meetUe | split | refine keeps_foldl _ ?_ (fun _ _ _ => ?_))) <;> simp (maxDischargeDepth := 100) only [*, keeps_ite, keeps_mk, keepsAs_iff, keeps_correctAll, keeps_meetUe]

theorem keeps_readOut {d₀ : Dev} (d : Dev) (pa n : Nat) (h : Keeps d₀ d) :
    Keeps d₀ (Dev.readOut d pa n).2 := by
  unfold Dev.readOut; try dsimp only
  (with_reducible (repeat' first | assumption | apply keeps_correctAll | apply keeps_meetUe | split | refine keeps_foldl _ ?_ (fun _ _ _ => ?_))) <;> simp (maxDischargeDepth := 100) only [*, keeps_ite, keeps_mk, keepsAs_iff, keeps_correctAll, keeps_meetUe]

theorem keeps_poke {d₀ : Dev} (d : Dev) (trd : Bool) (pa : Nat) (data : List Byte) (h : Keeps d₀ d) : Keeps d₀ (d.poke trd pa data) := by
  unfold Dev.poke; exact keeps_mem (keeps_markDirty _ _ _ _ (keeps_mergePartial _ _ _ h)) _ (fun w => tblWf_putBytes _ _ w) (fun w => w)

theorem keeps_pokeVa {d₀ : Dev} (d : Dev) (part va : Nat) (data : List Byte) (h : Keeps d₀ d) : Keeps d₀ (d.pokeVa part va data) := by
  unfold Dev.pokeVa
  refine keeps_fold_fst _ h (fun x p hx => ?_)
  dsimp only
  split
  · exact keeps_ite hx (keeps_poke _ _ _ _ hx)
  · exact hx

theorem keeps_mirror {d₀ : Dev} (d : Dev) (part share lsn : Nat) (data : List Byte) (h : Keeps d₀ d) :
    Keeps d₀ (Dev.mirror d part share lsn data) := by
  unfold Dev.mirror; try dsimp only
  (with_reducible (repeat' first | assumption | apply keeps_answer | split | refine keeps_foldl _ ?_ (fun _ _ _ => ?_))) <;> simp (maxDischargeDepth := 100) only [*, keeps_ite, keeps_mk, keepsAs_iff, keeps_answer]

theorem keeps_logAdd {d₀ : Dev} (d : Dev) (part share step kind : Nat) (body : List Byte) (h : Keeps d₀ d) :
    Keeps d₀ (Dev.logAdd d part share step kind body) := by
  unfold Dev.logAdd; try dsimp only
  (with_reducible (repeat' first | assumption | apply keeps_mirror | apply keeps_modTrain | apply keeps_modTraining | apply keeps_pokeVa | split | refine keeps_foldl _ ?_ (fun _ _ _ => ?_))) <;> simp (maxDischargeDepth := 100) only [*, keeps_ite, keeps_mk, keepsAs_iff, keeps_mirror, keeps_modTrain, keeps_modTraining, keeps_pokeVa]

theorem keeps_logCommand {d₀ : Dev} (d : Dev) (e : Entry) (status : Nat) (h : Keeps d₀ d) :
    Keeps d₀ (Dev.logCommand d e status) := by
  unfold Dev.logCommand; try dsimp only
  (with_reducible (repeat' first | assumption | apply keeps_logAdd | split | refine keeps_foldl _ ?_ (fun _ _ _ => ?_))) <;> simp (maxDischargeDepth := 100) only [*, keeps_ite, keeps_mk, keepsAs_iff, keeps_logAdd]

theorem keeps_logLate {d₀ : Dev} (d : Dev) (part ctx step pos action : Nat) (h : Keeps d₀ d) :
    Keeps d₀ (Dev.logLate d part ctx step pos action) := by
  unfold Dev.logLate; try dsimp only
  (with_reducible (repeat' first | assumption | apply keeps_logAdd | split | refine keeps_foldl _ ?_ (fun _ _ _ => ?_))) <;> simp (maxDischargeDepth := 100) only [*, keeps_ite, keeps_mk, keepsAs_iff, keeps_logAdd]

theorem keeps_pokeStore {d₀ : Dev} (d : Dev) (s : Store) (off : Nat) (data : List Byte) (h : Keeps d₀ d) : Keeps d₀ (d.pokeStore s off data) := by
  unfold Dev.pokeStore
  refine keeps_fold_fst _ h (fun x p hx => ?_)
  dsimp only
  split
  · exact keeps_poke _ _ _ _ hx
  · exact hx

theorem keeps_doLogMirrorReceive {d₀ : Dev} (d : Dev) (m : Message) (h : Keeps d₀ d) :
    Keeps d₀ (doLogMirrorReceive d m) := by
  unfold doLogMirrorReceive; try dsimp only
  (with_reducible (repeat' first | assumption | apply keeps_answer | apply keeps_pokeStore | split | refine keeps_foldl _ ?_ (fun _ _ _ => ?_))) <;> simp (maxDischargeDepth := 100) only [*, keeps_ite, keeps_mk, keepsAs_iff, keeps_answer, keeps_pokeStore]

theorem keeps_storeBytes {d₀ : Dev} (d : Dev) (s : Store) (off n : Nat) (h : Keeps d₀ d) : Keeps d₀ ((d.storeBytes s off n).2) := by
  unfold Dev.storeBytes
  refine keeps_fold_snd _ h (fun x p hx => ?_)
  split
  · exact keeps_readOut _ _ _ hx
  · exact hx

theorem keeps_servesOn {d₀ : Dev} (d : Dev) (s : Store) (off n : Nat) (h : Keeps d₀ d) :
    Keeps d₀ (Dev.servesOn d s off n) := by
  unfold Dev.servesOn; try dsimp only
  (with_reducible (repeat' first | assumption | apply keeps_modTraining | split | refine keeps_foldl _ ?_ (fun _ _ _ => ?_))) <;> simp (maxDischargeDepth := 100) only [*, keeps_ite, keeps_mk, keepsAs_iff, keeps_modTraining]

theorem keeps_serveRead {d₀ : Dev} (d : Dev) (m : Message) (s : Store) (off n : Nat) (body : List Byte → MsgBody) (h : Keeps d₀ d) :
    Keeps d₀ (Dev.serveRead d m s off n body) := by
  unfold Dev.serveRead; try dsimp only
  (with_reducible (repeat' first | assumption | apply keeps_answer | apply keeps_servesOn | apply keeps_storeBytes | split | refine keeps_foldl _ ?_ (fun _ _ _ => ?_))) <;> simp (maxDischargeDepth := 100) only [*, keeps_ite, keeps_mk, keepsAs_iff, keeps_answer, keeps_servesOn, keeps_storeBytes]

theorem keeps_doServeBuddy {d₀ : Dev} (d : Dev) (m : Message) (h : Keeps d₀ d) :
    Keeps d₀ (doServeBuddy d m) := by
  unfold doServeBuddy; try dsimp only
  (with_reducible (repeat' first | assumption | apply keeps_ackMsg | apply keeps_answer | apply keeps_pokeStore | apply keeps_serveRead | apply keeps_servesOn | split | refine keeps_foldl _ ?_ (fun _ _ _ => ?_))) <;> simp (maxDischargeDepth := 100) only [*, keeps_ite, keeps_mk, keepsAs_iff, keeps_ackMsg, keeps_answer, keeps_pokeStore, keeps_serveRead, keeps_servesOn]

/-! ### Exchange -/

theorem keeps_modXch {d₀ : Dev} (d : Dev) (ctx : Nat) (f : Xch → Xch) (h : Keeps d₀ d) :
    Keeps d₀ (Dev.modXch d ctx f) := by
  unfold Dev.modXch; try dsimp only
  (with_reducible (repeat' first | assumption | split | refine keeps_foldl _ ?_ (fun _ _ _ => ?_))) <;>
      simp (maxDischargeDepth := 100) only [*, keeps_ite, keeps_mk, keepsAs_iff]

theorem keeps_runThenSend {d₀ : Dev} (d : Dev) (c : CmdRef) (e : Entry) (own : List Byte) (m : Run (Counts × List (Nat × MsgBody))) (h : Keeps d₀ d) :
    Keeps d₀ (Dev.runThenSend d c e own m) := by
  unfold Dev.runThenSend; try dsimp only
  (with_reducible (repeat' first | assumption | apply keeps_issuedRun | apply keeps_ranFail | apply keeps_ranOk | apply keeps_sendMsg | apply keeps_setPhase | split | refine keeps_foldl _ ?_ (fun _ _ _ => ?_))) <;> simp (maxDischargeDepth := 100) only [*, keeps_ite, keeps_mk, keepsAs_iff, keeps_issuedRun, keeps_ranFail, keeps_ranOk, keeps_sendMsg, keeps_setPhase]

theorem keeps_contribArrives {d₀ : Dev} (d : Dev) (ctx s p : Nat) (data : List Byte) (h : Keeps d₀ d) :
    Keeps d₀ (Dev.contribArrives d ctx s p data) := by
  unfold Dev.contribArrives; try dsimp only
  (with_reducible (repeat' first | assumption | apply keeps_logLate | apply keeps_modXch | apply keeps_pokeVa | split | refine keeps_foldl _ ?_ (fun _ _ _ => ?_))) <;> simp (maxDischargeDepth := 100) only [*, keeps_ite, keeps_mk, keepsAs_iff, keeps_logLate, keeps_modXch, keeps_pokeVa]

theorem keeps_tellWait {d₀ : Dev} (d : Dev) (m : Message) (ctx s : Nat) (h : Keeps d₀ d) :
    Keeps d₀ (Dev.tellWait d m ctx s) := by
  unfold Dev.tellWait; try dsimp only
  (with_reducible (repeat' first | assumption | apply keeps_answer | apply keeps_modXch | split | refine keeps_foldl _ ?_ (fun _ _ _ => ?_))) <;> simp (maxDischargeDepth := 100) only [*, keeps_ite, keeps_mk, keepsAs_iff, keeps_answer, keeps_modXch]

theorem keeps_contribData {d₀ : Dev} (d : Dev) (m : Message) (group ctx s p : Nat) (data : List Byte) (h : Keeps d₀ d) :
    Keeps d₀ (Dev.contribData d m group ctx s p data) := by
  unfold Dev.contribData; try dsimp only
  (with_reducible (repeat' first | assumption | apply keeps_ackMsg | apply keeps_modXch | apply keeps_tellWait | split | refine keeps_foldl _ ?_ (fun _ _ _ => ?_))) <;> simp (maxDischargeDepth := 100) only [*, keeps_ite, keeps_mk, keepsAs_iff, keeps_ackMsg, keeps_modXch, keeps_tellWait]

theorem keeps_contribCommits {d₀ : Dev} (d : Dev) (m : Message) (group ctx s p : Nat) (h : Keeps d₀ d) :
    Keeps d₀ (Dev.contribCommits d m group ctx s p) := by
  unfold Dev.contribCommits; try dsimp only
  (with_reducible (repeat' first | assumption | apply keeps_ackMsg | apply keeps_contribArrives | apply keeps_modXch | apply keeps_tellWait | split | refine keeps_foldl _ ?_ (fun _ _ _ => ?_))) <;> simp (maxDischargeDepth := 100) only [*, keeps_ite, keeps_mk, keepsAs_iff, keeps_ackMsg, keeps_contribArrives, keeps_modXch, keeps_tellWait]

theorem keeps_holdSent {d₀ : Dev} (d : Dev) (msg : Nat) (h : Keeps d₀ d) :
    Keeps d₀ (Dev.holdSent d msg) := by
  unfold Dev.holdSent; try dsimp only
  (with_reducible (repeat' first | assumption | apply keeps_modLinks | split | refine keeps_foldl _ ?_ (fun _ _ _ => ?_))) <;> simp (maxDischargeDepth := 100) only [*, keeps_ite, keeps_mk, keepsAs_iff, keeps_modLinks]

theorem keeps_sendAgain {d₀ : Dev} (d : Dev) (msg : Nat) (h : Keeps d₀ d) :
    Keeps d₀ (Dev.sendAgain d msg) := by
  unfold Dev.sendAgain; try dsimp only
  (with_reducible (repeat' first | assumption | apply keeps_leave | apply keeps_modLinks | split | refine keeps_foldl _ ?_ (fun _ _ _ => ?_))) <;> simp (maxDischargeDepth := 100) only [*, keeps_ite, keeps_mk, keepsAs_iff, keeps_leave, keeps_modLinks]

theorem keeps_doContribArrive {d₀ : Dev} (d : Dev) (m : Message) (h : Keeps d₀ d) :
    Keeps d₀ (doContribArrive d m) := by
  unfold doContribArrive; try dsimp only
  (with_reducible (repeat' first | assumption | apply keeps_contribCommits | apply keeps_contribData | apply keeps_holdSent | apply keeps_sendAgain | split | refine keeps_foldl _ ?_ (fun _ _ _ => ?_))) <;> simp (maxDischargeDepth := 100) only [*, keeps_ite, keeps_mk, keepsAs_iff, keeps_contribCommits, keeps_contribData, keeps_holdSent, keeps_sendAgain]

theorem keeps_issueWait {d₀ : Dev} (d : Dev) (c : CmdRef) (e : Entry) (ctx : Nat) (replay : Bool) (h : Keeps d₀ d) :
    Keeps d₀ (Dev.issueWait d c e ctx replay) := by
  unfold Dev.issueWait; try dsimp only
  (with_reducible (repeat' first | assumption | apply keeps_modEntry | apply keeps_modXch | split | refine keeps_foldl _ ?_ (fun _ _ _ => ?_))) <;> simp (maxDischargeDepth := 100) only [*, keeps_ite, keeps_mk, keepsAs_iff, keeps_modEntry, keeps_modXch]

theorem keeps_doStepWait {d₀ : Dev} (d : Dev) (c : CmdRef) (h : Keeps d₀ d) :
    Keeps d₀ (doStepWait d c) := by
  unfold doStepWait; try dsimp only
  (with_reducible (repeat' first | assumption | apply keeps_issueWait | apply keeps_refuse | apply keeps_run | split | refine keeps_foldl _ ?_ (fun _ _ _ => ?_))) <;> simp (maxDischargeDepth := 100) only [*, keeps_ite, keeps_mk, keepsAs_iff, keeps_issueWait, keeps_refuse, keeps_run]

theorem keeps_decide_ {d₀ : Dev} (d : Dev) (c : CmdRef) (e : Entry) (ctx : Nat) (x : Xch) (z : XchDecision) (h : Keeps d₀ d) :
    Keeps d₀ (Dev.decide_ d c e ctx x z) := by
  unfold Dev.decide_; try dsimp only
  (with_reducible (repeat' first | assumption | apply keeps_modXch | apply keeps_refuse | split | refine keeps_foldl _ ?_ (fun _ _ _ => ?_))) <;> simp (maxDischargeDepth := 100) only [*, keeps_ite, keeps_mk, keepsAs_iff, keeps_modXch, keeps_refuse]

theorem keeps_doDecisionTick {d₀ : Dev} (d : Dev) (c : CmdRef) (h : Keeps d₀ d) :
    Keeps d₀ (doDecisionTick d c) := by
  unfold doDecisionTick; try dsimp only
  (with_reducible (repeat' first | assumption | apply keeps_decide_ | apply keeps_ranFail | apply keeps_refuse | split | refine keeps_foldl _ ?_ (fun _ _ _ => ?_))) <;> simp (maxDischargeDepth := 100) only [*, keeps_ite, keeps_mk, keepsAs_iff, keeps_decide_, keeps_ranFail, keeps_refuse]

theorem keeps_logDecision {d₀ : Dev} (d : Dev) (ctx : Nat) (present held : List Nat) (h : Keeps d₀ d) :
    Keeps d₀ (Dev.logDecision d ctx present held) := by
  unfold Dev.logDecision; try dsimp only
  (with_reducible (repeat' first | assumption | apply keeps_logAdd | split | refine keeps_foldl _ ?_ (fun _ _ _ => ?_))) <;> simp (maxDischargeDepth := 100) only [*, keeps_ite, keeps_mk, keepsAs_iff, keeps_logAdd]

theorem keeps_freeWaiters {d₀ : Dev} (d : Dev) (ctx : Nat) (h : Keeps d₀ d) :
    Keeps d₀ (Dev.freeWaiters d ctx) := by
  unfold Dev.freeWaiters; try dsimp only
  (with_reducible (repeat' first | assumption | apply keeps_answer | apply keeps_modXch | split | refine keeps_foldl _ ?_ (fun _ _ _ => ?_))) <;> simp (maxDischargeDepth := 100) only [*, keeps_ite, keeps_mk, keepsAs_iff, keeps_answer, keeps_modXch]

theorem keeps_advanceCtx {d₀ : Dev} (d : Dev) (applied : Bool) (ctx : Nat) (h : Keeps d₀ d) :
    Keeps d₀ (Dev.advanceCtx d applied ctx) := by
  unfold Dev.advanceCtx; try dsimp only
  (with_reducible (repeat' first | assumption | apply keeps_freeWaiters | apply keeps_logLate | apply keeps_modXch | split | refine keeps_foldl _ ?_ (fun _ _ _ => ?_))) <;> simp (maxDischargeDepth := 100) only [*, keeps_ite, keeps_mk, keepsAs_iff, keeps_freeWaiters, keeps_logLate, keeps_modXch]

theorem keeps_doXchConfig {d₀ : Dev} (d : Dev) (c : CmdRef) (h : Keeps d₀ d) :
    Keeps d₀ (doXchConfig d c) := by
  unfold doXchConfig; try dsimp only
  (with_reducible (repeat' first | assumption | refine keeps_onDie _ _ _ ?_ (fun _ => ?_) | apply keeps_runClaimed | split | refine keeps_foldl _ ?_ (fun _ _ _ => ?_))) <;> simp (maxDischargeDepth := 100) only [*, keeps_ite, keeps_mk, keepsAs_iff, keeps_runClaimed]

theorem keeps_doSend {d₀ : Dev} (d : Dev) (c : CmdRef) (h : Keeps d₀ d) :
    Keeps d₀ (doSend d c) := by
  unfold doSend; try dsimp only
  (with_reducible (repeat' first | assumption | refine keeps_onDie _ _ _ ?_ (fun _ => ?_) | apply keeps_runThenSend | split | refine keeps_foldl _ ?_ (fun _ _ _ => ?_))) <;> simp (maxDischargeDepth := 100) only [*, keeps_ite, keeps_mk, keepsAs_iff, keeps_runThenSend]

theorem keeps_doXchRemove {d₀ : Dev} (d : Dev) (c : CmdRef) (h : Keeps d₀ d) :
    Keeps d₀ (doXchRemove d c) := by
  unfold doXchRemove; try dsimp only
  (with_reducible (repeat' first | assumption | refine keeps_onDie _ _ _ ?_ (fun _ => ?_) | apply keeps_runClaimed | split | refine keeps_foldl _ ?_ (fun _ _ _ => ?_))) <;> simp (maxDischargeDepth := 100) only [*, keeps_ite, keeps_mk, keepsAs_iff, keeps_runClaimed]

theorem keeps_doActOffload {d₀ : Dev} (d : Dev) (c : CmdRef) (h : Keeps d₀ d) :
    Keeps d₀ (doActOffload d c) := by
  unfold doActOffload; try dsimp only
  (with_reducible (repeat' first | assumption | refine keeps_onPacket _ _ _ ?_ (fun _ => ?_) | apply keeps_run | split | refine keeps_foldl _ ?_ (fun _ _ _ => ?_))) <;> simp (maxDischargeDepth := 100) only [*, keeps_ite, keeps_mk, keepsAs_iff, keeps_run]

theorem keeps_doActPrefetch {d₀ : Dev} (d : Dev) (c : CmdRef) (h : Keeps d₀ d) :
    Keeps d₀ (doActPrefetch d c) := by
  unfold doActPrefetch; try dsimp only
  (with_reducible (repeat' first | assumption | refine keeps_onPacket _ _ _ ?_ (fun _ => ?_) | apply keeps_run | split | refine keeps_foldl _ ?_ (fun _ _ _ => ?_))) <;> simp (maxDischargeDepth := 100) only [*, keeps_ite, keeps_mk, keepsAs_iff, keeps_run]

/-! ### Snapshot -/

theorem keeps_modSnap {d₀ : Dev} (d : Dev) (part : Nat) (f : SnapSet → SnapSet) (h : Keeps d₀ d) :
    Keeps d₀ (Dev.modSnap d part f) := by
  unfold Dev.modSnap; try dsimp only
  (with_reducible (repeat' first | assumption | apply keeps_modTrain | split | refine keeps_foldl _ ?_ (fun _ _ _ => ?_))) <;> simp (maxDischargeDepth := 100) only [*, keeps_ite, keeps_mk, keepsAs_iff, keeps_modTrain]

theorem keeps_takeFor {d₀ : Dev} (d : Dev) (c : CmdRef) (e : Entry) (part n : Nat) (own : List Byte) (h : Keeps d₀ d) :
    Keeps d₀ (Dev.takeFor d c e part n own) := by
  unfold Dev.takeFor; try dsimp only
  (with_reducible (repeat' first | assumption | apply keeps_modSnap | apply keeps_runThenSend | split | refine keeps_foldl _ ?_ (fun _ _ _ => ?_))) <;> simp (maxDischargeDepth := 100) only [*, keeps_ite, keeps_mk, keepsAs_iff, keeps_modSnap, keeps_runThenSend]

theorem keeps_snapTaken {d₀ : Dev} (d : Dev) (part n step : Nat) (h : Keeps d₀ d) :
    Keeps d₀ (Dev.snapTaken d part n step) := by
  unfold Dev.snapTaken; try dsimp only
  (with_reducible (repeat' first | assumption | apply keeps_logAdd | apply keeps_modSnap | apply keeps_sendMsg | split | refine keeps_foldl _ ?_ (fun _ _ _ => ?_))) <;> simp (maxDischargeDepth := 100) only [*, keeps_ite, keeps_mk, keepsAs_iff, keeps_logAdd, keeps_modSnap, keeps_sendMsg]

theorem keeps_resumeCtxs {d₀ : Dev} (d : Dev) (part step epochs : Nat) (h : Keeps d₀ d) :
    Keeps d₀ (Dev.resumeCtxs d part step epochs) := by
  unfold Dev.resumeCtxs; try dsimp only
  (with_reducible (repeat' first | assumption | split | refine keeps_foldl _ ?_ (fun _ _ _ => ?_))) <;>
      simp (maxDischargeDepth := 100) only [*, keeps_ite, keeps_mk, keepsAs_iff]

theorem keeps_restored {d₀ : Dev} (d : Dev) (part step gen epochs lsnA lsnB : Nat) (teacher : List Byte) (h : Keeps d₀ d) :
    Keeps d₀ (Dev.restored d part step gen epochs lsnA lsnB teacher) := by
  unfold Dev.restored; try dsimp only
  (with_reducible (repeat' first | assumption | apply keeps_logAdd | apply keeps_modTrain | apply keeps_modTraining | apply keeps_resumeCtxs | split | refine keeps_foldl _ ?_ (fun _ _ _ => ?_))) <;> simp (maxDischargeDepth := 100) only [*, keeps_ite, keeps_mk, keepsAs_iff, keeps_logAdd, keeps_modTrain, keeps_modTraining, keeps_resumeCtxs]

theorem keeps_recordDecision {d₀ : Dev} (d : Dev) (slot : Nat) (x : Decision) (h : Keeps d₀ d) :
    Keeps d₀ (Dev.recordDecision d slot x) := by
  unfold Dev.recordDecision; try dsimp only
  (with_reducible (repeat' first | assumption | apply keeps_modTraining | split | refine keeps_foldl _ ?_ (fun _ _ _ => ?_))) <;> simp (maxDischargeDepth := 100) only [*, keeps_ite, keeps_mk, keepsAs_iff, keeps_modTraining]

theorem keeps_logRestored {d₀ : Dev} (d : Dev) (part nextA nextB : Nat) (ds : List (Nat × Decision)) (h : Keeps d₀ d) :
    Keeps d₀ (Dev.logRestored d part nextA nextB ds) := by
  unfold Dev.logRestored; try dsimp only
  (with_reducible (repeat' first | assumption | apply keeps_modTrain | apply keeps_modTraining | apply keeps_recordDecision | split | refine keeps_foldl _ ?_ (fun _ _ _ => ?_))) <;> simp (maxDischargeDepth := 100) only [*, keeps_ite, keeps_mk, keepsAs_iff, keeps_modTrain, keeps_modTraining, keeps_recordDecision]

theorem keeps_mark {d₀ : Dev} (d : Dev) (part step cursor : Nat) (digest : List Byte) (h : Keeps d₀ d) :
    Keeps d₀ (Dev.mark d part step cursor digest) := by
  unfold Dev.mark; try dsimp only
  (with_reducible (repeat' first | assumption | apply keeps_logAdd | apply keeps_modTrain | split | refine keeps_foldl _ ?_ (fun _ _ _ => ?_))) <;> simp (maxDischargeDepth := 100) only [*, keeps_ite, keeps_mk, keepsAs_iff, keeps_logAdd, keeps_modTrain]

theorem keeps_doStore {d₀ : Dev} (d : Dev) (c : CmdRef) (h : Keeps d₀ d) :
    Keeps d₀ (doStore d c) := by
  unfold doStore; try dsimp only
  (with_reducible (repeat' first | assumption | refine keeps_onPacket _ _ _ ?_ (fun _ => ?_) | apply keeps_runClaimed | split | refine keeps_foldl _ ?_ (fun _ _ _ => ?_))) <;> simp (maxDischargeDepth := 100) only [*, keeps_ite, keeps_mk, keepsAs_iff, keeps_runClaimed]

theorem keeps_asking {d₀ : Dev} (d : Dev) (c : CmdRef) (h : Keeps d₀ d) :
    Keeps d₀ (Dev.asking d c) := by
  unfold Dev.asking; try dsimp only
  (with_reducible (repeat' first | assumption | apply keeps_modEntry | split | refine keeps_foldl _ ?_ (fun _ _ _ => ?_))) <;> simp (maxDischargeDepth := 100) only [*, keeps_ite, keeps_mk, keepsAs_iff, keeps_modEntry]

theorem keeps_askBuddies {d₀ : Dev} (d : Dev) (c : CmdRef) (e : Entry) (asks : List (Nat × MsgBody)) (h : Keeps d₀ d) :
    Keeps d₀ (Dev.askBuddies d c e asks) := by
  unfold Dev.askBuddies; try dsimp only
  (with_reducible (repeat' first | assumption | apply keeps_asking | apply keeps_refuse | apply keeps_sendMsg | split | refine keeps_foldl _ ?_ (fun _ _ _ => ?_))) <;> simp (maxDischargeDepth := 100) only [*, keeps_ite, keeps_mk, keepsAs_iff, keeps_asking, keeps_refuse, keeps_sendMsg]

theorem keeps_onAnswer {d₀ : Dev} (d : Dev) (c : CmdRef) (m : Message) (f : Dev → Entry → List Byte → Dev) (h : Keeps d₀ d)
    (hf : ∀ d e own, Keeps d₀ d → Keeps d₀ (f d e own)) : Keeps d₀ (d.onAnswer c m f) := by
  unfold Dev.onAnswer; (repeat' split) <;> first | exact h | exact hf _ _ _ (keeps_settled _ _ h)

theorem keeps_doSnapConfig {d₀ : Dev} (d : Dev) (c : CmdRef) (a : Option Message) (h : Keeps d₀ d) :
    Keeps d₀ (doSnapConfig d c a) := by
  unfold doSnapConfig; try dsimp only
  (with_reducible (repeat' first | assumption | refine keeps_onPacket _ _ _ ?_ (fun _ => ?_) | refine keeps_onAnswer _ _ _ _ ?_ (fun _ _ _ _ => ?_) | apply keeps_askBuddies | apply keeps_modEntry | apply keeps_refuse | apply keeps_runClaimed | split | refine keeps_foldl _ ?_ (fun _ _ _ => ?_))) <;> simp (maxDischargeDepth := 100) only [*, keeps_ite, keeps_mk, keepsAs_iff, keeps_askBuddies, keeps_modEntry, keeps_refuse, keeps_runClaimed]

theorem keeps_doTake {d₀ : Dev} (d : Dev) (c : CmdRef) (h : Keeps d₀ d) :
    Keeps d₀ (doTake d c) := by
  unfold doTake; try dsimp only
  (with_reducible (repeat' first | assumption | refine keeps_onPacket _ _ _ ?_ (fun _ => ?_) | apply keeps_takeFor | split | refine keeps_foldl _ ?_ (fun _ _ _ => ?_))) <;> simp (maxDischargeDepth := 100) only [*, keeps_ite, keeps_mk, keepsAs_iff, keeps_takeFor]

theorem keeps_doRestoreState {d₀ : Dev} (d : Dev) (c : CmdRef) (a : Option Message) (h : Keeps d₀ d) :
    Keeps d₀ (doRestoreState d c a) := by
  unfold doRestoreState; try dsimp only
  (with_reducible (repeat' first | assumption | refine keeps_onPacket _ _ _ ?_ (fun _ => ?_) | refine keeps_onAnswer _ _ _ _ ?_ (fun _ _ _ _ => ?_) | apply keeps_askBuddies | apply keeps_run | split | refine keeps_foldl _ ?_ (fun _ _ _ => ?_))) <;> simp (maxDischargeDepth := 100) only [*, keeps_ite, keeps_mk, keepsAs_iff, keeps_askBuddies, keeps_run]

theorem keeps_doRestoreLog {d₀ : Dev} (d : Dev) (c : CmdRef) (a : Option Message) (h : Keeps d₀ d) :
    Keeps d₀ (doRestoreLog d c a) := by
  unfold doRestoreLog; try dsimp only
  (with_reducible (repeat' first | assumption | refine keeps_onPacket _ _ _ ?_ (fun _ => ?_) | refine keeps_onAnswer _ _ _ _ ?_ (fun _ _ _ _ => ?_) | apply keeps_askBuddies | apply keeps_run | split | refine keeps_foldl _ ?_ (fun _ _ _ => ?_))) <;> simp (maxDischargeDepth := 100) only [*, keeps_ite, keeps_mk, keepsAs_iff, keeps_askBuddies, keeps_run]

theorem keeps_doLogMarkConfig {d₀ : Dev} (d : Dev) (c : CmdRef) (h : Keeps d₀ d) :
    Keeps d₀ (doLogMarkConfig d c) := by
  unfold doLogMarkConfig; try dsimp only
  (with_reducible (repeat' first | assumption | refine keeps_onPacket _ _ _ ?_ (fun _ => ?_) | apply keeps_runClaimed | split | refine keeps_foldl _ ?_ (fun _ _ _ => ?_))) <;> simp (maxDischargeDepth := 100) only [*, keeps_ite, keeps_mk, keepsAs_iff, keeps_runClaimed]

theorem keeps_doMark {d₀ : Dev} (d : Dev) (c : CmdRef) (h : Keeps d₀ d) :
    Keeps d₀ (doMark d c) := by
  unfold doMark; try dsimp only
  (with_reducible (repeat' first | assumption | refine keeps_onPacket _ _ _ ?_ (fun _ => ?_) | apply keeps_run | split | refine keeps_foldl _ ?_ (fun _ _ _ => ?_))) <;> simp (maxDischargeDepth := 100) only [*, keeps_ite, keeps_mk, keepsAs_iff, keeps_run]

theorem keeps_doBegin {d₀ : Dev} (d : Dev) (c : CmdRef) (h : Keeps d₀ d) :
    Keeps d₀ (doBegin d c) := by
  unfold doBegin; try dsimp only
  (with_reducible (repeat' first | assumption | refine keeps_onPacket _ _ _ ?_ (fun _ => ?_) | apply keeps_runClaimed | split | refine keeps_foldl _ ?_ (fun _ _ _ => ?_))) <;> simp (maxDischargeDepth := 100) only [*, keeps_ite, keeps_mk, keepsAs_iff, keeps_runClaimed]

theorem keeps_doEnd {d₀ : Dev} (d : Dev) (c : CmdRef) (h : Keeps d₀ d) :
    Keeps d₀ (doEnd d c) := by
  unfold doEnd; try dsimp only
  (with_reducible (repeat' first | assumption | refine keeps_onPacket _ _ _ ?_ (fun _ => ?_) | apply keeps_runClaimed | split | refine keeps_foldl _ ?_ (fun _ _ _ => ?_))) <;> simp (maxDischargeDepth := 100) only [*, keeps_ite, keeps_mk, keepsAs_iff, keeps_runClaimed]

theorem keeps_doAbandon {d₀ : Dev} (d : Dev) (c : CmdRef) (h : Keeps d₀ d) :
    Keeps d₀ (doAbandon d c) := by
  unfold doAbandon; try dsimp only
  (with_reducible (repeat' first | assumption | refine keeps_onPacket _ _ _ ?_ (fun _ => ?_) | apply keeps_runClaimed | split | refine keeps_foldl _ ?_ (fun _ _ _ => ?_))) <;> simp (maxDischargeDepth := 100) only [*, keeps_ite, keeps_mk, keepsAs_iff, keeps_runClaimed]

/-! ### Coll -/

theorem keeps_startColl {d₀ : Dev} (d : Dev) (c : CmdRef) (e : Entry) (m : Run (List Byte)) (h : Keeps d₀ d) :
    Keeps d₀ (Dev.startColl d c e m) := by
  unfold Dev.startColl; try dsimp only
  (with_reducible (repeat' first | assumption | apply keeps_issuedRun | apply keeps_ranFail | apply keeps_setPhase | split | refine keeps_foldl _ ?_ (fun _ _ _ => ?_))) <;> simp (maxDischargeDepth := 100) only [*, keeps_ite, keeps_mk, keepsAs_iff, keeps_issuedRun, keeps_ranFail, keeps_setPhase]

theorem keeps_failAll {d₀ : Dev} (d : Dev) (es : List Entry) (status : Nat) (h : Keeps d₀ d) :
    Keeps d₀ (Dev.failAll d es status) := by
  unfold Dev.failAll; try dsimp only
  (with_reducible (repeat' first | assumption | apply keeps_failEntry | split | refine keeps_foldl _ ?_ (fun _ _ _ => ?_))) <;> simp (maxDischargeDepth := 100) only [*, keeps_ite, keeps_mk, keepsAs_iff, keeps_failEntry]

theorem keeps_dropVals {d₀ : Dev} (d : Dev) (group : Nat) (key : GroupKey) (h : Keeps d₀ d) :
    Keeps d₀ (Dev.dropVals d group key) := by
  unfold Dev.dropVals; try dsimp only
  (with_reducible (repeat' first | assumption | apply keeps_modLinks | split | refine keeps_foldl _ ?_ (fun _ _ _ => ?_))) <;> simp (maxDischargeDepth := 100) only [*, keeps_ite, keeps_mk, keepsAs_iff, keeps_modLinks]

theorem keeps_storeVal {d₀ : Dev} (d : Dev) (v : CollVal) (h : Keeps d₀ d) :
    Keeps d₀ (Dev.storeVal d v) := by
  unfold Dev.storeVal; try dsimp only
  (with_reducible (repeat' first | assumption | apply keeps_modLinks | split | refine keeps_foldl _ ?_ (fun _ _ _ => ?_))) <;> simp (maxDischargeDepth := 100) only [*, keeps_ite, keeps_mk, keepsAs_iff, keeps_modLinks]

theorem keeps_endColl {d₀ : Dev} (d : Dev) (e : Entry) (device whole : List Byte) (members pos : Nat) (h : Keeps d₀ d) :
    Keeps d₀ (Dev.endColl d e device whole members pos) := by
  unfold Dev.endColl; try dsimp only
  (with_reducible (repeat' first | assumption | apply keeps_modEntry | apply keeps_run | split | refine keeps_foldl _ ?_ (fun _ _ _ => ?_))) <;> simp (maxDischargeDepth := 100) only [*, keeps_ite, keeps_mk, keepsAs_iff, keeps_modEntry, keeps_run]

theorem keeps_sendVal {d₀ : Dev} (d : Dev) (c : CmdRef) (ms : List GroupMember) (group : Nat) (key : GroupKey) (pos dst : Nat) (up : Bool) (v : List Byte) (h : Keeps d₀ d) :
    Keeps d₀ (Dev.sendVal d c ms group key pos dst up v) := by
  unfold Dev.sendVal; try dsimp only
  (with_reducible (repeat' first | assumption | apply keeps_sendMsg | split | refine keeps_foldl _ ?_ (fun _ _ _ => ?_))) <;> simp (maxDischargeDepth := 100) only [*, keeps_ite, keeps_mk, keepsAs_iff, keeps_sendMsg]

theorem keeps_deliverWhole {d₀ : Dev} (d : Dev) (es : List Entry) (ms : List GroupMember) (group pos : Nat) (key : GroupKey) (whole : List Byte) (h : Keeps d₀ d) :
    Keeps d₀ (Dev.deliverWhole d es ms group pos key whole) := by
  unfold Dev.deliverWhole; try dsimp only
  (with_reducible (repeat' first | assumption | apply keeps_dropVals | apply keeps_endColl | apply keeps_failAll | apply keeps_sendVal | split | refine keeps_foldl _ ?_ (fun _ _ _ => ?_))) <;> simp (maxDischargeDepth := 100) only [*, keeps_ite, keeps_mk, keepsAs_iff, keeps_dropVals, keeps_endColl, keeps_failAll, keeps_sendVal]

theorem keeps_advance {d₀ : Dev} (d : Dev) (part group : Nat) (key : GroupKey) (h : Keeps d₀ d) :
    Keeps d₀ (Dev.advance d part group key) := by
  unfold Dev.advance; try dsimp only
  (with_reducible (repeat' first | assumption | apply keeps_deliverWhole | apply keeps_modEntry | apply keeps_sendVal | split | refine keeps_foldl _ ?_ (fun _ _ _ => ?_))) <;> simp (maxDischargeDepth := 100) only [*, keeps_ite, keeps_mk, keepsAs_iff, keeps_deliverWhole, keeps_modEntry, keeps_sendVal]

theorem keeps_setLost {d₀ : Dev} (d : Dev) (group : Nat) (key : GroupKey) (l : Option Lost) (h : Keeps d₀ d) :
    Keeps d₀ (Dev.setLost d group key l) := by
  unfold Dev.setLost; try dsimp only
  (with_reducible (repeat' first | assumption | apply keeps_modLinks | split | refine keeps_foldl _ ?_ (fun _ _ _ => ?_))) <;> simp (maxDischargeDepth := 100) only [*, keeps_ite, keeps_mk, keepsAs_iff, keeps_modLinks]

theorem keeps_learnLoss {d₀ : Dev} (d : Dev) (src part group : Nat) (key : GroupKey) (h : Keeps d₀ d) :
    Keeps d₀ (Dev.learnLoss d src part group key) := by
  unfold Dev.learnLoss; try dsimp only
  (with_reducible (repeat' first | assumption | apply keeps_dropVals | apply keeps_failAll | apply keeps_setLost | split | refine keeps_foldl _ ?_ (fun _ _ _ => ?_))) <;> simp (maxDischargeDepth := 100) only [*, keeps_ite, keeps_mk, keepsAs_iff, keeps_dropVals, keeps_failAll, keeps_setLost]

theorem keeps_collLost {d₀ : Dev} (d : Dev) (e : Entry) (h : Keeps d₀ d) :
    Keeps d₀ (Dev.collLost d e) := by
  unfold Dev.collLost; try dsimp only
  (with_reducible (repeat' first | assumption | apply keeps_answer | apply keeps_failAll | apply keeps_setLost | split | refine keeps_foldl _ ?_ (fun _ _ _ => ?_))) <;> simp (maxDischargeDepth := 100) only [*, keeps_ite, keeps_mk, keepsAs_iff, keeps_answer, keeps_failAll, keeps_setLost]

theorem keeps_meetLoss {d₀ : Dev} (d : Dev) (e : Entry) (h : Keeps d₀ d) :
    Keeps d₀ (Dev.meetLoss d e).2 := by
  unfold Dev.meetLoss; try dsimp only
  (with_reducible (repeat' first | assumption | apply keeps_setLost | split | refine keeps_foldl _ ?_ (fun _ _ _ => ?_))) <;> simp (maxDischargeDepth := 100) only [*, keeps_ite, keeps_mk, keepsAs_iff, keeps_setLost]

theorem keeps_takeBack {d₀ : Dev} (d : Dev) (part group : Nat) (key : GroupKey) (h : Keeps d₀ d) :
    Keeps d₀ (Dev.takeBack d part group key) := by
  unfold Dev.takeBack; try dsimp only
  (with_reducible (repeat' first | assumption | apply keeps_answer | apply keeps_modEntry | split | refine keeps_foldl _ ?_ (fun _ _ _ => ?_))) <;> simp (maxDischargeDepth := 100) only [*, keeps_ite, keeps_mk, keepsAs_iff, keeps_answer, keeps_modEntry]

theorem keeps_collWithdraw {d₀ : Dev} (d : Dev) (e : Entry) (h : Keeps d₀ d) :
    Keeps d₀ (Dev.collWithdraw d e) := by
  unfold Dev.collWithdraw; try dsimp only
  (with_reducible (repeat' first | assumption | apply keeps_takeBack | split | refine keeps_foldl _ ?_ (fun _ _ _ => ?_))) <;> simp (maxDischargeDepth := 100) only [*, keeps_ite, keeps_mk, keepsAs_iff, keeps_takeBack]

theorem keeps_beginColl {d₀ : Dev} (d : Dev) (c : CmdRef) (e : Entry) (m : Run (List Byte)) (h : Keeps d₀ d) :
    Keeps d₀ (Dev.beginColl d c e m) := by
  unfold Dev.beginColl; try dsimp only
  (with_reducible (repeat' first | assumption | apply keeps_advance | apply keeps_meetLoss | apply keeps_refuse | apply keeps_startColl | split | refine keeps_foldl _ ?_ (fun _ _ _ => ?_))) <;> simp (maxDischargeDepth := 100) only [*, keeps_ite, keeps_mk, keepsAs_iff, keeps_advance, keeps_meetLoss, keeps_refuse, keeps_startColl]

theorem keeps_doWickMerge {d₀ : Dev} (d : Dev) (c : CmdRef) (h : Keeps d₀ d) :
    Keeps d₀ (doWickMerge d c) := by
  unfold doWickMerge; try dsimp only
  (with_reducible (repeat' first | assumption | refine keeps_onPacket _ _ _ ?_ (fun _ => ?_) | apply keeps_beginColl | split | refine keeps_foldl _ ?_ (fun _ _ _ => ?_))) <;> simp (maxDischargeDepth := 100) only [*, keeps_ite, keeps_mk, keepsAs_iff, keeps_beginColl]

theorem keeps_doTrdNorm {d₀ : Dev} (d : Dev) (c : CmdRef) (h : Keeps d₀ d) :
    Keeps d₀ (doTrdNorm d c) := by
  unfold doTrdNorm; try dsimp only
  (with_reducible (repeat' first | assumption | refine keeps_onDie _ _ _ ?_ (fun _ => ?_) | apply keeps_beginColl | apply keeps_refuse | split | refine keeps_foldl _ ?_ (fun _ _ _ => ?_))) <;> simp (maxDischargeDepth := 100) only [*, keeps_ite, keeps_mk, keepsAs_iff, keeps_beginColl, keeps_refuse]

theorem keeps_doChainReduce {d₀ : Dev} (d : Dev) (c : CmdRef) (h : Keeps d₀ d) :
    Keeps d₀ (doChainReduce d c) := by
  unfold doChainReduce; try dsimp only
  (with_reducible (repeat' first | assumption | refine keeps_onPacket _ _ _ ?_ (fun _ => ?_) | apply keeps_beginColl | apply keeps_refuse | split | refine keeps_foldl _ ?_ (fun _ _ _ => ?_))) <;> simp (maxDischargeDepth := 100) only [*, keeps_ite, keeps_mk, keepsAs_iff, keeps_beginColl, keeps_refuse]

theorem keeps_wholeArrives {d₀ : Dev} (d : Dev) (group : Nat) (key : GroupKey) (v : List Byte) (h : Keeps d₀ d) :
    Keeps d₀ (Dev.wholeArrives d group key v) := by
  unfold Dev.wholeArrives; try dsimp only
  (with_reducible (repeat' first | assumption | apply keeps_deliverWhole | split | refine keeps_foldl _ ?_ (fun _ _ _ => ?_))) <;> simp (maxDischargeDepth := 100) only [*, keeps_ite, keeps_mk, keepsAs_iff, keeps_deliverWhole]

theorem keeps_doNormResult {d₀ : Dev} (d : Dev) (group step : Nat) (sum : Word) (flags : Nat) (h : Keeps d₀ d) :
    Keeps d₀ (doNormResult d group step sum flags) := by
  unfold doNormResult; try dsimp only
  (with_reducible (repeat' first | assumption | apply keeps_wholeArrives | split | refine keeps_foldl _ ?_ (fun _ _ _ => ?_))) <;> simp (maxDischargeDepth := 100) only [*, keeps_ite, keeps_mk, keepsAs_iff, keeps_wholeArrives]

theorem keeps_doGroupMessage {d₀ : Dev} (d : Dev) (m : Message) (h : Keeps d₀ d) :
    Keeps d₀ (doGroupMessage d m) := by
  unfold doGroupMessage; try dsimp only
  (with_reducible (repeat' first | assumption | apply keeps_ackMsg | apply keeps_advance | apply keeps_answer | apply keeps_failEntry | apply keeps_learnLoss | apply keeps_modLinks | apply keeps_settled | apply keeps_storeVal | apply keeps_takeBack | apply keeps_wholeArrives | split | refine keeps_foldl _ ?_ (fun _ _ _ => ?_))) <;> simp (maxDischargeDepth := 100) only [*, keeps_ite, keeps_mk, keepsAs_iff, keeps_ackMsg, keeps_advance, keeps_answer, keeps_failEntry, keeps_learnLoss, keeps_modLinks, keeps_settled, keeps_storeVal, keeps_takeBack, keeps_wholeArrives]

/-! ### StepCommit -/

theorem keeps_setVote {d₀ : Dev} (d : Dev) (c : CmdRef) (sent : Bool) (v : VoteWait) (h : Keeps d₀ d) :
    Keeps d₀ (Dev.setVote d c sent v) := by
  unfold Dev.setVote; try dsimp only
  (with_reducible (repeat' first | assumption | apply keeps_modEntry | split | refine keeps_foldl _ ?_ (fun _ _ _ => ?_))) <;> simp (maxDischargeDepth := 100) only [*, keeps_ite, keeps_mk, keepsAs_iff, keeps_modEntry]

theorem keeps_stepDecided {d₀ : Dev} (d : Dev) (part group step attempt code : Nat) (entry : Bool) (h : Keeps d₀ d) :
    Keeps d₀ (Dev.stepDecided d part group step attempt code entry) := by
  unfold Dev.stepDecided; try dsimp only
  (with_reducible (repeat' first | assumption | apply keeps_advanceCtx | apply keeps_logAdd | apply keeps_modTrain | split | refine keeps_foldl _ ?_ (fun _ _ _ => ?_))) <;> simp (maxDischargeDepth := 100) only [*, keeps_ite, keeps_mk, keepsAs_iff, keeps_advanceCtx, keeps_logAdd, keeps_modTrain]

theorem keeps_endVote {d₀ : Dev} (d : Dev) (e : Entry) (code attempt members : Nat) (entry : Bool) (h : Keeps d₀ d) :
    Keeps d₀ (Dev.endVote d e code attempt members entry) := by
  unfold Dev.endVote; try dsimp only
  (with_reducible (repeat' first | assumption | apply keeps_dropVals | apply keeps_logAdd | apply keeps_modTrain | apply keeps_setPhase | apply keeps_spend | split | refine keeps_foldl _ ?_ (fun _ _ _ => ?_))) <;> simp (maxDischargeDepth := 100) only [*, keeps_ite, keeps_mk, keepsAs_iff, keeps_dropVals, keeps_logAdd, keeps_modTrain, keeps_setPhase, keeps_spend]

theorem keeps_sendDecision {d₀ : Dev} (d : Dev) (e : Entry) (code attempt : Nat) (h : Keeps d₀ d) :
    Keeps d₀ (Dev.sendDecision d e code attempt) := by
  unfold Dev.sendDecision; try dsimp only
  (with_reducible (repeat' first | assumption | apply keeps_answer | split | refine keeps_foldl _ ?_ (fun _ _ _ => ?_))) <;> simp (maxDischargeDepth := 100) only [*, keeps_ite, keeps_mk, keepsAs_iff, keeps_answer]

theorem keeps_rootDecides {d₀ : Dev} (d : Dev) (e : Entry) (v : VoteWait) (code : Nat) (entry : Bool) (h : Keeps d₀ d) :
    Keeps d₀ (Dev.rootDecides d e v code entry) := by
  unfold Dev.rootDecides; try dsimp only
  (with_reducible (repeat' first | assumption | apply keeps_endVote | apply keeps_recordDecision | apply keeps_sendDecision | split | refine keeps_foldl _ ?_ (fun _ _ _ => ?_))) <;> simp (maxDischargeDepth := 100) only [*, keeps_ite, keeps_mk, keepsAs_iff, keeps_endVote, keeps_recordDecision, keeps_sendDecision]

theorem keeps_doVote {d₀ : Dev} (d : Dev) (c : CmdRef) (h : Keeps d₀ d) :
    Keeps d₀ (doVote d c) := by
  unfold doVote; try dsimp only
  (with_reducible (repeat' first | assumption | refine keeps_onPacket _ _ _ ?_ (fun _ => ?_) | apply keeps_advance | apply keeps_endVote | apply keeps_modEntry | apply keeps_refuse | apply keeps_sendDecision | split | refine keeps_foldl _ ?_ (fun _ _ _ => ?_))) <;> simp (maxDischargeDepth := 100) only [*, keeps_ite, keeps_mk, keepsAs_iff, keeps_advance, keeps_endVote, keeps_modEntry, keeps_refuse, keeps_sendDecision]

theorem keeps_doCommitDecide {d₀ : Dev} (d : Dev) (c : CmdRef) (h : Keeps d₀ d) :
    Keeps d₀ (doCommitDecide d c) := by
  unfold doCommitDecide; try dsimp only
  (with_reducible (repeat' first | assumption | apply keeps_logAdd | apply keeps_rootDecides | apply keeps_setVote | split | refine keeps_foldl _ ?_ (fun _ _ _ => ?_))) <;> simp (maxDischargeDepth := 100) only [*, keeps_ite, keeps_mk, keepsAs_iff, keeps_logAdd, keeps_rootDecides, keeps_setVote]

theorem keeps_doCommitWindowExpire {d₀ : Dev} (d : Dev) (c : CmdRef) (h : Keeps d₀ d) :
    Keeps d₀ (doCommitWindowExpire d c) := by
  unfold doCommitWindowExpire; try dsimp only
  (with_reducible (repeat' first | assumption | apply keeps_rootDecides | split | refine keeps_foldl _ ?_ (fun _ _ _ => ?_))) <;> simp (maxDischargeDepth := 100) only [*, keeps_ite, keeps_mk, keepsAs_iff, keeps_rootDecides]

theorem keeps_doUnsecuredTimeout {d₀ : Dev} (d : Dev) (c : CmdRef) (h : Keeps d₀ d) :
    Keeps d₀ (doUnsecuredTimeout d c) := by
  unfold doUnsecuredTimeout; try dsimp only
  (with_reducible (repeat' first | assumption | apply keeps_advance | apply keeps_rootDecides | apply keeps_setVote | split | refine keeps_foldl _ ?_ (fun _ _ _ => ?_))) <;> simp (maxDischargeDepth := 100) only [*, keeps_ite, keeps_mk, keepsAs_iff, keeps_advance, keeps_rootDecides, keeps_setVote]

theorem keeps_voteGoesOn {d₀ : Dev} (d : Dev) (part : Nat) (c : CmdRef) (h : Keeps d₀ d) :
    Keeps d₀ (Dev.voteGoesOn d part c) := by
  unfold Dev.voteGoesOn; try dsimp only
  (with_reducible (repeat' first | assumption | apply keeps_advance | apply keeps_rootDecides | apply keeps_setVote | split | refine keeps_foldl _ ?_ (fun _ _ _ => ?_))) <;> simp (maxDischargeDepth := 100) only [*, keeps_ite, keeps_mk, keepsAs_iff, keeps_advance, keeps_rootDecides, keeps_setVote]

theorem keeps_doLogEntrySecured {d₀ : Dev} (d : Dev) (part share lsn : Nat) (h : Keeps d₀ d) :
    Keeps d₀ (doLogEntrySecured d part share lsn) := by
  unfold doLogEntrySecured; try dsimp only
  (with_reducible (repeat' first | assumption | apply keeps_modTrain | apply keeps_voteGoesOn | split | refine keeps_foldl _ ?_ (fun _ _ _ => ?_))) <;> simp (maxDischargeDepth := 100) only [*, keeps_ite, keeps_mk, keepsAs_iff, keeps_modTrain, keeps_voteGoesOn]

theorem keeps_answerQuery {d₀ : Dev} (d : Dev) (e : Entry) (step group attempt code : Nat) (h : Keeps d₀ d) :
    Keeps d₀ (Dev.answerQuery d e step group attempt code) := by
  unfold Dev.answerQuery; try dsimp only
  (with_reducible (repeat' first | assumption | apply keeps_due | apply keeps_setPhase | apply keeps_spend | split | refine keeps_foldl _ ?_ (fun _ _ _ => ?_))) <;> simp (maxDischargeDepth := 100) only [*, keeps_ite, keeps_mk, keepsAs_iff, keeps_due, keeps_setPhase, keeps_spend]

theorem keeps_doQuery {d₀ : Dev} (d : Dev) (c : CmdRef) (h : Keeps d₀ d) :
    Keeps d₀ (doQuery d c) := by
  unfold doQuery; try dsimp only
  (with_reducible (repeat' first | assumption | refine keeps_onPacket _ _ _ ?_ (fun _ => ?_) | apply keeps_answerQuery | apply keeps_asking | apply keeps_refuse | apply keeps_sendMsg | split | refine keeps_foldl _ ?_ (fun _ _ _ => ?_))) <;> simp (maxDischargeDepth := 100) only [*, keeps_ite, keeps_mk, keepsAs_iff, keeps_answerQuery, keeps_asking, keeps_refuse, keeps_sendMsg]

theorem keeps_doCommitTableQuery {d₀ : Dev} (d : Dev) (src group step : Nat) (h : Keeps d₀ d) :
    Keeps d₀ (doCommitTableQuery d src group step) := by
  unfold doCommitTableQuery; try dsimp only
  (with_reducible (repeat' first | assumption | apply keeps_answer | split | refine keeps_foldl _ ?_ (fun _ _ _ => ?_))) <;> simp (maxDischargeDepth := 100) only [*, keeps_ite, keeps_mk, keepsAs_iff, keeps_answer]

theorem keeps_answered {d₀ : Dev} (d : Dev) (c : CmdRef) (h : Keeps d₀ d) :
    Keeps d₀ (Dev.answered d c) := by
  unfold Dev.answered; try dsimp only
  (with_reducible (repeat' first | assumption | apply keeps_modLinks | split | refine keeps_foldl _ ?_ (fun _ _ _ => ?_))) <;> simp (maxDischargeDepth := 100) only [*, keeps_ite, keeps_mk, keepsAs_iff, keeps_modLinks]

theorem keeps_decisionFor {d₀ : Dev} (d : Dev) (group step attempt code : Nat) (e : Entry) (h : Keeps d₀ d) :
    Keeps d₀ (Dev.decisionFor d group step attempt code e) := by
  unfold Dev.decisionFor; try dsimp only
  (with_reducible (repeat' first | assumption | apply keeps_answerQuery | apply keeps_answered | apply keeps_endVote | apply keeps_sendDecision | split | refine keeps_foldl _ ?_ (fun _ _ _ => ?_))) <;> simp (maxDischargeDepth := 100) only [*, keeps_ite, keeps_mk, keepsAs_iff, keeps_answerQuery, keeps_answered, keeps_endVote, keeps_sendDecision]

theorem keeps_doDecisionArrive {d₀ : Dev} (d : Dev) (group step attempt code : Nat) (h : Keeps d₀ d) :
    Keeps d₀ (doDecisionArrive d group step attempt code) := by
  unfold doDecisionArrive; try dsimp only
  (with_reducible (repeat' first | assumption | apply keeps_decisionFor | split | refine keeps_foldl _ ?_ (fun _ _ _ => ?_))) <;> simp (maxDischargeDepth := 100) only [*, keeps_ite, keeps_mk, keepsAs_iff, keeps_decisionFor]

theorem keeps_doGroupMessageArrive {d₀ : Dev} (d : Dev) (m : Message) (h : Keeps d₀ d) :
    Keeps d₀ (doGroupMessageArrive d m) := by
  unfold doGroupMessageArrive; try dsimp only
  (with_reducible (repeat' first | assumption | apply keeps_ackMsg | apply keeps_answer | apply keeps_doGroupMessage | split | refine keeps_foldl _ ?_ (fun _ _ _ => ?_))) <;> simp (maxDischargeDepth := 100) only [*, keeps_ite, keeps_mk, keepsAs_iff, keeps_ackMsg, keeps_answer, keeps_doGroupMessage]

end Sys2Proof.Machine
end

