-- ==== Sys2Proof/Laws/KeepsEffects.lean ====
section
/-! SUPPORT. What `Keeps` says of the functions of the links, the streams and the effects at a commit point: one lemma each. -/

set_option linter.all false

namespace Sys2Proof.Machine

/-! ### Links -/

theorem keeps_setRoutes {d₀ : Dev} (d : Dev) (runs : List (Nat × Nat × Nat)) (h : Keeps d₀ d) :
    Keeps d₀ (Dev.setRoutes d runs) := by
  unfold Dev.setRoutes; try dsimp only
  (with_reducible (repeat' first | assumption | apply keeps_modLinks | split | refine keeps_foldl _ ?_ (fun _ _ _ => ?_))) <;> simp (maxDischargeDepth := 100) only [*, keeps_ite, keeps_mk, keepsAs_iff, keeps_modLinks]

theorem keeps_letHeldGo {d₀ : Dev} (d : Dev) (m : Held) (h : Keeps d₀ d) :
    Keeps d₀ (Dev.letHeldGo d m) := by
  unfold Dev.letHeldGo; try dsimp only
  (with_reducible (repeat' first | assumption | apply keeps_answer | apply keeps_leave | apply keeps_modLinks | split | refine keeps_foldl _ ?_ (fun _ _ _ => ?_))) <;> simp (maxDischargeDepth := 100) only [*, keeps_ite, keeps_mk, keepsAs_iff, keeps_answer, keeps_leave, keeps_modLinks]

theorem keeps_doRouteHoldRelease {d₀ : Dev} (d : Dev) (dst : Nat) (h : Keeps d₀ d) :
    Keeps d₀ (doRouteHoldRelease d dst) := by
  unfold doRouteHoldRelease; try dsimp only
  (with_reducible (repeat' first | assumption | apply keeps_letHeldGo | apply keeps_modLinks | split | refine keeps_foldl _ ?_ (fun _ _ _ => ?_))) <;> simp (maxDischargeDepth := 100) only [*, keeps_ite, keeps_mk, keepsAs_iff, keeps_letHeldGo, keeps_modLinks]

theorem keeps_doLinkWriteData {d₀ : Dev} (d : Dev) (m : Message) (h : Keeps d₀ d) :
    Keeps d₀ (doLinkWriteData d m) := by
  unfold doLinkWriteData; try dsimp only
  (with_reducible (repeat' first | assumption | apply keeps_ackMsg | apply keeps_answer | apply keeps_modLinks | split | refine keeps_foldl _ ?_ (fun _ _ _ => ?_))) <;> simp (maxDischargeDepth := 100) only [*, keeps_ite, keeps_mk, keepsAs_iff, keeps_ackMsg, keeps_answer, keeps_modLinks]

theorem keeps_failSender {d₀ : Dev} (d : Dev) (msg status : Nat) (h : Keeps d₀ d) :
    Keeps d₀ (Dev.failSender d msg status) := by
  unfold Dev.failSender; try dsimp only
  (with_reducible (repeat' first | assumption | apply keeps_failEntry | apply keeps_modEntry | apply keeps_settled | split | refine keeps_foldl _ ?_ (fun _ _ _ => ?_))) <;> simp (maxDischargeDepth := 100) only [*, keeps_ite, keeps_mk, keepsAs_iff, keeps_failEntry, keeps_modEntry, keeps_settled]

theorem keeps_landShadows {d₀ : Dev} (d : Dev) (m : Message) (xfer : Nat) (h : Keeps d₀ d) :
    Keeps d₀ (Dev.landShadows d m xfer) := by
  unfold Dev.landShadows; try dsimp only
  (with_reducible (repeat' first | assumption | apply keeps_ackMsg | apply keeps_answer | apply keeps_keepOld | apply keeps_modLinks | apply keeps_poke | split | refine keeps_foldl _ ?_ (fun _ _ _ => ?_))) <;> simp (maxDischargeDepth := 100) only [*, keeps_ite, keeps_mk, keepsAs_iff, keeps_ackMsg, keeps_answer, keeps_keepOld, keeps_modLinks, keeps_poke]

theorem keeps_doCommitMessage {d₀ : Dev} (d : Dev) (m : Message) (h : Keeps d₀ d) :
    Keeps d₀ (doCommitMessage d m) := by
  unfold doCommitMessage; try dsimp only
  (with_reducible (repeat' first | assumption | apply keeps_ackMsg | apply keeps_answer | apply keeps_failSender | apply keeps_landShadows | apply keeps_signal | split | refine keeps_foldl _ ?_ (fun _ _ _ => ?_))) <;> simp (maxDischargeDepth := 100) only [*, keeps_ite, keeps_mk, keepsAs_iff, keeps_ackMsg, keeps_answer, keeps_failSender, keeps_landShadows, keeps_signal]

theorem keeps_sendingDone {d₀ : Dev} (d : Dev) (c : CmdRef) (h : Keeps d₀ d) :
    Keeps d₀ (Dev.sendingDone d c) := by
  unfold Dev.sendingDone; try dsimp only
  (with_reducible (repeat' first | assumption | apply keeps_modEntry | split | refine keeps_foldl _ ?_ (fun _ _ _ => ?_))) <;> simp (maxDischargeDepth := 100) only [*, keeps_ite, keeps_mk, keepsAs_iff, keeps_modEntry]

theorem keeps_sendCommits {d₀ : Dev} (d : Dev) (c : CmdRef) (h : Keeps d₀ d) :
    Keeps d₀ (Dev.sendCommits d c) := by
  unfold Dev.sendCommits; try dsimp only
  (with_reducible (repeat' first | assumption | apply keeps_sendMsg | split | refine keeps_foldl _ ?_ (fun _ _ _ => ?_))) <;> simp (maxDischargeDepth := 100) only [*, keeps_ite, keeps_mk, keepsAs_iff, keeps_sendMsg]

theorem keeps_doEndToEndAck {d₀ : Dev} (d : Dev) (msg : Nat) (h : Keeps d₀ d) :
    Keeps d₀ (doEndToEndAck d msg) := by
  unfold doEndToEndAck; try dsimp only
  (with_reducible (repeat' first | assumption | apply keeps_sendCommits | apply keeps_sendMsg | apply keeps_sendingDone | apply keeps_settled | apply keeps_toHost | split | refine keeps_foldl _ ?_ (fun _ _ _ => ?_))) <;> simp (maxDischargeDepth := 100) only [*, keeps_ite, keeps_mk, keepsAs_iff, keeps_sendCommits, keeps_sendMsg, keeps_sendingDone, keeps_settled, keeps_toHost]

theorem keeps_doUnreachable {d₀ : Dev} (d : Dev) (msg : Nat) (h : Keeps d₀ d) :
    Keeps d₀ (doUnreachable d msg) := by
  unfold doUnreachable; try dsimp only
  (with_reducible (repeat' first | assumption | apply keeps_failSender | apply keeps_hostLost | split | refine keeps_foldl _ ?_ (fun _ _ _ => ?_))) <;> simp (maxDischargeDepth := 100) only [*, keeps_ite, keeps_mk, keepsAs_iff, keeps_failSender, keeps_hostLost]

theorem keeps_doMessageLost {d₀ : Dev} (d : Dev) (msg : Nat) (h : Keeps d₀ d) :
    Keeps d₀ (doMessageLost d msg) := by
  unfold doMessageLost; try dsimp only
  (with_reducible (repeat' first | assumption | apply keeps_failSender | apply keeps_hostLost | split | refine keeps_foldl _ ?_ (fun _ _ _ => ?_))) <;> simp (maxDischargeDepth := 100) only [*, keeps_ite, keeps_mk, keepsAs_iff, keeps_failSender, keeps_hostLost]

theorem keeps_doMessageForward {d₀ : Dev} (d : Dev) (port cls : Nat) (m : Message) (h : Keeps d₀ d) :
    Keeps d₀ (doMessageForward d port cls m) := by
  unfold doMessageForward; try dsimp only
  (with_reducible (repeat' first | assumption | apply keeps_answer | apply keeps_countDrop | apply keeps_hostForward | apply keeps_leave | apply keeps_modPort | split | refine keeps_foldl _ ?_ (fun _ _ _ => ?_))) <;> simp (maxDischargeDepth := 100) only [*, keeps_ite, keeps_mk, keepsAs_iff, keeps_answer, keeps_countDrop, keeps_hostForward, keeps_leave, keeps_modPort]

theorem keeps_doFlitReceive {d₀ : Dev} (d : Dev) (port : Nat) (f : FlitIn) (h : Keeps d₀ d) :
    Keeps d₀ (doFlitReceive d port f) := by
  unfold doFlitReceive; try dsimp only
  (with_reducible (repeat' first | assumption | apply keeps_modPort | split | refine keeps_foldl _ ?_ (fun _ _ _ => ?_))) <;> simp (maxDischargeDepth := 100) only [*, keeps_ite, keeps_mk, keepsAs_iff, keeps_modPort]

theorem keeps_doReplayRequest {d₀ : Dev} (d : Dev) (port num : Nat) (h : Keeps d₀ d) :
    Keeps d₀ (doReplayRequest d port num) := by
  unfold doReplayRequest; try dsimp only
  (with_reducible (repeat' first | assumption | apply keeps_modPort | split | refine keeps_foldl _ ?_ (fun _ _ _ => ?_))) <;> simp (maxDischargeDepth := 100) only [*, keeps_ite, keeps_mk, keepsAs_iff, keeps_modPort]

theorem keeps_pathFails {d₀ : Dev} (d : Dev) (port : Nat) (h : Keeps d₀ d) :
    Keeps d₀ (Dev.pathFails d port) := by
  unfold Dev.pathFails; try dsimp only
  (with_reducible (repeat' first | assumption | apply keeps_refuse | split | refine keeps_foldl _ ?_ (fun _ _ _ => ?_))) <;> simp (maxDischargeDepth := 100) only [*, keeps_ite, keeps_mk, keepsAs_iff, keeps_refuse]

theorem keeps_portDown {d₀ : Dev} (d : Dev) (port : Nat) (chatter : Bool) (h : Keeps d₀ d) :
    Keeps d₀ (Dev.portDown d port chatter) := by
  unfold Dev.portDown; try dsimp only
  (with_reducible (repeat' first | assumption | apply keeps_due | apply keeps_modPort | apply keeps_pathFails | split | refine keeps_foldl _ ?_ (fun _ _ _ => ?_))) <;> simp (maxDischargeDepth := 100) only [*, keeps_ite, keeps_mk, keepsAs_iff, keeps_due, keeps_modPort, keeps_pathFails]

theorem keeps_doRetrain {d₀ : Dev} (d : Dev) (port : Nat) (cause : RetrainCause) (badLane : Option Nat) (h : Keeps d₀ d) :
    Keeps d₀ (doRetrain d port cause badLane) := by
  unfold doRetrain; try dsimp only
  (with_reducible (repeat' first | assumption | apply keeps_modPort | apply keeps_portDown | split | refine keeps_foldl _ ?_ (fun _ _ _ => ?_))) <;> simp (maxDischargeDepth := 100) only [*, keeps_ite, keeps_mk, keepsAs_iff, keeps_modPort, keeps_portDown]

theorem keeps_doRetrainDone {d₀ : Dev} (d : Dev) (port : Nat) (h : Keeps d₀ d) :
    Keeps d₀ (doRetrainDone d port) := by
  unfold doRetrainDone; try dsimp only
  (with_reducible (repeat' first | assumption | apply keeps_modPort | split | refine keeps_foldl _ ?_ (fun _ _ _ => ?_))) <;> simp (maxDischargeDepth := 100) only [*, keeps_ite, keeps_mk, keepsAs_iff, keeps_modPort]

theorem keeps_doRetrainTimeout {d₀ : Dev} (d : Dev) (port : Nat) (h : Keeps d₀ d) :
    Keeps d₀ (doRetrainTimeout d port) := by
  unfold doRetrainTimeout; try dsimp only
  (with_reducible (repeat' first | assumption | apply keeps_portDown | split | refine keeps_foldl _ ?_ (fun _ _ _ => ?_))) <;> simp (maxDischargeDepth := 100) only [*, keeps_ite, keeps_mk, keepsAs_iff, keeps_portDown]

theorem keeps_doFullTrainingDone {d₀ : Dev} (d : Dev) (port : Nat) (bad : List Nat) (h : Keeps d₀ d) :
    Keeps d₀ (doFullTrainingDone d port bad) := by
  unfold doFullTrainingDone; try dsimp only
  (with_reducible (repeat' first | assumption | apply keeps_modPort | apply keeps_portDown | split | refine keeps_foldl _ ?_ (fun _ _ _ => ?_))) <;> simp (maxDischargeDepth := 100) only [*, keeps_ite, keeps_mk, keepsAs_iff, keeps_modPort, keeps_portDown]

theorem keeps_writePortCtl {d₀ : Dev} (d : Dev) (port v : Nat) (h : Keeps d₀ d) :
    Keeps d₀ (Dev.writePortCtl d port v) := by
  unfold Dev.writePortCtl; try dsimp only
  (with_reducible (repeat' first | assumption | apply keeps_modPort | split | refine keeps_foldl _ ?_ (fun _ _ _ => ?_))) <;> simp (maxDischargeDepth := 100) only [*, keeps_ite, keeps_mk, keepsAs_iff, keeps_modPort]

theorem keeps_writeDevNum {d₀ : Dev} (d : Dev) (v : Nat) (h : Keeps d₀ d) :
    Keeps d₀ (Dev.writeDevNum d v) := by
  unfold Dev.writeDevNum; try dsimp only
  (with_reducible (repeat' first | assumption | apply keeps_modLinks | split | refine keeps_foldl _ ?_ (fun _ _ _ => ?_))) <;> simp (maxDischargeDepth := 100) only [*, keeps_ite, keeps_mk, keepsAs_iff, keeps_modLinks]

theorem keeps_notify {d₀ : Dev} (d : Dev) (vec : Nat) (h : Keeps d₀ d) :
    Keeps d₀ (Dev.notify d vec) := by
  unfold Dev.notify; try dsimp only
  (with_reducible (repeat' first | assumption | apply keeps_hostBound | split | refine keeps_foldl _ ?_ (fun _ _ _ => ?_))) <;> simp (maxDischargeDepth := 100) only [*, keeps_ite, keeps_mk, keepsAs_iff, keeps_hostBound]

theorem keeps_doMsixCoalesced {d₀ : Dev} (d : Dev) (v : Nat) (h : Keeps d₀ d) :
    Keeps d₀ (doMsixCoalesced d v) := by
  unfold doMsixCoalesced; try dsimp only
  (with_reducible (repeat' first | assumption | apply keeps_modLinks | apply keeps_raiseMsix | split | refine keeps_foldl _ ?_ (fun _ _ _ => ?_))) <;> simp (maxDischargeDepth := 100) only [*, keeps_ite, keeps_mk, keepsAs_iff, keeps_modLinks, keeps_raiseMsix]

theorem keeps_doMsixUnmask {d₀ : Dev} (d : Dev) (v : Nat) (h : Keeps d₀ d) :
    Keeps d₀ (doMsixUnmask d v) := by
  unfold doMsixUnmask; try dsimp only
  (with_reducible (repeat' first | assumption | apply keeps_hostBound | apply keeps_modLinks | split | refine keeps_foldl _ ?_ (fun _ _ _ => ?_))) <;> simp (maxDischargeDepth := 100) only [*, keeps_ite, keeps_mk, keepsAs_iff, keeps_hostBound, keeps_modLinks]

theorem keeps_doHostPathUp {d₀ : Dev} (d : Dev) (speed width : Nat) (h : Keeps d₀ d) :
    Keeps d₀ (doHostPathUp d speed width) := by
  unfold doHostPathUp; try dsimp only
  (with_reducible (repeat' first | assumption | apply keeps_hostResend | apply keeps_modLinks | split | refine keeps_foldl _ ?_ (fun _ _ _ => ?_))) <;> simp (maxDischargeDepth := 100) only [*, keeps_ite, keeps_mk, keepsAs_iff, keeps_hostResend, keeps_modLinks]

theorem keeps_doHostPathDown {d₀ : Dev} (d : Dev) (cause : HostDownCause) (h : Keeps d₀ d) :
    Keeps d₀ (doHostPathDown d cause) := by
  unfold doHostPathDown; try dsimp only
  (with_reducible (repeat' first | assumption | apply keeps_modLinks | split | refine keeps_foldl _ ?_ (fun _ _ _ => ?_))) <;> simp (maxDischargeDepth := 100) only [*, keeps_ite, keeps_mk, keepsAs_iff, keeps_modLinks]

theorem keeps_doRouteSet {d₀ : Dev} (d : Dev) (c : CmdRef) (h : Keeps d₀ d) :
    Keeps d₀ (doRouteSet d c) := by
  unfold doRouteSet; try dsimp only
  (with_reducible (repeat' first | assumption | refine keeps_onPacket _ _ _ ?_ (fun _ => ?_) | apply keeps_runClaimed | split | refine keeps_foldl _ ?_ (fun _ _ _ => ?_))) <;> simp (maxDischargeDepth := 100) only [*, keeps_ite, keeps_mk, keepsAs_iff, keeps_runClaimed]

theorem keeps_doGroupDeclare {d₀ : Dev} (d : Dev) (c : CmdRef) (h : Keeps d₀ d) :
    Keeps d₀ (doGroupDeclare d c) := by
  unfold doGroupDeclare; try dsimp only
  (with_reducible (repeat' first | assumption | refine keeps_onPacket _ _ _ ?_ (fun _ => ?_) | apply keeps_runClaimed | split | refine keeps_foldl _ ?_ (fun _ _ _ => ?_))) <;> simp (maxDischargeDepth := 100) only [*, keeps_ite, keeps_mk, keepsAs_iff, keeps_runClaimed]

theorem keeps_doGroupRemove {d₀ : Dev} (d : Dev) (c : CmdRef) (h : Keeps d₀ d) :
    Keeps d₀ (doGroupRemove d c) := by
  unfold doGroupRemove; try dsimp only
  (with_reducible (repeat' first | assumption | refine keeps_onPacket _ _ _ ?_ (fun _ => ?_) | apply keeps_runClaimed | split | refine keeps_foldl _ ?_ (fun _ _ _ => ?_))) <;> simp (maxDischargeDepth := 100) only [*, keeps_ite, keeps_mk, keepsAs_iff, keeps_runClaimed]

theorem keeps_doLinkWrite {d₀ : Dev} (d : Dev) (c : CmdRef) (h : Keeps d₀ d) :
    Keeps d₀ (doLinkWrite d c) := by
  unfold doLinkWrite; try dsimp only
  (with_reducible (repeat' first | assumption | refine keeps_onPacket _ _ _ ?_ (fun _ => ?_) | apply keeps_runThenSend | split | refine keeps_foldl _ ?_ (fun _ _ _ => ?_))) <;> simp (maxDischargeDepth := 100) only [*, keeps_ite, keeps_mk, keepsAs_iff, keeps_runThenSend]

theorem keeps_doLinkSignal {d₀ : Dev} (d : Dev) (c : CmdRef) (h : Keeps d₀ d) :
    Keeps d₀ (doLinkSignal d c) := by
  unfold doLinkSignal; try dsimp only
  (with_reducible (repeat' first | assumption | refine keeps_onPacket _ _ _ ?_ (fun _ => ?_) | apply keeps_runThenSend | split | refine keeps_foldl _ ?_ (fun _ _ _ => ?_))) <;> simp (maxDischargeDepth := 100) only [*, keeps_ite, keeps_mk, keepsAs_iff, keeps_runThenSend]

/-! ### Streams -/

theorem keeps_hostWrite {d₀ : Dev} (d : Dev) (iova : Nat) (data : List Byte) (h : Keeps d₀ d) :
    Keeps d₀ (Dev.hostWrite d iova data) := by
  unfold Dev.hostWrite; try dsimp only
  (with_reducible (repeat' first | assumption | apply keeps_hostBound | split | refine keeps_foldl _ ?_ (fun _ _ _ => ?_))) <;> simp (maxDischargeDepth := 100) only [*, keeps_ite, keeps_mk, keepsAs_iff, keeps_hostBound]

theorem keeps_setRequest {d₀ : Dev} (d : Dev) (id : Nat) (r : Request) (h : Keeps d₀ d) :
    Keeps d₀ (Dev.setRequest d id r) := by
  unfold Dev.setRequest; try dsimp only
  (with_reducible (repeat' first | assumption | split | refine keeps_foldl _ ?_ (fun _ _ _ => ?_))) <;>
      simp (maxDischargeDepth := 100) only [*, keeps_ite, keeps_mk, keepsAs_iff]

theorem keeps_doStreamDeliver {d₀ : Dev} (d : Dev) (id : Nat) (h : Keeps d₀ d) :
    Keeps d₀ (doStreamDeliver d id) := by
  unfold doStreamDeliver; try dsimp only
  (with_reducible (repeat' first | assumption | apply keeps_hostWrite | apply keeps_setRequest | split | refine keeps_foldl _ ?_ (fun _ _ _ => ?_))) <;> simp (maxDischargeDepth := 100) only [*, keeps_ite, keeps_mk, keepsAs_iff, keeps_hostWrite, keeps_setRequest]

theorem keeps_doConsRead {d₀ : Dev} (d : Dev) (id : Nat) (h : Keeps d₀ d) :
    Keeps d₀ (doConsRead d id) := by
  unfold doConsRead; try dsimp only
  (with_reducible (repeat' first | assumption | apply keeps_setRequest | split | refine keeps_foldl _ ?_ (fun _ _ _ => ?_))) <;> simp (maxDischargeDepth := 100) only [*, keeps_ite, keeps_mk, keepsAs_iff, keeps_setRequest]

/-! ### Effects -/

theorem keeps_markBlock {d₀ : Dev} (d : Dev) (pa len : Nat) (h : Keeps d₀ d) :
    Keeps d₀ (Dev.markBlock d pa len) := by
  unfold Dev.markBlock; try dsimp only
  (with_reducible (repeat' first | assumption | apply keeps_markDirty | split | refine keeps_foldl _ ?_ (fun _ _ _ => ?_))) <;> simp (maxDischargeDepth := 100) only [*, keeps_ite, keeps_mk, keepsAs_iff, keeps_markDirty]

theorem keeps_pokeBlock {d₀ : Dev} (d : Dev) (pa len : Nat) (cells : List Host.Cell) (h : Keeps d₀ d) : Keeps d₀ (d.pokeBlock pa len cells) := by
  unfold Dev.pokeBlock; exact keeps_mem (keeps_markBlock _ _ _ h) _ (fun w => tblWf_putCells _ _ _ w) (fun w => w)

theorem setUse_bytes (m : Mem) (t : Tier) (p : Nat) (u : PageUse) : (m.setUse t p u).bytes = m.bytes := by cases t <;> rfl
theorem setUse_host (m : Mem) (t : Tier) (p : Nat) (u : PageUse) : (m.setUse t p u).host = m.host := by cases t <;> rfl

theorem keeps_setUse {d₀ : Dev} (d : Dev) (t : Tier) (p : Nat) (u : PageUse) (h : Keeps d₀ d) :
    Keeps d₀ (Dev.setUse d t p u) := by
  unfold Dev.setUse; try dsimp only
  (with_reducible (repeat' first | assumption | apply keeps_modMem | split | refine keeps_foldl _ ?_ (fun _ _ _ => ?_))) <;> simp (maxDischargeDepth := 100) only [*, keeps_ite, keeps_mk, keepsAs_iff, keeps_modMem, setUse_bytes, setUse_host]

theorem keeps_addZero {d₀ : Dev} (d : Dev) (i : ZeroItem) (h : Keeps d₀ d) :
    Keeps d₀ (Dev.addZero d i) := by
  unfold Dev.addZero; try dsimp only
  (with_reducible (repeat' first | assumption | apply keeps_modMem | split | refine keeps_foldl _ ?_ (fun _ _ _ => ?_))) <;> simp (maxDischargeDepth := 100) only [*, keeps_ite, keeps_mk, keepsAs_iff, keeps_modMem]

theorem keeps_extendMeas {d₀ : Dev} (d : Dev) (m : Nat) (digest : List Byte) (h : Keeps d₀ d) :
    Keeps d₀ (Dev.extendMeas d m digest) := by
  unfold Dev.extendMeas; try dsimp only
  (with_reducible (repeat' first | assumption | split | refine keeps_foldl _ ?_ (fun _ _ _ => ?_))) <;>
      simp (maxDischargeDepth := 100) only [*, keeps_ite, keeps_mk, keepsAs_iff]

theorem keeps_modReqs {d₀ : Dev} (d : Dev) (f : Reqs → Reqs) (h : Keeps d₀ d) :
    Keeps d₀ (Dev.modReqs d f) := by
  unfold Dev.modReqs; try dsimp only
  (with_reducible (repeat' first | assumption | split | refine keeps_foldl _ ?_ (fun _ _ _ => ?_))) <;>
      simp (maxDischargeDepth := 100) only [*, keeps_ite, keeps_mk, keepsAs_iff]

theorem keeps_modRequest {d₀ : Dev} (d : Dev) (id : Nat) (f : Request → Request) (h : Keeps d₀ d) :
    Keeps d₀ (Dev.modRequest d id f) := by
  unfold Dev.modRequest; try dsimp only
  (with_reducible (repeat' first | assumption | apply keeps_setRequest | split | refine keeps_foldl _ ?_ (fun _ _ _ => ?_))) <;> simp (maxDischargeDepth := 100) only [*, keeps_ite, keeps_mk, keepsAs_iff, keeps_setRequest]

theorem keeps_modTenant {d₀ : Dev} (d : Dev) (t : Nat) (f : Tenant → Tenant) (h : Keeps d₀ d) :
    Keeps d₀ (Dev.modTenant d t f) := by
  unfold Dev.modTenant; try dsimp only
  (with_reducible (repeat' first | assumption | apply keeps_modReqs | split | refine keeps_foldl _ ?_ (fun _ _ _ => ?_))) <;> simp (maxDischargeDepth := 100) only [*, keeps_ite, keeps_mk, keepsAs_iff, keeps_modReqs]

theorem keeps_modPool {d₀ : Dev} (d : Dev) (part : Nat) (f : Tbl PoolPage → Tbl PoolPage) (h : Keeps d₀ d) :
    Keeps d₀ (Dev.modPool d part f) := by
  unfold Dev.modPool; try dsimp only
  (with_reducible (repeat' first | assumption | apply keeps_modReqs | split | refine keeps_foldl _ ?_ (fun _ _ _ => ?_))) <;> simp (maxDischargeDepth := 100) only [*, keeps_ite, keeps_mk, keepsAs_iff, keeps_modReqs]

theorem keeps_admitRequest {d₀ : Dev} (d : Dev) (part id : Nat) (a : Admission) (h : Keeps d₀ d) :
    Keeps d₀ (Dev.admitRequest d part id a) := by
  unfold Dev.admitRequest; try dsimp only
  (with_reducible (repeat' first | assumption | apply keeps_modReqs | apply keeps_modTenant | apply keeps_setRequest | split | refine keeps_foldl _ ?_ (fun _ _ _ => ?_))) <;> simp (maxDischargeDepth := 100) only [*, keeps_ite, keeps_mk, keepsAs_iff, keeps_modReqs, keeps_modTenant, keeps_setRequest]

theorem keeps_returnPages {d₀ : Dev} (d : Dev) (id : Nat) (idxs : List Nat) (h : Keeps d₀ d) :
    Keeps d₀ (Dev.returnPages d id idxs) := by
  unfold Dev.returnPages; try dsimp only
  (with_reducible (repeat' first | assumption | apply keeps_modPool | apply keeps_setRequest | split | refine keeps_foldl _ ?_ (fun _ _ _ => ?_))) <;> simp (maxDischargeDepth := 100) only [*, keeps_ite, keeps_mk, keepsAs_iff, keeps_modPool, keeps_setRequest]

theorem keeps_endLive {d₀ : Dev} (d : Dev) (id : Nat) (h : Keeps d₀ d) :
    Keeps d₀ (Dev.endLive d id) := by
  unfold Dev.endLive; try dsimp only
  (with_reducible (repeat' first | assumption | apply keeps_modTenant | apply keeps_setRequest | split | refine keeps_foldl _ ?_ (fun _ _ _ => ?_))) <;> simp (maxDischargeDepth := 100) only [*, keeps_ite, keeps_mk, keepsAs_iff, keeps_modTenant, keeps_setRequest]

theorem keeps_addRecord {d₀ : Dev} (d : Dev) (c : CmdRef) (rec : List Byte) (h : Keeps d₀ d) :
    Keeps d₀ (Dev.addRecord d c rec) := by
  unfold Dev.addRecord; try dsimp only
  (with_reducible (repeat' first | assumption | apply keeps_modEntry | split | refine keeps_foldl _ ?_ (fun _ _ _ => ?_))) <;> simp (maxDischargeDepth := 100) only [*, keeps_ite, keeps_mk, keepsAs_iff, keeps_modEntry]

theorem keeps_expireNow {d₀ : Dev} (d : Dev) (c : CmdRef) (opcode id : Nat) (yielded : Bool) (h : Keeps d₀ d) :
    Keeps d₀ (Dev.expireNow d c opcode id yielded) := by
  unfold Dev.expireNow; try dsimp only
  (with_reducible (repeat' first | assumption | apply keeps_addRecord | apply keeps_endLive | apply keeps_modReqs | apply keeps_modRequest | apply keeps_returnPages | split | refine keeps_foldl _ ?_ (fun _ _ _ => ?_))) <;> simp (maxDischargeDepth := 100) only [*, keeps_ite, keeps_mk, keepsAs_iff, keeps_addRecord, keeps_endLive, keeps_modReqs, keeps_modRequest, keeps_returnPages]

theorem keeps_releaseReq {d₀ : Dev} (d : Dev) (id : Nat) (h : Keeps d₀ d) :
    Keeps d₀ (Dev.releaseReq d id) := by
  unfold Dev.releaseReq; try dsimp only
  (with_reducible (repeat' first | assumption | apply keeps_endLive | apply keeps_modReqs | apply keeps_returnPages | split | refine keeps_foldl _ ?_ (fun _ _ _ => ?_))) <;> simp (maxDischargeDepth := 100) only [*, keeps_ite, keeps_mk, keepsAs_iff, keeps_endLive, keeps_modReqs, keeps_returnPages]

theorem keeps_openPeriod {d₀ : Dev} (d : Dev) (part slot : Nat) (p : Period) (h : Keeps d₀ d) :
    Keeps d₀ (Dev.openPeriod d part slot p) := by
  unfold Dev.openPeriod; try dsimp only
  (with_reducible (repeat' first | assumption | apply keeps_modReqs | apply keeps_modRequest | split | refine keeps_foldl _ ?_ (fun _ _ _ => ?_))) <;> simp (maxDischargeDepth := 100) only [*, keeps_ite, keeps_mk, keepsAs_iff, keeps_modReqs, keeps_modRequest]

theorem keeps_charge {d₀ : Dev} (d : Dev) (id n : Nat) (h : Keeps d₀ d) :
    Keeps d₀ (Dev.charge d id n) := by
  unfold Dev.charge; try dsimp only
  (with_reducible (repeat' first | assumption | apply keeps_modTenant | apply keeps_setRequest | split | refine keeps_foldl _ ?_ (fun _ _ _ => ?_))) <;> simp (maxDischargeDepth := 100) only [*, keeps_ite, keeps_mk, keepsAs_iff, keeps_modTenant, keeps_setRequest]

theorem keeps_closeRow {d₀ : Dev} (d : Dev) (c : CmdRef) (p : Period) (x : CloseRow) (h : Keeps d₀ d) :
    Keeps d₀ (Dev.closeRow d c p x) := by
  unfold Dev.closeRow; try dsimp only
  (with_reducible (repeat' first | assumption | apply keeps_addRecord | apply keeps_charge | apply keeps_endLive | apply keeps_modReqs | apply keeps_modRequest | apply keeps_returnPages | apply keeps_setRequest | split | refine keeps_foldl _ ?_ (fun _ _ _ => ?_))) <;> simp (maxDischargeDepth := 100) only [*, keeps_ite, keeps_mk, keepsAs_iff, keeps_addRecord, keeps_charge, keeps_endLive, keeps_modReqs, keeps_modRequest, keeps_returnPages, keeps_setRequest]

theorem keeps_closePeriod {d₀ : Dev} (d : Dev) (c : CmdRef) (part slot : Nat) (rows : List CloseRow) (h : Keeps d₀ d) :
    Keeps d₀ (Dev.closePeriod d c part slot rows) := by
  unfold Dev.closePeriod; try dsimp only
  (with_reducible (repeat' first | assumption | apply keeps_closeRow | apply keeps_modReqs | split | refine keeps_foldl _ ?_ (fun _ _ _ => ?_))) <;> simp (maxDischargeDepth := 100) only [*, keeps_ite, keeps_mk, keepsAs_iff, keeps_closeRow, keeps_modReqs]

theorem keeps_abortPeriod {d₀ : Dev} (d : Dev) (part slot : Nat) (h : Keeps d₀ d) :
    Keeps d₀ (Dev.abortPeriod d part slot) := by
  unfold Dev.abortPeriod; try dsimp only
  (with_reducible (repeat' first | assumption | apply keeps_modReqs | apply keeps_returnPages | apply keeps_setRequest | split | refine keeps_foldl _ ?_ (fun _ _ _ => ?_))) <;> simp (maxDischargeDepth := 100) only [*, keeps_ite, keeps_mk, keepsAs_iff, keeps_modReqs, keeps_returnPages, keeps_setRequest]

theorem keeps_modWick {d₀ : Dev} (d : Dev) (f : Wick → Wick) (h : Keeps d₀ d) :
    Keeps d₀ (Dev.modWick d f) := by
  unfold Dev.modWick; try dsimp only
  (with_reducible (repeat' first | assumption | split | refine keeps_foldl _ ?_ (fun _ _ _ => ?_))) <;>
      simp (maxDischargeDepth := 100) only [*, keeps_ite, keeps_mk, keepsAs_iff]

theorem keeps_modLive {d₀ : Dev} (d : Dev) (part idx : Nat) (f : WickLive → WickLive) (h : Keeps d₀ d) :
    Keeps d₀ (Dev.modLive d part idx f) := by
  unfold Dev.modLive; try dsimp only
  (with_reducible (repeat' first | assumption | apply keeps_modWick | split | refine keeps_foldl _ ?_ (fun _ _ _ => ?_))) <;> simp (maxDischargeDepth := 100) only [*, keeps_ite, keeps_mk, keepsAs_iff, keeps_modWick]

theorem keeps_releaseFrame {d₀ : Dev} (d : Dev) (part idx : Nat) (h : Keeps d₀ d) :
    Keeps d₀ (Dev.releaseFrame d part idx) := by
  unfold Dev.releaseFrame; try dsimp only
  (with_reducible (repeat' first | assumption | apply keeps_modLive | apply keeps_signal | split | refine keeps_foldl _ ?_ (fun _ _ _ => ?_))) <;> simp (maxDischargeDepth := 100) only [*, keeps_ite, keeps_mk, keepsAs_iff, keeps_modLive, keeps_signal]

theorem keeps_applyTrain {d₀ : Dev} (d : Dev) (x : TrainEffect) (h : Keeps d₀ d) :
    Keeps d₀ (Dev.applyTrain d x) := by
  unfold Dev.applyTrain; try dsimp only
  (with_reducible (repeat' first | assumption | apply keeps_contribArrives | apply keeps_logAdd | apply keeps_logDecision | apply keeps_logRestored | apply keeps_mark | apply keeps_modPart | apply keeps_modTrain | apply keeps_modTraining | apply keeps_modTreadle | apply keeps_restored | apply keeps_snapTaken | apply keeps_stepDecided | split | refine keeps_foldl _ ?_ (fun _ _ _ => ?_))) <;> simp (maxDischargeDepth := 100) only [*, keeps_ite, keeps_mk, keepsAs_iff, keeps_contribArrives, keeps_logAdd, keeps_logDecision, keeps_logRestored, keeps_mark, keeps_modPart, keeps_modTrain, keeps_modTraining, keeps_modTreadle, keeps_restored, keeps_snapTaken, keeps_stepDecided]

theorem keeps_applyLink {d₀ : Dev} (d : Dev) (x : LinkEffect) (h : Keeps d₀ d) :
    Keeps d₀ (Dev.applyLink d x) := by
  unfold Dev.applyLink; try dsimp only
  (with_reducible (repeat' first | assumption | apply keeps_modLinks | apply keeps_setRoutes | split | refine keeps_foldl _ ?_ (fun _ _ _ => ?_))) <;> simp (maxDischargeDepth := 100) only [*, keeps_ite, keeps_mk, keepsAs_iff, keeps_modLinks, keeps_setRoutes]

theorem keeps_applyLamp {d₀ : Dev} (d : Dev) (x : LampEffect) (h : Keeps d₀ d) :
    Keeps d₀ (Dev.applyLamp d x) := by
  unfold Dev.applyLamp; try dsimp only
  (with_reducible (repeat' first | assumption | apply keeps_extendMeas | split | refine keeps_foldl _ ?_ (fun _ _ _ => ?_))) <;> simp (maxDischargeDepth := 100) only [*, keeps_ite, keeps_mk, keepsAs_iff, keeps_extendMeas]

theorem keeps_zeroRing {d₀ : Dev} (d : Dev) (pieces : List Nat) (len : Nat) (h : Keeps d₀ d) :
    Keeps d₀ (Dev.zeroRing d pieces len) := by
  unfold Dev.zeroRing; try dsimp only
  (with_reducible (repeat' first | assumption | apply keeps_pokeBlock | split | refine keeps_foldl _ ?_ (fun _ _ _ => ?_))) <;> simp (maxDischargeDepth := 100) only [*, keeps_ite, keeps_mk, keepsAs_iff, keeps_pokeBlock]

theorem keeps_zeroSpindles {d₀ : Dev} (d : Dev) (sps : List Nat) (h : Keeps d₀ d) :
    Keeps d₀ (Dev.zeroSpindles d sps) := by
  unfold Dev.zeroSpindles; try dsimp only
  (with_reducible (repeat' first | assumption | apply keeps_modSpin | split | refine keeps_foldl _ ?_ (fun _ _ _ => ?_))) <;> simp (maxDischargeDepth := 100) only [*, keeps_ite, keeps_mk, keepsAs_iff, keeps_modSpin]

theorem keeps_dropRegionMaps {d₀ : Dev} (d : Dev) (part : Nat) (h : Keeps d₀ d) :
    Keeps d₀ (Dev.dropRegionMaps d part) := by
  unfold Dev.dropRegionMaps; try dsimp only
  (with_reducible (repeat' first | assumption | apply keeps_modPart | split | refine keeps_foldl _ ?_ (fun _ _ _ => ?_))) <;> simp (maxDischargeDepth := 100) only [*, keeps_ite, keeps_mk, keepsAs_iff, keeps_modPart]

theorem keeps_freePage {d₀ : Dev} (d : Dev) (t : Tier) (n : Nat) (ordered : Bool) (h : Keeps d₀ d) :
    Keeps d₀ (Dev.freePage d t n ordered) := by
  unfold Dev.freePage; try dsimp only
  (with_reducible (repeat' first | assumption | apply keeps_addZero | apply keeps_setUse | split | refine keeps_foldl _ ?_ (fun _ _ _ => ?_))) <;> simp (maxDischargeDepth := 100) only [*, keeps_ite, keeps_mk, keepsAs_iff, keeps_addZero, keeps_setUse]

theorem keeps_dropGroups {d₀ : Dev} (d : Dev) (part : Nat) (h : Keeps d₀ d) :
    Keeps d₀ (Dev.dropGroups d part) := by
  unfold Dev.dropGroups; try dsimp only
  (with_reducible (repeat' first | assumption | apply keeps_modLinks | apply keeps_modTraining | split | refine keeps_foldl _ ?_ (fun _ _ _ => ?_))) <;> simp (maxDischargeDepth := 100) only [*, keeps_ite, keeps_mk, keepsAs_iff, keeps_modLinks, keeps_modTraining]

theorem keeps_freePart {d₀ : Dev} (d : Dev) (part : Nat) (h : Keeps d₀ d) : Keeps d₀ (d.freePart part) := by
  unfold Dev.freePart
  have fold (d : Dev) (l : List Nat) (t : Tier) (hd : Keeps d₀ d) : Keeps d₀ (l.foldl (fun d n => d.freePage t n false) d) :=
    keeps_foldl l hd (fun _ _ hd => keeps_freePage _ _ _ _ hd)
  have pages (d : Dev) (l : List (Nat × Pte)) (hd : Keeps d₀ d) : Keeps d₀ (l.foldl (fun d kv =>
      if kv.2.kind = .data then
        match tierOf kv.2.pa with
        | some (.hbm, n) => d.freePage .hbm n false
        | some (.ddr, n) => d.freePage .ddr n false
        | _ => d
      else d) d) := by
    refine keeps_foldl l hd (fun d kv hd => ?_)
    (repeat' split) <;> first | exact hd | exact keeps_freePage _ _ _ _ hd
  have kept (d : Dev) (l : List (Nat × Store)) (hd : Keeps d₀ d) :
      Keeps d₀ (l.foldl (fun d kv => kv.2.pages.foldl (fun d n => d.freePage .ddr n false) d) d) :=
    keeps_foldl l hd (fun _ kv hd => fold _ kv.2.pages .ddr hd)
  extract_lets p d1 d2 dz d3 mine d4 d5 d6 d7 dg d8 d9
  have hz : Keeps d₀ dz := keeps_mem (pages _ _ (keeps_dropRegionMaps _ _ h)) _ (fun w => w) (fun w => w)
  have h4 : Keeps d₀ d4 := kept _ _ (fold _ _ .hbm hz)
  have h6 : Keeps d₀ d6 := keeps_of_eq (d := d5) (keeps_modTraining _ _ h4) rfl rfl rfl rfl
  have h8 : Keeps d₀ d8 := keeps_modReqs _ _ (keeps_dropGroups _ _ (keeps_modWick _ _ h6))
  exact keeps_setPart _ _ _ (keeps_of_eq (d := d8) h8 rfl rfl rfl rfl)

theorem keeps_putSaved {d₀ : Dev} (d : Dev) (spindles : List Nat) (s : SavedCtx) (h : Keeps d₀ d) :
    Keeps d₀ (Dev.putSaved d spindles s) := by
  unfold Dev.putSaved; try dsimp only
  (with_reducible (repeat' first | assumption | apply keeps_modSpin | split | refine keeps_foldl _ ?_ (fun _ _ _ => ?_))) <;> simp (maxDischargeDepth := 100) only [*, keeps_ite, keeps_mk, keepsAs_iff, keeps_modSpin]

theorem keeps_wakeQueues {d₀ : Dev} (d : Dev) (part : Nat) (h : Keeps d₀ d) :
    Keeps d₀ (Dev.wakeQueues d part) := by
  unfold Dev.wakeQueues; try dsimp only
  (with_reducible (repeat' first | assumption | split | refine keeps_foldl _ ?_ (fun _ _ _ => ?_))) <;>
      simp (maxDischargeDepth := 100) only [*, keeps_ite, keeps_mk, keepsAs_iff]

theorem keeps_activate {d₀ : Dev} (d : Dev) (part : Nat) (spindles : List Nat) (h : Keeps d₀ d) :
    Keeps d₀ (Dev.activate d part spindles) := by
  unfold Dev.activate; try dsimp only
  (with_reducible (repeat' first | assumption | apply keeps_freePage | apply keeps_modPart | apply keeps_putSaved | apply keeps_wakeQueues | split | refine keeps_foldl _ ?_ (fun _ _ _ => ?_))) <;> simp (maxDischargeDepth := 100) only [*, keeps_ite, keeps_mk, keepsAs_iff, keeps_freePage, keeps_modPart, keeps_putSaved, keeps_wakeQueues]

theorem keeps_saveCtx {d₀ : Dev} (d : Dev) (part : Nat) (s : SavedCtx) (h : Keeps d₀ d) : Keeps d₀ (d.saveCtx part s) := by
  unfold Dev.saveCtx; extract_lets p out d1 d2 d3 d4
  have h1 : Keeps d₀ d1 := keeps_foldl _ h (fun d kv hd => by
    (try dsimp only); split
    · exact keeps_freePage _ _ _ _ hd
    · exact hd)
  have h2 : Keeps d₀ d2 := keeps_foldl _ h1 (fun d n hd => keeps_setUse _ _ _ _ hd)
  have h4 : Keeps d₀ d4 := keeps_modPart _ _ _ (keeps_zeroSpindles _ _ h2)
  exact keeps_of_eq h4 rfl rfl rfl rfl

theorem keeps_createPart {d₀ : Dev} (d : Dev) (p share spanId : Nat) (fr span : Bool) (list spindles : List Nat) (h : Keeps d₀ d) :
    Keeps d₀ (Dev.createPart d p share spanId fr span list spindles) := by
  unfold Dev.createPart; try dsimp only
  (with_reducible (repeat' first | assumption | apply keeps_modPart | split | refine keeps_foldl _ ?_ (fun _ _ _ => ?_))) <;> simp (maxDischargeDepth := 100) only [*, keeps_ite, keeps_mk, keepsAs_iff, keeps_modPart]

theorem keeps_dropQueue {d₀ : Dev} (d : Dev) (q : Nat) (h : Keeps d₀ d) :
    Keeps d₀ (Dev.dropQueue d q) := by
  unfold Dev.dropQueue; try dsimp only
  (with_reducible (repeat' first | assumption | apply keeps_modQueue | split | refine keeps_foldl _ ?_ (fun _ _ _ => ?_))) <;> simp (maxDischargeDepth := 100) only [*, keeps_ite, keeps_mk, keepsAs_iff, keeps_modQueue]

theorem keeps_applyPart {d₀ : Dev} (d : Dev) (x : Effect) (h : Keeps d₀ d) :
    Keeps d₀ (Dev.applyPart d x) := by
  cases x <;> dsimp only [Dev.applyPart] <;>
      (with_reducible (repeat' first | assumption | apply keeps_activate | apply keeps_createPart | apply keeps_dropQueue | apply keeps_freePart | apply keeps_modPart | apply keeps_modQueue | apply keeps_saveCtx | apply keeps_setQueue | apply keeps_zeroRing | split | refine keeps_foldl _ ?_ (fun _ _ _ => ?_))) <;> simp (maxDischargeDepth := 100) only [*, keeps_ite, keeps_mk, keepsAs_iff, keeps_activate, keeps_createPart, keeps_dropQueue, keeps_freePart, keeps_modPart, keeps_modQueue, keeps_saveCtx, keeps_setQueue, keeps_zeroRing]

theorem keeps_applyReq {d₀ : Dev} (d : Dev) (c : CmdRef) (e : Entry) (x : Effect) (h : Keeps d₀ d) :
    Keeps d₀ (Dev.applyReq d c e x) := by
  unfold Dev.applyReq; try dsimp only
  (with_reducible (repeat' first | assumption | apply keeps_abortPeriod | apply keeps_admitRequest | apply keeps_closePeriod | apply keeps_expireNow | apply keeps_modPool | apply keeps_modReqs | apply keeps_modRequest | apply keeps_modTenant | apply keeps_openPeriod | apply keeps_releaseReq | split | refine keeps_foldl _ ?_ (fun _ _ _ => ?_))) <;> simp (maxDischargeDepth := 100) only [*, keeps_ite, keeps_mk, keepsAs_iff, keeps_abortPeriod, keeps_admitRequest, keeps_closePeriod, keeps_expireNow, keeps_modPool, keeps_modReqs, keeps_modRequest, keeps_modTenant, keeps_openPeriod, keeps_releaseReq]

theorem keeps_applyWick {d₀ : Dev} (d : Dev) (e : Entry) (x : Effect) (h : Keeps d₀ d) :
    Keeps d₀ (Dev.applyWick d e x) := by
  unfold Dev.applyWick; try dsimp only
  (with_reducible (repeat' first | assumption | apply keeps_modLive | apply keeps_modWick | apply keeps_releaseFrame | split | refine keeps_foldl _ ?_ (fun _ _ _ => ?_))) <;> simp (maxDischargeDepth := 100) only [*, keeps_ite, keeps_mk, keepsAs_iff, keeps_modLive, keeps_modWick, keeps_releaseFrame]

theorem startZero_bytes (m : Mem) (r : Nat) : (m.startZero r).bytes = m.bytes := by
  unfold Mem.startZero; (repeat' split) <;> rfl
theorem startZero_host (m : Mem) (r : Nat) : (m.startZero r).host = m.host := by
  unfold Mem.startZero; (repeat' split) <;> rfl

theorem keeps_apply {d₀ : Dev} (d : Dev) (c : CmdRef) (e : Entry) (x : Effect) (h : Keeps d₀ d) : Keeps d₀ (d.apply c e x) := by
  cases x with
  | mem pa data => exact keeps_poke _ _ _ _ h
  | block pa len cells => exact keeps_pokeBlock _ _ _ _ h
  | host iova data => exact keeps_hostWrite _ _ _ h
  | half sp hh v => exact keeps_modSpin _ _ _ h
  | work sp hh v => exact h
  | tqPost sp tile f => exact keeps_modSpin _ _ _ h
  | tqRemove sp n => exact keeps_modSpin _ _ _ h
  | permRange sp => exact keeps_modSpin _ _ _ h
  | map part key pte => exact keeps_modPart _ _ _ h
  | unmap part key => exact keeps_modPart _ _ _ h
  | pageUse t page u => exact keeps_setUse _ _ _ _ h
  | kvFrames part frames => exact keeps_modPart _ _ _ h
  | zero i => exact keeps_addZero _ _ h
  | region r pages digest => exact keeps_extendMeas _ _ _ (keeps_mem h _ (fun w => w) (fun w => w))
  | regionZero r => exact keeps_mem h _ (fun w => (startZero_bytes _ _).symm ▸ w) (fun w => (startZero_host _ _).symm ▸ w)
  | sealMap part r va => exact keeps_modPart _ _ _ h
  | sealUnmap part r va => exact keeps_modPart _ _ _ h
  | train t => exact keeps_applyTrain _ _ h
  | link l => exact keeps_applyLink _ _ h
  | lamp l => exact keeps_applyLamp _ _ h
  | tick => exact h
  | killHeld l => exact h
  | wickNew | wickGone | wickBlocks | wickRank | wickPhase | wickRelease | wickMap | wickNonfinite => exact keeps_applyWick _ _ _ h
  | reqAdmit | reqRelease | reqExpire | poolAdd | poolRemove | pagePlace | periodOpen | periodClose | periodAbort | tenantSet
    | draftCtl | draftNodes => exact keeps_applyReq _ _ _ _ h
  | queueNew | queueGone | queueResume | partNew | partRegrow | partFree | partShare | queueShare | ctxSaved | ctxActive
    | reclaimed => exact keeps_applyPart _ _ h

end Sys2Proof.Machine
end

