-- ==== Sys2Proof/Laws/KeepsQueues.lean ====
section
/-! SUPPORT. What `Keeps` says of the functions of kills, commits, reading packets and the queue commands: one lemma each. -/

set_option linter.all false

namespace Sys2Proof.Machine

/-! ### Kill -/

theorem keeps_forget {d₀ : Dev} (d : Dev) (c : CmdRef) (h : Keeps d₀ d) :
    Keeps d₀ (Dev.forget d c) := by
  unfold Dev.forget; try dsimp only
  (with_reducible (repeat' first | assumption | apply keeps_modLinks | split | refine keeps_foldl _ ?_ (fun _ _ _ => ?_))) <;> simp (maxDischargeDepth := 100) only [*, keeps_ite, keeps_mk, keepsAs_iff, keeps_modLinks]

theorem keeps_untakeFor {d₀ : Dev} (d : Dev) (e : Entry) (h : Keeps d₀ d) :
    Keeps d₀ (Dev.untakeFor d e) := by
  unfold Dev.untakeFor; try dsimp only
  (with_reducible (repeat' first | assumption | apply keeps_modSnap | split | refine keeps_foldl _ ?_ (fun _ _ _ => ?_))) <;> simp (maxDischargeDepth := 100) only [*, keeps_ite, keeps_mk, keepsAs_iff, keeps_modSnap]

theorem keeps_unsave {d₀ : Dev} (d : Dev) (e : Entry) (h : Keeps d₀ d) :
    Keeps d₀ (Dev.unsave d e) := by
  unfold Dev.unsave; try dsimp only
  (with_reducible (repeat' first | assumption | apply keeps_setUse | split | refine keeps_foldl _ ?_ (fun _ _ _ => ?_))) <;> simp (maxDischargeDepth := 100) only [*, keeps_ite, keeps_mk, keepsAs_iff, keeps_setUse]

theorem keeps_untakeKv {d₀ : Dev} (d : Dev) (e : Entry) (h : Keeps d₀ d) :
    Keeps d₀ (Dev.untakeKv d e) := by
  unfold Dev.untakeKv; try dsimp only
  (with_reducible (repeat' first | assumption | apply keeps_freeFrame | split | refine keeps_foldl _ ?_ (fun _ _ _ => ?_))) <;> simp (maxDischargeDepth := 100) only [*, keeps_ite, keeps_mk, keepsAs_iff, keeps_freeFrame]

theorem keeps_unwait {d₀ : Dev} (d : Dev) (e : Entry) (h : Keeps d₀ d) :
    Keeps d₀ (Dev.unwait d e) := by
  unfold Dev.unwait; try dsimp only
  (with_reducible (repeat' first | assumption | apply keeps_modXch | split | refine keeps_foldl _ ?_ (fun _ _ _ => ?_))) <;> simp (maxDischargeDepth := 100) only [*, keeps_ite, keeps_mk, keepsAs_iff, keeps_modXch]

theorem keeps_letGo {d₀ : Dev} (d : Dev) (e : Entry) (final : Bool) (h : Keeps d₀ d) :
    Keeps d₀ (Dev.letGo d e final) := by
  unfold Dev.letGo; try dsimp only
  (with_reducible (repeat' first | assumption | apply keeps_account | apply keeps_collLost | apply keeps_collWithdraw | apply keeps_forget | apply keeps_giveUp | apply keeps_unsave | apply keeps_untakeFor | apply keeps_untakeKv | apply keeps_unwait | split | refine keeps_foldl _ ?_ (fun _ _ _ => ?_))) <;> simp (maxDischargeDepth := 100) only [*, keeps_ite, keeps_mk, keepsAs_iff, keeps_account, keeps_collLost, keeps_collWithdraw, keeps_forget, keeps_giveUp, keeps_unsave, keeps_untakeFor, keeps_untakeKv, keeps_unwait]

theorem keeps_stopCycles {d₀ : Dev} (d : Dev) (e : Entry) (h : Keeps d₀ d) :
    Keeps d₀ (Dev.stopCycles d e).2 := by
  unfold Dev.stopCycles; try dsimp only
  (with_reducible (repeat' first | assumption | apply keeps_useFree | split | refine keeps_foldl _ ?_ (fun _ _ _ => ?_))) <;> simp (maxDischargeDepth := 100) only [*, keeps_ite, keeps_mk, keepsAs_iff, keeps_useFree]

theorem keeps_stopOne {d₀ : Dev} (d : Dev) (status : Nat) (yielded : Bool) (c : CmdRef) (h : Keeps d₀ d) :
    Keeps d₀ (Dev.stopOne d status yielded c) := by
  unfold Dev.stopOne; try dsimp only
  (with_reducible (repeat' first | assumption | apply keeps_account | apply keeps_letGo | apply keeps_modEntry | apply keeps_stopCycles | split | refine keeps_foldl _ ?_ (fun _ _ _ => ?_))) <;> simp (maxDischargeDepth := 100) only [*, keeps_ite, keeps_mk, keepsAs_iff, keeps_account, keeps_letGo, keeps_modEntry, keeps_stopCycles]

theorem keeps_rerunOne {d₀ : Dev} (d : Dev) (yielded : Bool) (unit : Option UnitId) (c : CmdRef) (h : Keeps d₀ d) :
    Keeps d₀ (Dev.rerunOne d yielded unit c) := by
  unfold Dev.rerunOne; try dsimp only
  (with_reducible (repeat' first | assumption | apply keeps_account | apply keeps_letGo | apply keeps_modEntry | split | refine keeps_foldl _ ?_ (fun _ _ _ => ?_))) <;> simp (maxDischargeDepth := 100) only [*, keeps_ite, keeps_mk, keepsAs_iff, keeps_account, keeps_letGo, keeps_modEntry]

theorem keeps_killFinally {d₀ : Dev} (d : Dev) (status : Nat) (yielded : Bool) (es : List Entry) (h : Keeps d₀ d) :
    Keeps d₀ (Dev.killFinally d status yielded es) := by
  unfold Dev.killFinally; try dsimp only
  (with_reducible (repeat' first | assumption | apply keeps_stopOne | split | refine keeps_foldl _ ?_ (fun _ _ _ => ?_))) <;> simp (maxDischargeDepth := 100) only [*, keeps_ite, keeps_mk, keepsAs_iff, keeps_stopOne]

theorem keeps_killAgain {d₀ : Dev} (d : Dev) (yielded : Bool) (unit : Option UnitId) (es : List Entry) (h : Keeps d₀ d) :
    Keeps d₀ (Dev.killAgain d yielded unit es) := by
  unfold Dev.killAgain; try dsimp only
  (with_reducible (repeat' first | assumption | apply keeps_rerunOne | split | refine keeps_foldl _ ?_ (fun _ _ _ => ?_))) <;> simp (maxDischargeDepth := 100) only [*, keeps_ite, keeps_mk, keepsAs_iff, keeps_rerunOne]

theorem keeps_haltQueue {d₀ : Dev} (d : Dev) (q : Nat) (h : Keeps d₀ d) :
    Keeps d₀ (Dev.haltQueue d q) := by
  unfold Dev.haltQueue; try dsimp only
  (with_reducible (repeat' first | assumption | apply keeps_modQueue | split | refine keeps_foldl _ ?_ (fun _ _ _ => ?_))) <;> simp (maxDischargeDepth := 100) only [*, keeps_ite, keeps_mk, keepsAs_iff, keeps_modQueue]

/-! ### Commit -/

theorem keeps_clearCovered {d₀ : Dev} (d : Dev) (effects : List Effect) (h : Keeps d₀ d) :
    Keeps d₀ (Dev.clearCovered d effects) := by
  unfold Dev.clearCovered; try dsimp only
  (with_reducible (repeat' first | assumption | apply keeps_modMem | split | refine keeps_foldl _ ?_ (fun _ _ _ => ?_))) <;> simp (maxDischargeDepth := 100) only [*, keeps_ite, keeps_mk, keepsAs_iff, keeps_modMem]

theorem keeps_killHeldOf {d₀ : Dev} (d : Dev) (effects : List Effect) (h : Keeps d₀ d) :
    Keeps d₀ (Dev.killHeldOf d effects) := by
  unfold Dev.killHeldOf; try dsimp only
  (with_reducible (repeat' first | assumption | apply keeps_stopOne | split | refine keeps_foldl _ ?_ (fun _ _ _ => ?_))) <;> simp (maxDischargeDepth := 100) only [*, keeps_ite, keeps_mk, keepsAs_iff, keeps_stopOne]

theorem keeps_signalFor {d₀ : Dev} (d : Dev) (e : Entry) (h : Keeps d₀ d) :
    Keeps d₀ (Dev.signalFor d e) := by
  unfold Dev.signalFor; try dsimp only
  (with_reducible (repeat' first | assumption | apply keeps_signal | split | refine keeps_foldl _ ?_ (fun _ _ _ => ?_))) <;> simp (maxDischargeDepth := 100) only [*, keeps_ite, keeps_mk, keepsAs_iff, keeps_signal]

theorem keeps_publish {d₀ : Dev} (d : Dev) (c : CmdRef) (e : Entry) (r : Result) (h : Keeps d₀ d) :
    Keeps d₀ (Dev.publish d c e r) := by
  unfold Dev.publish; try dsimp only
  (with_reducible (repeat' first | assumption | apply keeps_apply | apply keeps_clearCovered | apply keeps_keepOld | apply keeps_killHeldOf | apply keeps_logCommand | apply keeps_modEntry | apply keeps_signalFor | split | refine keeps_foldl _ ?_ (fun _ _ _ => ?_))) <;> simp (maxDischargeDepth := 100) only [*, keeps_ite, keeps_mk, keepsAs_iff, keeps_apply, keeps_clearCovered, keeps_keepOld, keeps_killHeldOf, keeps_logCommand, keeps_modEntry, keeps_signalFor]

theorem keeps_commitFails {d₀ : Dev} (d : Dev) (e : Entry) (r : Result) (f : Fail) (h : Keeps d₀ d) :
    Keeps d₀ (Dev.commitFails d e r f) := by
  unfold Dev.commitFails; try dsimp only
  (with_reducible (repeat' first | assumption | apply keeps_failEntry | apply keeps_untakeFor | split | refine keeps_foldl _ ?_ (fun _ _ _ => ?_))) <;> simp (maxDischargeDepth := 100) only [*, keeps_ite, keeps_mk, keepsAs_iff, keeps_failEntry, keeps_untakeFor]

theorem keeps_commitOne {d₀ : Dev} (d : Dev) (c : CmdRef) (h : Keeps d₀ d) :
    Keeps d₀ (Dev.commitOne d c) := by
  unfold Dev.commitOne; try dsimp only
  (with_reducible (repeat' first | assumption | apply keeps_commitFails | apply keeps_publish | split | refine keeps_foldl _ ?_ (fun _ _ _ => ?_))) <;> simp (maxDischargeDepth := 100) only [*, keeps_ite, keeps_mk, keepsAs_iff, keeps_commitFails, keeps_publish]

theorem keeps_doCommandCommit {d₀ : Dev} (d : Dev) (c : CmdRef) (h : Keeps d₀ d) :
    Keeps d₀ (doCommandCommit d c) := by
  unfold doCommandCommit; try dsimp only
  (with_reducible (repeat' first | assumption | apply keeps_commitOne | apply keeps_setPhase | split | refine keeps_foldl _ ?_ (fun _ _ _ => ?_))) <;> simp (maxDischargeDepth := 100) only [*, keeps_ite, keeps_mk, keepsAs_iff, keeps_commitOne, keeps_setPhase]

theorem keeps_commitChain {d₀ : Dev} (d : Dev) (es : List Entry) (h : Keeps d₀ d) :
    Keeps d₀ (Dev.commitChain d es) := by
  unfold Dev.commitChain; try dsimp only
  (with_reducible (repeat' first | assumption | apply keeps_commitFails | apply keeps_commitOne | split | refine keeps_foldl _ ?_ (fun _ _ _ => ?_))) <;> simp (maxDischargeDepth := 100) only [*, keeps_ite, keeps_mk, keepsAs_iff, keeps_commitFails, keeps_commitOne]

theorem keeps_doChainCommit {d₀ : Dev} (d : Dev) (sp n : Nat) (h : Keeps d₀ d) :
    Keeps d₀ (doChainCommit d sp n) := by
  unfold doChainCommit; try dsimp only
  (with_reducible (repeat' first | assumption | apply keeps_commitChain | split | refine keeps_foldl _ ?_ (fun _ _ _ => ?_))) <;> simp (maxDischargeDepth := 100) only [*, keeps_ite, keeps_mk, keepsAs_iff, keeps_commitChain]

theorem keeps_commitTerms {d₀ : Dev} (d : Dev) (sel : Entry → Bool) (h : Keeps d₀ d) :
    Keeps d₀ (Dev.commitTerms d sel) := by
  unfold Dev.commitTerms; try dsimp only
  (with_reducible (repeat' first | assumption | apply keeps_commitChain | apply keeps_commitOne | split | refine keeps_foldl _ ?_ (fun _ _ _ => ?_))) <;> simp (maxDischargeDepth := 100) only [*, keeps_ite, keeps_mk, keepsAs_iff, keeps_commitChain, keeps_commitOne]

theorem keeps_putRing {d₀ : Dev} (d : Dev) (q : Nat) (pieces : List Nat) (off : Nat) (data : List Byte) (h : Keeps d₀ d) : Keeps d₀ (d.putRing q pieces off data) := by
  unfold Dev.putRing; split
  · exact ⟨h.1, h.2.1, h.2.2.1, fun w => let u := h.2.2.2 w; ⟨u.1, u.2.1, tblWf_putBytes _ _ u.2.2.1, u.2.2.2⟩⟩
  · exact keeps_poke _ _ _ _ h

theorem keeps_sbRecord {d₀ : Dev} (d : Dev) (q seq : Nat) (rec out : List Byte) (h : Keeps d₀ d) :
    Keeps d₀ (Dev.sbRecord d q seq rec out) := by
  unfold Dev.sbRecord; try dsimp only
  (with_reducible (repeat' first | assumption | split | refine keeps_foldl _ ?_ (fun _ _ _ => ?_))) <;>
      simp (maxDischargeDepth := 100) only [*, keeps_ite, keeps_mk, keepsAs_iff]

theorem keeps_putRecord {d₀ : Dev} (d : Dev) (q seq : Nat) (rec out : List Byte) (h : Keeps d₀ d) :
    Keeps d₀ (Dev.putRecord d q seq rec out) := by
  unfold Dev.putRecord; try dsimp only
  (with_reducible (repeat' first | assumption | apply keeps_modQueue | apply keeps_putRing | apply keeps_sbRecord | split | refine keeps_foldl _ ?_ (fun _ _ _ => ?_))) <;> simp (maxDischargeDepth := 100) only [*, keeps_ite, keeps_mk, keepsAs_iff, keeps_modQueue, keeps_putRing, keeps_sbRecord]

theorem keeps_putReqRecords {d₀ : Dev} (d : Dev) (q : Nat) (e : Entry) (h : Keeps d₀ d) :
    Keeps d₀ (Dev.putReqRecords d q e) := by
  unfold Dev.putReqRecords; try dsimp only
  (with_reducible (repeat' first | assumption | apply keeps_account | apply keeps_putRecord | split | refine keeps_foldl _ ?_ (fun _ _ _ => ?_))) <;> simp (maxDischargeDepth := 100) only [*, keeps_ite, keeps_mk, keepsAs_iff, keeps_account, keeps_putRecord]

theorem keeps_noteUpdate {d₀ : Dev} (d : Dev) (e : Entry) (r : Result) (h : Keeps d₀ d) :
    Keeps d₀ (Dev.noteUpdate d e r) := by
  unfold Dev.noteUpdate; try dsimp only
  (with_reducible (repeat' first | assumption | apply keeps_modTraining | split | refine keeps_foldl _ ?_ (fun _ _ _ => ?_))) <;> simp (maxDischargeDepth := 100) only [*, keeps_ite, keeps_mk, keepsAs_iff, keeps_modTraining]

theorem keeps_writeFirst {d₀ : Dev} (d : Dev) (q : Nat) (e : Entry) (rest : List Entry) (r : Result) (h : Keeps d₀ d) :
    Keeps d₀ (Dev.writeFirst d q e rest r) := by
  unfold Dev.writeFirst; try dsimp only
  (with_reducible (repeat' first | assumption | apply keeps_account | apply keeps_modQueue | apply keeps_noteUpdate | apply keeps_notify | apply keeps_putRecord | apply keeps_putReqRecords | split | refine keeps_foldl _ ?_ (fun _ _ _ => ?_))) <;> simp (maxDischargeDepth := 100) only [*, keeps_ite, keeps_mk, keepsAs_iff, keeps_account, keeps_modQueue, keeps_noteUpdate, keeps_notify, keeps_putRecord, keeps_putReqRecords]

theorem keeps_doRecordWrite {d₀ : Dev} (d : Dev) (q : Nat) (h : Keeps d₀ d) :
    Keeps d₀ (doRecordWrite d q) := by
  unfold doRecordWrite; try dsimp only
  (with_reducible (repeat' first | assumption | apply keeps_writeFirst | split | refine keeps_foldl _ ?_ (fun _ _ _ => ?_))) <;> simp (maxDischargeDepth := 100) only [*, keeps_ite, keeps_mk, keepsAs_iff, keeps_writeFirst]

/-! ### Fetch -/

theorem keeps_doorbell {d₀ : Dev} (d : Dev) (head value : Nat) (h : Keeps d₀ d) :
    Keeps d₀ (Dev.doorbell d head value) := by
  unfold Dev.doorbell; try dsimp only
  (with_reducible (repeat' first | assumption | apply keeps_modQueue | split | refine keeps_foldl _ ?_ (fun _ _ _ => ?_))) <;> simp (maxDischargeDepth := 100) only [*, keeps_ite, keeps_mk, keepsAs_iff, keeps_modQueue]

theorem keeps_take {d₀ : Dev} (d : Dev) (q : Nat) (f : Fetched) (e : Entry) (h : Keeps d₀ d) : Keeps d₀ (d.take q f e) := by
  unfold Dev.take
  refine keeps_modQueue _ _ _ (keeps_ite ?_ (keeps_correctAll _ _ ?_)) <;>
  · split
    · exact keeps_due _ _ (keeps_mem h _ (fun w => (noteUe_bytes _ _).symm ▸ w) (fun w => (noteUe_host _ _).symm ▸ w))
    · exact h

theorem keeps_flushWaiting {d₀ : Dev} (d : Dev) (q : Nat) (yielded : Bool) (h : Keeps d₀ d) :
    Keeps d₀ (Dev.flushWaiting d q yielded) := by
  unfold Dev.flushWaiting; try dsimp only
  (with_reducible (repeat' first | assumption | apply keeps_account | apply keeps_mapEntries | apply keeps_modQueue | split | refine keeps_foldl _ ?_ (fun _ _ _ => ?_))) <;> simp (maxDischargeDepth := 100) only [*, keeps_ite, keeps_mk, keepsAs_iff, keeps_account, keeps_mapEntries, keeps_modQueue]

/-! ### Queues -/

theorem keeps_doNop {d₀ : Dev} (d : Dev) (c : CmdRef) (h : Keeps d₀ d) :
    Keeps d₀ (doNop d c) := by
  unfold doNop; try dsimp only
  (with_reducible (repeat' first | assumption | refine keeps_onPacket _ _ _ ?_ (fun _ => ?_) | apply keeps_run | split | refine keeps_foldl _ ?_ (fun _ _ _ => ?_))) <;> simp (maxDischargeDepth := 100) only [*, keeps_ite, keeps_mk, keepsAs_iff, keeps_run]

theorem keeps_doTimestamp {d₀ : Dev} (d : Dev) (c : CmdRef) (h : Keeps d₀ d) :
    Keeps d₀ (doTimestamp d c) := by
  unfold doTimestamp; try dsimp only
  (with_reducible (repeat' first | assumption | refine keeps_onPacket _ _ _ ?_ (fun _ => ?_) | apply keeps_run | split | refine keeps_foldl _ ?_ (fun _ _ _ => ?_))) <;> simp (maxDischargeDepth := 100) only [*, keeps_ite, keeps_mk, keepsAs_iff, keeps_run]

theorem keeps_doQueueCreate {d₀ : Dev} (d : Dev) (c : CmdRef) (h : Keeps d₀ d) :
    Keeps d₀ (doQueueCreate d c) := by
  unfold doQueueCreate; try dsimp only
  (with_reducible (repeat' first | assumption | refine keeps_onPacket _ _ _ ?_ (fun _ => ?_) | apply keeps_runClaimed | split | refine keeps_foldl _ ?_ (fun _ _ _ => ?_))) <;> simp (maxDischargeDepth := 100) only [*, keeps_ite, keeps_mk, keepsAs_iff, keeps_runClaimed]

theorem keeps_toStage {d₀ : Dev} (d : Dev) (c : CmdRef) (n : Nat) (r : Result) (h : Keeps d₀ d) :
    Keeps d₀ (Dev.toStage d c n r) := by
  unfold Dev.toStage; try dsimp only
  (with_reducible (repeat' first | assumption | apply keeps_modEntry | split | refine keeps_foldl _ ?_ (fun _ _ _ => ?_))) <;> simp (maxDischargeDepth := 100) only [*, keeps_ite, keeps_mk, keepsAs_iff, keeps_modEntry]

theorem keeps_stagesDone {d₀ : Dev} (d : Dev) (c : CmdRef) (e : Entry) (r : Result) (h : Keeps d₀ d) :
    Keeps d₀ (Dev.stagesDone d c e r) := by
  unfold Dev.stagesDone; try dsimp only
  (with_reducible (repeat' first | assumption | apply keeps_setPhase | apply keeps_spend | split | refine keeps_foldl _ ?_ (fun _ _ _ => ?_))) <;> simp (maxDischargeDepth := 100) only [*, keeps_ite, keeps_mk, keepsAs_iff, keeps_setPhase, keeps_spend]

theorem keeps_endStages {d₀ : Dev} (d : Dev) (c : CmdRef) (r : Result) (h : Keeps d₀ d) :
    Keeps d₀ (Dev.endStages d c r) := by
  unfold Dev.endStages; try dsimp only
  (with_reducible (repeat' first | assumption | apply keeps_stagesDone | split | refine keeps_foldl _ ?_ (fun _ _ _ => ?_))) <;> simp (maxDischargeDepth := 100) only [*, keeps_ite, keeps_mk, keepsAs_iff, keeps_stagesDone]

theorem keeps_flushNext {d₀ : Dev} (d : Dev) (q : Nat) (yielded drop : Bool) (h : Keeps d₀ d) (x : Dev × Nat × Bool)
    (hx : d.flushNext q yielded drop = some x) : Keeps d₀ x.1 := by
  unfold Dev.flushNext at hx
  cases hf : d.fetch q with
  | none => rw [hf] at hx; cases hx
  | some f =>
    rw [hf] at hx
    dsimp only at hx
    split at hx
    · rw [← Option.some.inj hx]; exact keeps_account _ _ _ _ (keeps_take _ _ _ _ h)
    · split at hx
      · rw [← Option.some.inj hx]; exact keeps_account _ _ _ _ (keeps_modQueue _ _ _ h)
      · cases hx

theorem keeps_flushUnread {d₀ : Dev} (d : Dev) (q : Nat) (yielded drop : Bool) (n : Nat) (h : Keeps d₀ d) :
    Keeps d₀ (d.flushUnread q yielded drop n).dev := by
  induction n generalizing d with
  | zero => exact h
  | succ n ih =>
    simp only [Dev.flushUnread]
    cases hf : d.flushNext q yielded drop with
    | none => exact h
    | some x =>
      have hx : Keeps d₀ x.1 := keeps_flushNext d q yielded drop h x hf
      dsimp only
      split
      · exact hx
      · exact ih _ hx

theorem keeps_flushAll {d₀ : Dev} (d : Dev) (q : Nat) (yielded drop : Bool) (h : Keeps d₀ d) :
    Keeps d₀ (d.flushAll q yielded drop).dev := by
  unfold Dev.flushAll; dsimp only; split
  · exact keeps_flushWaiting _ _ _ h
  · exact keeps_flushUnread _ _ _ _ _ (keeps_flushWaiting _ _ _ h)

theorem keeps_destroyGoes {d₀ : Dev} (d : Dev) (c : CmdRef) (q : Nat) (h : Keeps d₀ d) : Keeps d₀ (d.destroyGoes c q) := by
  unfold Dev.destroyGoes; dsimp only
  have hf := keeps_flushAll d q false false h
  generalize d.flushAll q false false = f at hf
  (repeat' split) <;> first | exact hf | exact keeps_endStages _ _ _ hf

theorem keeps_doQueueDestroy {d₀ : Dev} (d : Dev) (c : CmdRef) (h : Keeps d₀ d) :
    Keeps d₀ (doQueueDestroy d c) := by
  unfold doQueueDestroy; try dsimp only
  (with_reducible (repeat' first | assumption | apply keeps_commitTerms | apply keeps_destroyGoes | apply keeps_killFinally | apply keeps_refuse | apply keeps_toStage | split | refine keeps_foldl _ ?_ (fun _ _ _ => ?_))) <;> simp (maxDischargeDepth := 100) only [*, keeps_ite, keeps_mk, keepsAs_iff, keeps_commitTerms, keeps_destroyGoes, keeps_killFinally, keeps_refuse, keeps_toStage]

theorem keeps_flushTo {d₀ : Dev} (d : Dev) (q tail : Nat) (h : Keeps d₀ d) : Keeps d₀ (d.flushTo q tail).dev :=
  keeps_modQueue _ _ _ (keeps_flushAll _ _ _ _ (keeps_modQueue _ _ _ h))

theorem keeps_resumeGoes {d₀ : Dev} (d : Dev) (c : CmdRef) (q mode newHead newSeq : Nat) (r : Result) (h : Keeps d₀ d) :
    Keeps d₀ (d.resumeGoes c q mode newHead newSeq r) := by
  unfold Dev.resumeGoes; extract_lets f r' d'
  have hf : Keeps d₀ f.dev := by
    dsimp only [f]; split
    · exact h
    · exact keeps_flushTo _ _ _ h
    · exact keeps_flushWaiting _ _ _ h
  have hd : Keeps d₀ d' := keeps_toStage _ _ _ _ hf
  clear_value f d'
  (repeat' split) <;> first | exact hd | exact keeps_refuse _ _ _ _ hd | exact keeps_endStages _ _ _ hd

theorem keeps_doQueueResume {d₀ : Dev} (d : Dev) (c : CmdRef) (h : Keeps d₀ d) :
    Keeps d₀ (doQueueResume d c) := by
  unfold doQueueResume; try dsimp only
  (with_reducible (repeat' first | assumption | apply keeps_refuse | apply keeps_resumeGoes | split | refine keeps_foldl _ ?_ (fun _ _ _ => ?_))) <;> simp (maxDischargeDepth := 100) only [*, keeps_ite, keeps_mk, keepsAs_iff, keeps_refuse, keeps_resumeGoes]

end Sys2Proof.Machine
end

