-- ==== Sys2Proof/Laws/KeepsParts.lean ====
section
/-! SUPPORT. What `Keeps` says of the functions of the partition commands: one lemma each. -/

set_option linter.all false

namespace Sys2Proof.Machine

/-! ### Partition -/

theorem keeps_onPart {d₀ : Dev} (d : Dev) (c : CmdRef) (f g : Entry → Dev) (h : Keeps d₀ d)
    (hf : ∀ e, Keeps d₀ (f e)) (hg : ∀ e, Keeps d₀ (g e)) :
    Keeps d₀ (d.onPart c f g) := by
  unfold Dev.onPart; (repeat' split) <;> first | exact h | exact hf _ | exact hg _

theorem keeps_doPartCreate {d₀ : Dev} (d : Dev) (c : CmdRef) (h : Keeps d₀ d) :
    Keeps d₀ (doPartCreate d c) := by
  unfold doPartCreate; try dsimp only
  (with_reducible (repeat' first | assumption | refine keeps_onPart _ _ _ _ ?_ (fun _ => ?_) (fun _ => ?_) | apply keeps_runClaimed | split | refine keeps_foldl _ ?_ (fun _ _ _ => ?_))) <;> simp (maxDischargeDepth := 100) only [*, keeps_ite, keeps_mk, keepsAs_iff, keeps_runClaimed]

theorem keeps_doPartCreateRegrow {d₀ : Dev} (d : Dev) (c : CmdRef) (h : Keeps d₀ d) :
    Keeps d₀ (doPartCreateRegrow d c) := by
  unfold doPartCreateRegrow; try dsimp only
  (with_reducible (repeat' first | assumption | refine keeps_onPart _ _ _ _ ?_ (fun _ => ?_) (fun _ => ?_) | apply keeps_runClaimed | split | refine keeps_foldl _ ?_ (fun _ _ _ => ?_))) <;> simp (maxDischargeDepth := 100) only [*, keeps_ite, keeps_mk, keepsAs_iff, keeps_runClaimed]

theorem keeps_doPartShares {d₀ : Dev} (d : Dev) (c : CmdRef) (h : Keeps d₀ d) :
    Keeps d₀ (doPartShares d c) := by
  unfold doPartShares; try dsimp only
  (with_reducible (repeat' first | assumption | refine keeps_onPart _ _ _ _ ?_ (fun _ => ?_) (fun _ => ?_) | apply keeps_runClaimed | split | refine keeps_foldl _ ?_ (fun _ _ _ => ?_))) <;> simp (maxDischargeDepth := 100) only [*, keeps_ite, keeps_mk, keepsAs_iff, keeps_runClaimed]

theorem keeps_killNow {d₀ : Dev} (d : Dev) (c : CmdRef) (scope queue part seq halt : Nat) (h : Keeps d₀ d) :
    Keeps d₀ (Dev.killNow d c scope queue part seq halt) := by
  unfold Dev.killNow; try dsimp only
  (with_reducible (repeat' first | assumption | apply keeps_commitTerms | apply keeps_endStages | apply keeps_haltQueue | apply keeps_killFinally | split | refine keeps_foldl _ ?_ (fun _ _ _ => ?_))) <;> simp (maxDischargeDepth := 100) only [*, keeps_ite, keeps_mk, keepsAs_iff, keeps_commitTerms, keeps_endStages, keeps_haltQueue, keeps_killFinally]

theorem keeps_doKill {d₀ : Dev} (d : Dev) (c : CmdRef) (h : Keeps d₀ d) :
    Keeps d₀ (doKill d c) := by
  unfold doKill; try dsimp only
  (with_reducible (repeat' first | assumption | refine keeps_onPart _ _ _ _ ?_ (fun _ => ?_) (fun _ => ?_) | apply keeps_killNow | apply keeps_refuse | apply keeps_toStage | split | refine keeps_foldl _ ?_ (fun _ _ _ => ?_))) <;> simp (maxDischargeDepth := 100) only [*, keeps_ite, keeps_mk, keepsAs_iff, keeps_killNow, keeps_refuse, keeps_toStage]

theorem keeps_saveCopy {d₀ : Dev} (d : Dev) (c : CmdRef) (e : Entry) (part : Nat) (r : Result) (h : Keeps d₀ d) :
    Keeps d₀ (Dev.saveCopy d c e part r) := by
  unfold Dev.saveCopy; try dsimp only
  (with_reducible (repeat' first | assumption | apply keeps_run | apply keeps_setUse | split | refine keeps_foldl _ ?_ (fun _ _ _ => ?_))) <;> simp (maxDischargeDepth := 100) only [*, keeps_ite, keeps_mk, keepsAs_iff, keeps_run, keeps_setUse]

theorem keeps_saveStart {d₀ : Dev} (d : Dev) (c : CmdRef) (part : Nat) (area : List Nat) (h : Keeps d₀ d) :
    Keeps d₀ (Dev.saveStart d c part area) := by
  unfold Dev.saveStart; try dsimp only
  (with_reducible (repeat' first | assumption | apply keeps_commitTerms | apply keeps_killAgain | apply keeps_setUse | apply keeps_toStage | split | refine keeps_foldl _ ?_ (fun _ _ _ => ?_))) <;> simp (maxDischargeDepth := 100) only [*, keeps_ite, keeps_mk, keepsAs_iff, keeps_commitTerms, keeps_killAgain, keeps_setUse, keeps_toStage]

theorem keeps_doCtxSave {d₀ : Dev} (d : Dev) (c : CmdRef) (h : Keeps d₀ d) :
    Keeps d₀ (doCtxSave d c) := by
  unfold doCtxSave; try dsimp only
  (with_reducible (repeat' first | assumption | refine keeps_onPart _ _ _ _ ?_ (fun _ => ?_) (fun _ => ?_) | apply keeps_refuse | apply keeps_saveCopy | apply keeps_saveStart | split | refine keeps_foldl _ ?_ (fun _ _ _ => ?_))) <;> simp (maxDischargeDepth := 100) only [*, keeps_ite, keeps_mk, keepsAs_iff, keeps_refuse, keeps_saveCopy, keeps_saveStart]

theorem keeps_doCtxRestore {d₀ : Dev} (d : Dev) (c : CmdRef) (h : Keeps d₀ d) :
    Keeps d₀ (doCtxRestore d c) := by
  unfold doCtxRestore; try dsimp only
  (with_reducible (repeat' first | assumption | refine keeps_onPart _ _ _ _ ?_ (fun _ => ?_) (fun _ => ?_) | apply keeps_runClaimed | split | refine keeps_foldl _ ?_ (fun _ _ _ => ?_))) <;> simp (maxDischargeDepth := 100) only [*, keeps_ite, keeps_mk, keepsAs_iff, keeps_runClaimed]

theorem keeps_stopFlush {d₀ : Dev} (d : Dev) (c : CmdRef) (q : Nat) (yielded : Bool) (h : Keeps d₀ d) :
    Keeps d₀ (d.stopFlush c q yielded).dev := by
  unfold Dev.stopFlush; split
  · have hq := keeps_modQueue d q (fun k => { k with state := .halted }) h
    dsimp only
    generalize hf : (if d.sqLive q = true then (d.modQueue q (fun k => { k with state := .halted })).flushAll q yielded true
      else (⟨(d.modQueue q (fun k => { k with state := .halted })).flushWaiting q yielded,
        (d.modQueue q (fun k => { k with state := .halted })).waitingIn q, 0, true⟩ : Flushed)) = f
    have hk : Keeps d₀ f.dev := by
      rw [← hf]; split
      · exact keeps_flushAll _ _ _ _ hq
      · exact keeps_flushWaiting _ _ _ hq
    split
    · exact hk
    · exact keeps_modQueue _ _ _ hk
  · exact keeps_flushAll _ _ _ _ h

theorem keeps_stopAndKill {d₀ : Dev} (d : Dev) (c : CmdRef) (part : Nat) (yielded : Bool) (h : Keeps d₀ d) :
    Keeps d₀ (d.stopAndKill c part yielded).1 := by
  unfold Dev.stopAndKill
  exact keeps_fold_fst _ (keeps_killFinally _ _ _ _ (keeps_commitTerms _ _ (keeps_ite (keeps_mapEntries _ _ h) h)))
    (fun x q hx => keeps_stopFlush _ _ _ _ hx)

theorem keeps_reclaimTake {d₀ : Dev} (d : Dev) (c : CmdRef) (e : Entry) (part n unwritten : Nat) (h : Keeps d₀ d) :
    Keeps d₀ (Dev.reclaimTake d c e part n unwritten) := by
  unfold Dev.reclaimTake; try dsimp only
  (with_reducible (repeat' first | assumption | apply keeps_modEntry | apply keeps_takeFor | split | refine keeps_foldl _ ?_ (fun _ _ _ => ?_))) <;> simp (maxDischargeDepth := 100) only [*, keeps_ite, keeps_mk, keepsAs_iff, keeps_modEntry, keeps_takeFor]

theorem keeps_reclaimTaken {d₀ : Dev} (d : Dev) (c : CmdRef) (e : Entry) (part : Nat) (own : List Byte) (r : Result) (h : Keeps d₀ d) :
    Keeps d₀ (Dev.reclaimTaken d c e part own r) := by
  unfold Dev.reclaimTaken; try dsimp only
  (with_reducible (repeat' first | assumption | apply keeps_apply | apply keeps_modSnap | apply keeps_toStage | split | refine keeps_foldl _ ?_ (fun _ _ _ => ?_))) <;> simp (maxDischargeDepth := 100) only [*, keeps_ite, keeps_mk, keepsAs_iff, keeps_apply, keeps_modSnap, keeps_toStage]

theorem keeps_clearPageList {d₀ : Dev} (d : Dev) (part : Nat) (r : Request) (h : Keeps d₀ d) :
    Keeps d₀ (Dev.clearPageList d part r) := by
  unfold Dev.clearPageList; try dsimp only
  (with_reducible (repeat' first | assumption | apply keeps_pokeVa | split | refine keeps_foldl _ ?_ (fun _ _ _ => ?_))) <;> simp (maxDischargeDepth := 100) only [*, keeps_ite, keeps_mk, keepsAs_iff, keeps_pokeVa]

theorem keeps_expireAll {d₀ : Dev} (d : Dev) (c : CmdRef) (part opcode : Nat) (yielded : Bool) (h : Keeps d₀ d) :
    Keeps d₀ (Dev.expireAll d c part opcode yielded).1 := by
  unfold Dev.expireAll; try dsimp only
  (with_reducible (repeat' first | assumption | apply keeps_clearPageList | apply keeps_expireNow | apply keeps_modEntry | apply keeps_take | split | refine keeps_foldl _ ?_ (fun _ _ _ => ?_))) <;> simp (maxDischargeDepth := 100) only [*, keeps_ite, keeps_mk, keepsAs_iff, keeps_clearPageList, keeps_expireNow, keeps_modEntry, keeps_take]

theorem keeps_dropQueues {d₀ : Dev} (d : Dev) (c : CmdRef) (part : Nat) (h : Keeps d₀ d) :
    Keeps d₀ (Dev.dropQueues d c part) := by
  unfold Dev.dropQueues; try dsimp only
  (with_reducible (repeat' first | assumption | apply keeps_dropQueue | split | refine keeps_foldl _ ?_ (fun _ _ _ => ?_))) <;> simp (maxDischargeDepth := 100) only [*, keeps_ite, keeps_mk, keepsAs_iff, keeps_dropQueue]

theorem keeps_releaseCores {d₀ : Dev} (d : Dev) (part : Nat) (h : Keeps d₀ d) : Keeps d₀ (d.releaseCores part) := by
  unfold Dev.releaseCores; extract_lets x out d1 d2 p3 d3 d4
  have h1 : Keeps d₀ d1 := keeps_foldl _ h (fun d kv hd => by
    (try dsimp only); split
    · exact keeps_setUse _ _ _ _ hd
    · exact hd)
  have h2 : Keeps d₀ d2 := keeps_foldl _ h1 (fun d n hd => keeps_freePage _ _ _ _ hd)
  have h3 : Keeps d₀ d3 := keeps_of_eq (d := d2) h2 rfl rfl rfl rfl
  exact keeps_modPart _ _ _ (keeps_modWick _ _ h3)

theorem keeps_abortAll {d₀ : Dev} (d : Dev) (part : Nat) (h : Keeps d₀ d) :
    Keeps d₀ (Dev.abortAll d part) := by
  unfold Dev.abortAll; try dsimp only
  (with_reducible (repeat' first | assumption | apply keeps_abortPeriod | apply keeps_apply | split | refine keeps_foldl _ ?_ (fun _ _ _ => ?_))) <;> simp (maxDischargeDepth := 100) only [*, keeps_ite, keeps_mk, keepsAs_iff, keeps_abortPeriod, keeps_apply]

theorem keeps_reclaimRelease {d₀ : Dev} (d : Dev) (c : CmdRef) (part : Nat) (r : Result) (h : Keeps d₀ d) :
    Keeps d₀ (Dev.reclaimRelease d c part r) := by
  unfold Dev.reclaimRelease; try dsimp only
  (with_reducible (repeat' first | assumption | apply keeps_abortAll | apply keeps_dropQueues | apply keeps_expireAll | apply keeps_releaseCores | apply keeps_toStage | split | refine keeps_foldl _ ?_ (fun _ _ _ => ?_))) <;> simp (maxDischargeDepth := 100) only [*, keeps_ite, keeps_mk, keepsAs_iff, keeps_abortAll, keeps_dropQueues, keeps_expireAll, keeps_releaseCores, keeps_toStage]

theorem keeps_releaseRelease {d₀ : Dev} (d : Dev) (c : CmdRef) (part : Nat) (r : Result) (h : Keeps d₀ d) :
    Keeps d₀ (Dev.releaseRelease d c part r) := by
  unfold Dev.releaseRelease; try dsimp only
  (with_reducible (repeat' first | assumption | apply keeps_abortAll | apply keeps_dropQueues | apply keeps_expireAll | apply keeps_releaseCores | apply keeps_toStage | split | refine keeps_foldl _ ?_ (fun _ _ _ => ?_))) <;> simp (maxDischargeDepth := 100) only [*, keeps_ite, keeps_mk, keepsAs_iff, keeps_abortAll, keeps_dropQueues, keeps_expireAll, keeps_releaseCores, keeps_toStage]

theorem keeps_noteReclaim {d₀ : Dev} (d : Dev) (part : Nat) (r : Result) (h : Keeps d₀ d) :
    Keeps d₀ (Dev.noteReclaim d part r) := by
  unfold Dev.noteReclaim; try dsimp only
  (with_reducible (repeat' first | assumption | split | refine keeps_foldl _ ?_ (fun _ _ _ => ?_))) <;>
      simp (maxDischargeDepth := 100) only [*, keeps_ite, keeps_mk, keepsAs_iff]

theorem keeps_reclaimGoes {d₀ : Dev} (d : Dev) (c : CmdRef) (part snap : Nat) (e : Entry) (h : Keeps d₀ d) :
    Keeps d₀ (Dev.reclaimGoes d c part snap e) := by
  unfold Dev.reclaimGoes; try dsimp only
  (with_reducible (repeat' first | assumption | apply keeps_noteReclaim | apply keeps_reclaimRelease | apply keeps_reclaimTake | apply keeps_reclaimTaken | apply keeps_stagesDone | apply keeps_toStage | split | refine keeps_foldl _ ?_ (fun _ _ _ => ?_))) <;> simp (maxDischargeDepth := 100) only [*, keeps_ite, keeps_mk, keepsAs_iff, keeps_noteReclaim, keeps_reclaimRelease, keeps_reclaimTake, keeps_reclaimTaken, keeps_stagesDone, keeps_toStage]

theorem keeps_doReclaim {d₀ : Dev} (d : Dev) (c : CmdRef) (h : Keeps d₀ d) : Keeps d₀ (doReclaim d c) := by
  unfold doReclaim
  refine keeps_onPart _ _ _ _ h (fun e => ?_) (fun e => ?_)
  · split
    · rename_i part snap mode hp; dsimp only
      have hk := keeps_stopAndKill d c part true h
      generalize d.stopAndKill c part true = x at hk ⊢
      split
      · exact keeps_toStage _ _ _ _ (keeps_of_eq (d := x.1) hk rfl rfl rfl rfl)
      · exact keeps_refuse _ _ _ _ h
    · exact h
  · split
    · exact keeps_reclaimGoes _ _ _ _ _ h
    · exact h

theorem keeps_doPartRelease {d₀ : Dev} (d : Dev) (c : CmdRef) (h : Keeps d₀ d) : Keeps d₀ (doPartRelease d c) := by
  unfold doPartRelease
  refine keeps_onPart _ _ _ _ h (fun e => ?_) (fun e => ?_)
  · split
    · dsimp only; split
      · exact keeps_refuse _ _ _ _ h
      · exact keeps_toStage _ _ _ _ (keeps_stopAndKill d c _ false h)
    · exact h
  · split
    · split
      · with_reducible (repeat' split) <;>
          first | exact h | exact keeps_releaseRelease _ _ _ _ h | exact keeps_stagesDone _ _ _ _ h
      · exact h
    · exact h

theorem keeps_teardown {d₀ : Dev} (d : Dev) (part : Nat) (h : Keeps d₀ d) :
    Keeps d₀ (Dev.teardown d part) := by
  unfold Dev.teardown; try dsimp only
  (with_reducible (repeat' first | assumption | apply keeps_abortAll | apply keeps_commitTerms | apply keeps_haltQueue | apply keeps_killFinally | apply keeps_modPart | apply keeps_stopOne | apply keeps_zeroSpindles | split | refine keeps_foldl _ ?_ (fun _ _ _ => ?_))) <;> simp (maxDischargeDepth := 100) only [*, keeps_ite, keeps_mk, keepsAs_iff, keeps_abortAll, keeps_commitTerms, keeps_haltQueue, keeps_killFinally, keeps_modPart, keeps_stopOne, keeps_zeroSpindles]

theorem keeps_sendSpanReset {d₀ : Dev} (d : Dev) (part : Nat) (h : Keeps d₀ d) :
    Keeps d₀ (Dev.sendSpanReset d part) := by
  unfold Dev.sendSpanReset; try dsimp only
  (with_reducible (repeat' first | assumption | apply keeps_answer | split | refine keeps_foldl _ ?_ (fun _ _ _ => ?_))) <;> simp (maxDischargeDepth := 100) only [*, keeps_ite, keeps_mk, keepsAs_iff, keeps_answer]

theorem keeps_faultTeardown {d₀ : Dev} (d : Dev) (part : Nat) (h : Keeps d₀ d) :
    Keeps d₀ (Dev.faultTeardown d part) := by
  unfold Dev.faultTeardown; try dsimp only
  (with_reducible (repeat' first | assumption | apply keeps_sendSpanReset | apply keeps_teardown | split | refine keeps_foldl _ ?_ (fun _ _ _ => ?_))) <;> simp (maxDischargeDepth := 100) only [*, keeps_ite, keeps_mk, keepsAs_iff, keeps_sendSpanReset, keeps_teardown]

theorem keeps_doSpanReset {d₀ : Dev} (d : Dev) (spanId : Nat) (h : Keeps d₀ d) :
    Keeps d₀ (doSpanReset d spanId) := by
  unfold doSpanReset; try dsimp only
  (with_reducible (repeat' first | assumption | apply keeps_teardown | split | refine keeps_foldl _ ?_ (fun _ _ _ => ?_))) <;> simp (maxDischargeDepth := 100) only [*, keeps_ite, keeps_mk, keepsAs_iff, keeps_teardown]

theorem keeps_zeroDone {d₀ : Dev} (d : Dev) (i : ZeroItem) (h : Keeps d₀ d) :
    Keeps d₀ (Dev.zeroDone d i) := by
  unfold Dev.zeroDone; try dsimp only
  (with_reducible (repeat' first | assumption | apply keeps_freeFrame | apply keeps_modMem | apply keeps_pokeBlock | apply keeps_setUse | split | refine keeps_foldl _ ?_ (fun _ _ _ => ?_))) <;> simp (maxDischargeDepth := 100) only [*, keeps_ite, keeps_mk, keepsAs_iff, keeps_freeFrame, keeps_modMem, keeps_pokeBlock, keeps_setUse]

theorem keeps_doBackgroundZeroDone {d₀ : Dev} (d : Dev) (t : ZeroTarget) (h : Keeps d₀ d) :
    Keeps d₀ (doBackgroundZeroDone d t) := by
  unfold doBackgroundZeroDone; try dsimp only
  (with_reducible (repeat' first | assumption | apply keeps_zeroDone | split | refine keeps_foldl _ ?_ (fun _ _ _ => ?_))) <;> simp (maxDischargeDepth := 100) only [*, keeps_ite, keeps_mk, keepsAs_iff, keeps_zeroDone]

theorem keeps_doUnsealZeroDone {d₀ : Dev} (d : Dev) (r : Nat) (h : Keeps d₀ d) :
    Keeps d₀ (doUnsealZeroDone d r) := by
  unfold doUnsealZeroDone; try dsimp only
  (with_reducible (repeat' first | assumption | apply keeps_modMem | apply keeps_zeroDone | split | refine keeps_foldl _ ?_ (fun _ _ _ => ?_))) <;> simp (maxDischargeDepth := 100) only [*, keeps_ite, keeps_mk, keepsAs_iff, keeps_modMem, keeps_zeroDone]

theorem keeps_doReleaseZeroDone {d₀ : Dev} (d : Dev) (part : Nat) (h : Keeps d₀ d) :
    Keeps d₀ (doReleaseZeroDone d part) := by
  unfold doReleaseZeroDone; try dsimp only
  (with_reducible (repeat' first | assumption | apply keeps_pokeBlock | apply keeps_setUse | apply keeps_zeroSpindles | split | refine keeps_foldl _ ?_ (fun _ _ _ => ?_))) <;> simp (maxDischargeDepth := 100) only [*, keeps_ite, keeps_mk, keepsAs_iff, keeps_pokeBlock, keeps_setUse, keeps_zeroSpindles]

theorem keeps_doKvPageZeroDone {d₀ : Dev} (d : Dev) (part pa : Nat) (h : Keeps d₀ d) :
    Keeps d₀ (doKvPageZeroDone d part pa) := by
  unfold doKvPageZeroDone; try dsimp only
  (with_reducible (repeat' first | assumption | apply keeps_modPool | apply keeps_pokeBlock | split | refine keeps_foldl _ ?_ (fun _ _ _ => ?_))) <;> simp (maxDischargeDepth := 100) only [*, keeps_ite, keeps_mk, keepsAs_iff, keeps_modPool, keeps_pokeBlock]

end Sys2Proof.Machine
end

