-- ==== Sys2Proof/Laws/KeepsLamp.lean ====
section
/-! SUPPORT. What `Keeps` says of the functions of the Lamplighter: errors, boot, power and class 0xB: one lemma each. -/

set_option linter.all false

namespace Sys2Proof.Machine

/-! ### Lamp -/

theorem keeps_modLamp (d₀ d : Dev) (f : Lamp → Lamp) : Keeps d₀ (d.modLamp f) ↔
    KeepsAs d₀ d.clk.standby d.clk.tick d.clk.copies d.mem.bytes d.mem.host (f d.lamp).localMem d.paths := Iff.rfl

theorem addRecord_localMem (l : Lamp) (r : ErrRecord) : (l.addRecord r).localMem = l.localMem := rfl

theorem keeps_fileError {d₀ : Dev} (d : Dev) (e : ErrorInfo) (level : Nat) (escalated fatal : Bool) (h : Keeps d₀ d) :
    Keeps d₀ (Dev.fileError d e level escalated fatal) := by
  unfold Dev.fileError; try dsimp only
  (with_reducible (repeat' first | assumption | apply keeps_addRecord | apply keeps_modLamp | split | refine keeps_foldl _ ?_ (fun _ _ _ => ?_))) <;> simp (maxDischargeDepth := 100) only [*, keeps_ite, keeps_mk, keepsAs_iff, keeps_addRecord, keeps_modLamp, addRecord_localMem]

theorem keeps_note {d₀ : Dev} (d : Dev) (e : ErrorInfo) (h : Keeps d₀ d) :
    Keeps d₀ (Dev.note d e) := by
  unfold Dev.note; try dsimp only
  (with_reducible (repeat' first | assumption | apply keeps_fileError | split | refine keeps_foldl _ ?_ (fun _ _ _ => ?_))) <;> simp (maxDischargeDepth := 100) only [*, keeps_ite, keeps_mk, keepsAs_iff, keeps_fileError]

theorem keeps_onVendor {d₀ : Dev} (d : Dev) (vendor : Nat) (f : Dev → Dev) (h : Keeps d₀ d) (hf : ∀ d,
    Keeps d₀ d → Keeps d₀ (f d)) :
    Keeps d₀ (d.onVendor vendor f) := by
  unfold Dev.onVendor; split
  · exact hf _ h
  · exact h

theorem keeps_sbSend {d₀ : Dev} (d : Dev) (dst : SbEnd) (body : List Byte) (h : Keeps d₀ d) :
    Keeps d₀ (Dev.sbSend d dst body) := by
  unfold Dev.sbSend; try dsimp only
  (with_reducible (repeat' first | assumption | apply keeps_modLamp | split | refine keeps_foldl _ ?_ (fun _ _ _ => ?_))) <;> simp (maxDischargeDepth := 100) only [*, keeps_ite, keeps_mk, keepsAs_iff, keeps_modLamp]

theorem keeps_sendAlert {d₀ : Dev} (d : Dev) (port : Nat) (newest : List Byte) (h : Keeps d₀ d) :
    Keeps d₀ (Dev.sendAlert d port newest) := by
  unfold Dev.sendAlert; try dsimp only
  (with_reducible (repeat' first | assumption | apply keeps_modLamp | apply keeps_sbSend | split | refine keeps_foldl _ ?_ (fun _ _ _ => ?_))) <;> simp (maxDischargeDepth := 100) only [*, keeps_ite, keeps_mk, keepsAs_iff, keeps_modLamp, keeps_sbSend]

theorem keeps_doAlertSend {d₀ : Dev} (d : Dev) (port : Nat) (h : Keeps d₀ d) :
    Keeps d₀ (doAlertSend d port) := by
  unfold doAlertSend; try dsimp only
  (with_reducible (repeat' first | assumption | apply keeps_due | apply keeps_sendAlert | split | refine keeps_foldl _ ?_ (fun _ _ _ => ?_))) <;> simp (maxDischargeDepth := 100) only [*, keeps_ite, keeps_mk, keepsAs_iff, keeps_due, keeps_sendAlert]

theorem keeps_noteIdentity {d₀ : Dev} (d : Dev) (h : Keeps d₀ d) :
    Keeps d₀ (Dev.noteIdentity d) := by
  unfold Dev.noteIdentity; try dsimp only
  (with_reducible (repeat' first | assumption | apply keeps_modLamp | apply keeps_note | split | refine keeps_foldl _ ?_ (fun _ _ _ => ?_))) <;> simp (maxDischargeDepth := 100) only [*, keeps_ite, keeps_mk, keepsAs_iff, keeps_modLamp, keeps_note]

theorem keeps_newKey {d₀ : Dev} (d : Dev) (h : Keeps d₀ d) :
    Keeps d₀ (Dev.newKey d) := by
  unfold Dev.newKey; try dsimp only
  (with_reducible (repeat' first | assumption | apply keeps_modLamp | apply keeps_note | apply keeps_noteIdentity | split | refine keeps_foldl _ ?_ (fun _ _ _ => ?_))) <;> simp (maxDischargeDepth := 100) only [*, keeps_ite, keeps_mk, keepsAs_iff, keeps_modLamp, keeps_note, keeps_noteIdentity]

theorem keeps_stage7 {d₀ : Dev} (d : Dev) (h : Keeps d₀ d) :
    Keeps d₀ (Dev.stage7 d) := by
  unfold Dev.stage7; try dsimp only
  (with_reducible (repeat' first | assumption | apply keeps_modLamp | apply keeps_newKey | split | refine keeps_foldl _ ?_ (fun _ _ _ => ?_))) <;> simp (maxDischargeDepth := 100) only [*, keeps_ite, keeps_mk, keepsAs_iff, keeps_modLamp, keeps_newKey]

/-! ### Boot -/

theorem keeps_bare {d₀ : Dev} (d : Dev) (h : Keeps d₀ d) : Keeps d₀ (d.bare) := by
  exact ⟨h.1, h.2.1, h.2.2.1, fun w => ⟨rfl, (h.2.2.2 w).2.1, rfl, tblWf_mapped _ (h.2.2.2 w).2.2.2⟩⟩

theorem keeps_openQueue1 {d₀ : Dev} (d : Dev) (h : Keeps d₀ d) :
    Keeps d₀ (Dev.openQueue1 d) := by
  unfold Dev.openQueue1; try dsimp only
  (with_reducible (repeat' first | assumption | apply keeps_setQueue | split | refine keeps_foldl _ ?_ (fun _ _ _ => ?_))) <;> simp (maxDischargeDepth := 100) only [*, keeps_ite, keeps_mk, keepsAs_iff, keeps_setQueue]

theorem keeps_openQueues {d₀ : Dev} (d : Dev) (h : Keeps d₀ d) :
    Keeps d₀ (Dev.openQueues d) := by
  unfold Dev.openQueues; try dsimp only
  (with_reducible (repeat' first | assumption | apply keeps_setQueue | split | refine keeps_foldl _ ?_ (fun _ _ _ => ?_))) <;> simp (maxDischargeDepth := 100) only [*, keeps_ite, keeps_mk, keepsAs_iff, keeps_setQueue]

theorem keeps_takeRecord {d₀ : Dev} (d : Dev) (n : Nat) (h : Keeps d₀ d) :
    Keeps d₀ (Dev.takeRecord d n) := by
  unfold Dev.takeRecord; try dsimp only
  (with_reducible (repeat' first | assumption | apply keeps_extendMeas | apply keeps_modLamp | split | refine keeps_foldl _ ?_ (fun _ _ _ => ?_))) <;> simp (maxDischargeDepth := 100) only [*, keeps_ite, keeps_mk, keepsAs_iff, keeps_extendMeas, keeps_modLamp]

theorem keeps_raiseRails {d₀ : Dev} (d : Dev) (b : BoardFacts) (h : Keeps d₀ d) :
    Keeps d₀ (Dev.raiseRails d b) := by
  unfold Dev.raiseRails; try dsimp only
  (with_reducible (repeat' first | assumption | apply keeps_modLamp | split | refine keeps_foldl _ ?_ (fun _ _ _ => ?_))) <;> simp (maxDischargeDepth := 100) only [*, keeps_ite, keeps_mk, keepsAs_iff, keeps_modLamp]

theorem keeps_releaseDies {d₀ : Dev} (d : Dev) (h : Keeps d₀ d) :
    Keeps d₀ (Dev.releaseDies d) := by
  unfold Dev.releaseDies; try dsimp only
  (with_reducible (repeat' first | assumption | apply keeps_take | split | refine keeps_foldl _ ?_ (fun _ _ _ => ?_))) <;> simp (maxDischargeDepth := 100) only [*, keeps_ite, keeps_mk, keepsAs_iff, keeps_take]

theorem keeps_trainMemory {d₀ : Dev} (d : Dev) (b : BoardFacts) (h : Keeps d₀ d) :
    Keeps d₀ (Dev.trainMemory d b) := by
  unfold Dev.trainMemory; try dsimp only
  (with_reducible (repeat' first | assumption | apply keeps_modMem | apply keeps_note | apply keeps_take | split | refine keeps_foldl _ ?_ (fun _ _ _ => ?_))) <;> simp (maxDischargeDepth := 100) only [*, keeps_ite, keeps_mk, keepsAs_iff, keeps_modMem, keeps_note, keeps_take]

theorem keeps_trainPorts {d₀ : Dev} (d : Dev) (b : BoardFacts) (h : Keeps d₀ d) :
    Keeps d₀ (Dev.trainPorts d b) := by
  unfold Dev.trainPorts; try dsimp only
  (with_reducible (repeat' first | assumption | apply keeps_modPort | split | refine keeps_foldl _ ?_ (fun _ _ _ => ?_))) <;> simp (maxDischargeDepth := 100) only [*, keeps_ite, keeps_mk, keepsAs_iff, keeps_modPort]

theorem keeps_testTreadles {d₀ : Dev} (d : Dev) (b : BoardFacts) (h : Keeps d₀ d) :
    Keeps d₀ (Dev.testTreadles d b) := by
  unfold Dev.testTreadles; try dsimp only
  (with_reducible (repeat' first | assumption | apply keeps_modTreadle | apply keeps_note | split | refine keeps_foldl _ ?_ (fun _ _ _ => ?_))) <;> simp (maxDischargeDepth := 100) only [*, keeps_ite, keeps_mk, keepsAs_iff, keeps_modTreadle, keeps_note]

theorem keeps_stage6 {d₀ : Dev} (d : Dev) (b : BoardFacts) (h : Keeps d₀ d) :
    Keeps d₀ (Dev.stage6 d b) := by
  unfold Dev.stage6; try dsimp only
  (with_reducible (repeat' first | assumption | apply keeps_extendMeas | apply keeps_modLamp | apply keeps_testTreadles | apply keeps_trainMemory | apply keeps_trainPorts | split | refine keeps_foldl _ ?_ (fun _ _ _ => ?_))) <;> simp (maxDischargeDepth := 100) only [*, keeps_ite, keeps_mk, keepsAs_iff, keeps_extendMeas, keeps_modLamp, keeps_testTreadles, keeps_trainMemory, keeps_trainPorts]

theorem keeps_bootOn {d₀ : Dev} (d : Dev) (b : BoardFacts) (h : Keeps d₀ d) :
    Keeps d₀ (Dev.bootOn d b) := by
  unfold Dev.bootOn; try dsimp only
  (with_reducible (repeat' first | assumption | apply keeps_modLamp | apply keeps_openQueues | apply keeps_raiseRails | apply keeps_releaseDies | apply keeps_stage6 | apply keeps_stage7 | split | refine keeps_foldl _ ?_ (fun _ _ _ => ?_))) <;> simp (maxDischargeDepth := 100) only [*, keeps_ite, keeps_mk, keepsAs_iff, keeps_modLamp, keeps_openQueues, keeps_raiseRails, keeps_releaseDies, keeps_stage6, keeps_stage7]

theorem keeps_boot4 {d₀ : Dev} (d : Dev) (h : Keeps d₀ d) :
    Keeps d₀ (Dev.boot4 d) := by
  unfold Dev.boot4; try dsimp only
  (with_reducible (repeat' first | assumption | apply keeps_bootOn | apply keeps_modLamp | apply keeps_openQueue1 | apply keeps_takeRecord | split | refine keeps_foldl _ ?_ (fun _ _ _ => ?_))) <;> simp (maxDischargeDepth := 100) only [*, keeps_ite, keeps_mk, keepsAs_iff, keeps_bootOn, keeps_modLamp, keeps_openQueue1, keeps_takeRecord]

theorem keeps_toRecovery {d₀ : Dev} (d : Dev) (stage : Nat) (h : Keeps d₀ d) :
    Keeps d₀ (Dev.toRecovery d stage) := by
  unfold Dev.toRecovery; try dsimp only
  (with_reducible (repeat' first | assumption | apply keeps_modLamp | split | refine keeps_foldl _ ?_ (fun _ _ _ => ?_))) <;> simp (maxDischargeDepth := 100) only [*, keeps_ite, keeps_mk, keepsAs_iff, keeps_modLamp]

theorem keeps_runImage {d₀ : Dev} (d : Dev) (slotB : Bool) (image : List Byte) (h : Keeps d₀ d) :
    Keeps d₀ (Dev.runImage d slotB image) := by
  unfold Dev.runImage; try dsimp only
  (with_reducible (repeat' first | assumption | apply keeps_extendMeas | apply keeps_modLamp | apply keeps_note | split | refine keeps_foldl _ ?_ (fun _ _ _ => ?_))) <;> simp (maxDischargeDepth := 100) only [*, keeps_ite, keeps_mk, keepsAs_iff, keeps_extendMeas, keeps_modLamp, keeps_note]

theorem keeps_bootFrom1 {d₀ : Dev} (d : Dev) (h : Keeps d₀ d) :
    Keeps d₀ (Dev.bootFrom1 d) := by
  unfold Dev.bootFrom1; try dsimp only
  (with_reducible (repeat' first | assumption | apply keeps_boot4 | apply keeps_modLamp | apply keeps_runImage | apply keeps_toRecovery | split | refine keeps_foldl _ ?_ (fun _ _ _ => ?_))) <;> simp (maxDischargeDepth := 100) only [*, keeps_ite, keeps_mk, keepsAs_iff, keeps_boot4, keeps_modLamp, keeps_runImage, keeps_toRecovery]

theorem keeps_deviceReset {d₀ : Dev} (d : Dev) (pin : Bool) (h : Keeps d₀ d) :
    Keeps d₀ (Dev.deviceReset d pin) := by
  unfold Dev.deviceReset; try dsimp only
  (with_reducible (repeat' first | assumption | apply keeps_bare | apply keeps_boot4 | split | refine keeps_foldl _ ?_ (fun _ _ _ => ?_))) <;> simp (maxDischargeDepth := 100) only [*, keeps_ite, keeps_mk, keepsAs_iff, keeps_bare, keeps_boot4]

theorem keeps_holdDown {d₀ : Dev} (d : Dev) (h : Keeps d₀ d) :
    Keeps d₀ (Dev.holdDown d) := by
  unfold Dev.holdDown; try dsimp only
  (with_reducible (repeat' first | assumption | apply keeps_bare | apply keeps_openQueue1 | split | refine keeps_foldl _ ?_ (fun _ _ _ => ?_))) <;> simp (maxDischargeDepth := 100) only [*, keeps_ite, keeps_mk, keepsAs_iff, keeps_bare, keeps_openQueue1]

theorem keeps_fatalError {d₀ : Dev} (d : Dev) (e : ErrorInfo) (escalated : Bool) (h : Keeps d₀ d) :
    Keeps d₀ (Dev.fatalError d e escalated) := by
  unfold Dev.fatalError; try dsimp only
  (with_reducible (repeat' first | assumption | apply keeps_addRecord | apply keeps_bare | apply keeps_bootFrom1 | apply keeps_modLamp | apply keeps_sendAlert | split | refine keeps_foldl _ ?_ (fun _ _ _ => ?_))) <;> simp (maxDischargeDepth := 100) only [*, keeps_ite, keeps_mk, keepsAs_iff, keeps_addRecord, keeps_bare, keeps_bootFrom1, keeps_modLamp, keeps_sendAlert, addRecord_localMem]

/-! ### Errors -/

theorem keeps_setRecovering {d₀ : Dev} (d : Dev) (r : Recovering) (h : Keeps d₀ d) :
    Keeps d₀ (Dev.setRecovering d r) := by
  unfold Dev.setRecovering; try dsimp only
  (with_reducible (repeat' first | assumption | apply keeps_modLamp | split | refine keeps_foldl _ ?_ (fun _ _ _ => ?_))) <;> simp (maxDischargeDepth := 100) only [*, keeps_ite, keeps_mk, keepsAs_iff, keeps_modLamp]

theorem keeps_restartUnit {d₀ : Dev} (d : Dev) (u : UnitId) (h : Keeps d₀ d) :
    Keeps d₀ (Dev.restartUnit d u) := by
  unfold Dev.restartUnit; try dsimp only
  (with_reducible (repeat' first | assumption | apply keeps_commitTerms | apply keeps_killAgain | apply keeps_setRecovering | split | refine keeps_foldl _ ?_ (fun _ _ _ => ?_))) <;> simp (maxDischargeDepth := 100) only [*, keeps_ite, keeps_mk, keepsAs_iff, keeps_commitTerms, keeps_killAgain, keeps_setRecovering]

theorem keeps_tearUnit {d₀ : Dev} (d : Dev) (u : UnitId) (h : Keeps d₀ d) :
    Keeps d₀ (Dev.tearUnit d u) := by
  unfold Dev.tearUnit; try dsimp only
  (with_reducible (repeat' first | assumption | apply keeps_faultTeardown | apply keeps_setRecovering | split | refine keeps_foldl _ ?_ (fun _ _ _ => ?_))) <;> simp (maxDischargeDepth := 100) only [*, keeps_ite, keeps_mk, keepsAs_iff, keeps_faultTeardown, keeps_setRecovering]

theorem keeps_resetFor {d₀ : Dev} (d : Dev) (u : UnitId) (code : Nat) (h : Keeps d₀ d) :
    Keeps d₀ (Dev.resetFor d u code) := by
  unfold Dev.resetFor; try dsimp only
  (with_reducible (repeat' first | assumption | apply keeps_deviceReset | apply keeps_holdDown | apply keeps_setRecovering | split | refine keeps_foldl _ ?_ (fun _ _ _ => ?_))) <;> simp (maxDischargeDepth := 100) only [*, keeps_ite, keeps_mk, keepsAs_iff, keeps_deviceReset, keeps_holdDown, keeps_setRecovering]

theorem keeps_actOn {d₀ : Dev} (d : Dev) (e : ErrorInfo) (level : Nat) (escalated : Bool) (h : Keeps d₀ d) :
    Keeps d₀ (Dev.actOn d e level escalated) := by
  unfold Dev.actOn; try dsimp only
  (with_reducible (repeat' first | assumption | apply keeps_fatalError | apply keeps_fileError | apply keeps_resetFor | apply keeps_restartUnit | apply keeps_setRecovering | apply keeps_tearUnit | split | refine keeps_foldl _ ?_ (fun _ _ _ => ?_))) <;> simp (maxDischargeDepth := 100) only [*, keeps_ite, keeps_mk, keepsAs_iff, keeps_fatalError, keeps_fileError, keeps_resetFor, keeps_restartUnit, keeps_setRecovering, keeps_tearUnit]

theorem keeps_takeError {d₀ : Dev} (d : Dev) (e : ErrorInfo) (h : Keeps d₀ d) :
    Keeps d₀ (Dev.takeError d e) := by
  unfold Dev.takeError; try dsimp only
  (with_reducible (repeat' first | assumption | apply keeps_actOn | split | refine keeps_foldl _ ?_ (fun _ _ _ => ?_))) <;> simp (maxDischargeDepth := 100) only [*, keeps_ite, keeps_mk, keepsAs_iff, keeps_actOn]

theorem keeps_settleIn {d₀ : Dev} (d : Dev) (n : Nat) (h : Keeps d₀ d) : Keeps d₀ (d.settleIn n) := by
  induction n generalizing d with
  | zero => exact keeps_foldl _ (keeps_of_eq h rfl rfl rfl rfl) (fun _ _ hd => keeps_note _ _ hd)
  | succ n ih =>
    unfold Dev.settleIn
    split
    · exact h
    · exact ih _ (keeps_foldl _ (keeps_of_eq h rfl rfl rfl rfl) (fun _ _ hd => keeps_takeError _ _ hd))

theorem keeps_settle {d₀ : Dev} (d : Dev) (h : Keeps d₀ d) :
    Keeps d₀ (Dev.settle d) := by
  unfold Dev.settle; try dsimp only
  (with_reducible (repeat' first | assumption | apply keeps_settleIn | split | refine keeps_foldl _ ?_ (fun _ _ _ => ?_))) <;> simp (maxDischargeDepth := 100) only [*, keeps_ite, keeps_mk, keepsAs_iff, keeps_settleIn]

theorem keeps_failNamed {d₀ : Dev} (d : Dev) (e : ErrorInfo) (h : Keeps d₀ d) :
    Keeps d₀ (Dev.failNamed d e) := by
  unfold Dev.failNamed; try dsimp only
  (with_reducible (repeat' first | assumption | apply keeps_failEntry | apply keeps_forget | apply keeps_unsave | apply keeps_untakeFor | apply keeps_untakeKv | apply keeps_unwait | split | refine keeps_foldl _ ?_ (fun _ _ _ => ?_))) <;> simp (maxDischargeDepth := 100) only [*, keeps_ite, keeps_mk, keepsAs_iff, keeps_failEntry, keeps_forget, keeps_unsave, keeps_untakeFor, keeps_untakeKv, keeps_unwait]

theorem keeps_doErrorTaken {d₀ : Dev} (d : Dev) (e : ErrorInfo) (h : Keeps d₀ d) :
    Keeps d₀ (doErrorTaken d e) := by
  unfold doErrorTaken; try dsimp only
  (with_reducible (repeat' first | assumption | apply keeps_failNamed | apply keeps_takeError | split | refine keeps_foldl _ ?_ (fun _ _ _ => ?_))) <;> simp (maxDischargeDepth := 100) only [*, keeps_ite, keeps_mk, keepsAs_iff, keeps_failNamed, keeps_takeError]

theorem keeps_reissue {d₀ : Dev} (d : Dev) (c : CmdRef) (h : Keeps d₀ d) :
    Keeps d₀ (Dev.reissue d c) := by
  unfold Dev.reissue; try dsimp only
  (with_reducible (repeat' first | assumption | apply keeps_modEntry | split | refine keeps_foldl _ ?_ (fun _ _ _ => ?_))) <;> simp (maxDischargeDepth := 100) only [*, keeps_ite, keeps_mk, keepsAs_iff, keeps_modEntry]

theorem keeps_doRerunIssue {d₀ : Dev} (d : Dev) (c : CmdRef) (h : Keeps d₀ d) :
    Keeps d₀ (doRerunIssue d c) := by
  unfold doRerunIssue; try dsimp only
  (with_reducible (repeat' first | assumption | apply keeps_reissue | split | refine keeps_foldl _ ?_ (fun _ _ _ => ?_))) <;> simp (maxDischargeDepth := 100) only [*, keeps_ite, keeps_mk, keepsAs_iff, keeps_reissue]

theorem keeps_doUnitRestartDone {d₀ : Dev} (d : Dev) (u : UnitId) (h : Keeps d₀ d) :
    Keeps d₀ (doUnitRestartDone d u) := by
  unfold doUnitRestartDone; try dsimp only
  (with_reducible (repeat' first | assumption | apply keeps_modLamp | apply keeps_reissue | split | refine keeps_foldl _ ?_ (fun _ _ _ => ?_))) <;> simp (maxDischargeDepth := 100) only [*, keeps_ite, keeps_mk, keepsAs_iff, keeps_modLamp, keeps_reissue]

theorem keeps_doRecoveryTimeout {d₀ : Dev} (d : Dev) (u : UnitId) (h : Keeps d₀ d) :
    Keeps d₀ (doRecoveryTimeout d u) := by
  unfold doRecoveryTimeout; try dsimp only
  (with_reducible (repeat' first | assumption | apply keeps_takeError | split | refine keeps_foldl _ ?_ (fun _ _ _ => ?_))) <;> simp (maxDischargeDepth := 100) only [*, keeps_ite, keeps_mk, keepsAs_iff, keeps_takeError]

theorem keeps_doWatchdog {d₀ : Dev} (d : Dev) (c : CmdRef) (h : Keeps d₀ d) :
    Keeps d₀ (doWatchdog d c) := by
  unfold doWatchdog; try dsimp only
  (with_reducible (repeat' first | assumption | apply keeps_takeError | split | refine keeps_foldl _ ?_ (fun _ _ _ => ?_))) <;> simp (maxDischargeDepth := 100) only [*, keeps_ite, keeps_mk, keepsAs_iff, keeps_takeError]

theorem keeps_doLockstepFault {d₀ : Dev} (d : Dev) (h : Keeps d₀ d) :
    Keeps d₀ (doLockstepFault d) := by
  unfold doLockstepFault; try dsimp only
  (with_reducible (repeat' first | assumption | apply keeps_takeError | split | refine keeps_foldl _ ?_ (fun _ _ _ => ?_))) <;> simp (maxDischargeDepth := 100) only [*, keeps_ite, keeps_mk, keepsAs_iff, keeps_takeError]

theorem keeps_doRefclkLost {d₀ : Dev} (d : Dev) (h : Keeps d₀ d) : Keeps d₀ (doRefclkLost d) := by
  unfold doRefclkLost; split
  · exact keeps_takeError _ _ ⟨h.1, h.2.1, h.2.2.1, h.2.2.2⟩
  · exact h

theorem keeps_doRefclkReturn {d₀ : Dev} (d : Dev) (h : Keeps d₀ d) : Keeps d₀ (doRefclkReturn d) := by
  unfold doRefclkReturn; split
  · exact keeps_takeError _ _ ⟨h.1, h.2.1, h.2.2.1, h.2.2.2⟩
  · exact h

theorem keeps_doCdRefclkLost {d₀ : Dev} (d : Dev) (clock : Nat) (h : Keeps d₀ d) :
    Keeps d₀ (doCdRefclkLost d clock) := by
  unfold doCdRefclkLost; try dsimp only
  (with_reducible (repeat' first | assumption | apply keeps_due | apply keeps_settle | split | refine keeps_foldl _ ?_ (fun _ _ _ => ?_))) <;> simp (maxDischargeDepth := 100) only [*, keeps_ite, keeps_mk, keepsAs_iff, keeps_due, keeps_settle]

/-! ### Power -/

theorem setInput_localMem (l : Lamp) (i : Nat) (r : ResetInput) : (l.setInput i r).localMem = l.localMem := by
  unfold Lamp.setInput; split <;> rfl

theorem keeps_modInput {d₀ : Dev} (d : Dev) (i : Nat) (f : ResetInput → ResetInput) (h : Keeps d₀ d) :
    Keeps d₀ (Dev.modInput d i f) := by
  unfold Dev.modInput; try dsimp only
  (with_reducible (repeat' first | assumption | apply keeps_modLamp | split | refine keeps_foldl _ ?_ (fun _ _ _ => ?_))) <;> simp (maxDischargeDepth := 100) only [*, keeps_ite, keeps_mk, keepsAs_iff, keeps_modLamp, setInput_localMem]

theorem keeps_latchStuck {d₀ : Dev} (d : Dev) (i : Nat) (h : Keeps d₀ d) :
    Keeps d₀ (Dev.latchStuck d i) := by
  unfold Dev.latchStuck; try dsimp only
  (with_reducible (repeat' first | assumption | apply keeps_modInput | apply keeps_takeError | split | refine keeps_foldl _ ?_ (fun _ _ _ => ?_))) <;> simp (maxDischargeDepth := 100) only [*, keeps_ite, keeps_mk, keepsAs_iff, keeps_modInput, keeps_takeError]

theorem keeps_latchChatter {d₀ : Dev} (d : Dev) (i : Nat) (h : Keeps d₀ d) :
    Keeps d₀ (Dev.latchChatter d i) := by
  unfold Dev.latchChatter; try dsimp only
  (with_reducible (repeat' first | assumption | apply keeps_modInput | apply keeps_takeError | split | refine keeps_foldl _ ?_ (fun _ _ _ => ?_))) <;> simp (maxDischargeDepth := 100) only [*, keeps_ite, keeps_mk, keepsAs_iff, keeps_modInput, keeps_takeError]

theorem keeps_resetBridge {d₀ : Dev} (d : Dev) (h : Keeps d₀ d) :
    Keeps d₀ (Dev.resetBridge d) := by
  unfold Dev.resetBridge; try dsimp only
  (with_reducible (repeat' first | assumption | apply keeps_modLinks | split | refine keeps_foldl _ ?_ (fun _ _ _ => ?_))) <;> simp (maxDischargeDepth := 100) only [*, keeps_ite, keeps_mk, keepsAs_iff, keeps_modLinks]

theorem keeps_inputPulse {d₀ : Dev} (d : Dev) (i lowNs : Nat) (h : Keeps d₀ d) :
    Keeps d₀ (Dev.inputPulse d i lowNs) := by
  unfold Dev.inputPulse; try dsimp only
  (with_reducible (repeat' first | assumption | apply keeps_deviceReset | apply keeps_latchChatter | apply keeps_latchStuck | apply keeps_modInput | apply keeps_resetBridge | split | refine keeps_foldl _ ?_ (fun _ _ _ => ?_))) <;> simp (maxDischargeDepth := 100) only [*, keeps_ite, keeps_mk, keepsAs_iff, keeps_deviceReset, keeps_latchChatter, keeps_latchStuck, keeps_modInput, keeps_resetBridge]

theorem keeps_doSbRstN {d₀ : Dev} (d : Dev) (lowNs : Nat) (h : Keeps d₀ d) :
    Keeps d₀ (doSbRstN d lowNs) := by
  unfold doSbRstN; try dsimp only
  (with_reducible (repeat' first | assumption | apply keeps_inputPulse | apply keeps_modInput | split | refine keeps_foldl _ ?_ (fun _ _ _ => ?_))) <;> simp (maxDischargeDepth := 100) only [*, keeps_ite, keeps_mk, keepsAs_iff, keeps_inputPulse, keeps_modInput]

theorem keeps_inputSticks {d₀ : Dev} (d : Dev) (i : Nat) (h : Keeps d₀ d) :
    Keeps d₀ (Dev.inputSticks d i) := by
  unfold Dev.inputSticks; try dsimp only
  (with_reducible (repeat' first | assumption | apply keeps_latchStuck | apply keeps_modInput | split | refine keeps_foldl _ ?_ (fun _ _ _ => ?_))) <;> simp (maxDischargeDepth := 100) only [*, keeps_ite, keeps_mk, keepsAs_iff, keeps_latchStuck, keeps_modInput]

theorem keeps_perstFalls {d₀ : Dev} (d : Dev) (h : Keeps d₀ d) :
    Keeps d₀ (Dev.perstFalls d) := by
  unfold Dev.perstFalls; try dsimp only
  (with_reducible (repeat' first | assumption | apply keeps_latchChatter | apply keeps_modInput | apply keeps_resetBridge | split | refine keeps_foldl _ ?_ (fun _ _ _ => ?_))) <;> simp (maxDischargeDepth := 100) only [*, keeps_ite, keeps_mk, keepsAs_iff, keeps_latchChatter, keeps_modInput, keeps_resetBridge]

theorem keeps_doHostPerstN {d₀ : Dev} (d : Dev) (high : Bool) (heldNs : Nat) (h : Keeps d₀ d) :
    Keeps d₀ (doHostPerstN d high heldNs) := by
  unfold doHostPerstN; try dsimp only
  (with_reducible (repeat' first | assumption | apply keeps_inputSticks | apply keeps_modInput | apply keeps_perstFalls | split | refine keeps_foldl _ ?_ (fun _ _ _ => ?_))) <;> simp (maxDischargeDepth := 100) only [*, keeps_ite, keeps_mk, keepsAs_iff, keeps_inputSticks, keeps_modInput, keeps_perstFalls]

theorem keeps_doInputStuck {d₀ : Dev} (d : Dev) (i : Nat) (h : Keeps d₀ d) :
    Keeps d₀ (doInputStuck d i) := by
  unfold doInputStuck; try dsimp only
  (with_reducible (repeat' first | assumption | apply keeps_inputPulse | apply keeps_inputSticks | apply keeps_perstFalls | split | refine keeps_foldl _ ?_ (fun _ _ _ => ?_))) <;> simp (maxDischargeDepth := 100) only [*, keeps_ite, keeps_mk, keepsAs_iff, keeps_inputPulse, keeps_inputSticks, keeps_perstFalls]

theorem keeps_doInputChatter {d₀ : Dev} (d : Dev) (i : Nat) (h : Keeps d₀ d) :
    Keeps d₀ (doInputChatter d i) := by
  unfold doInputChatter; try dsimp only
  (with_reducible (repeat' first | assumption | apply keeps_latchChatter | split | refine keeps_foldl _ ?_ (fun _ _ _ => ?_))) <;> simp (maxDischargeDepth := 100) only [*, keeps_ite, keeps_mk, keepsAs_iff, keeps_latchChatter]

theorem keeps_doPowerGoodTimeout {d₀ : Dev} (d : Dev) (h : Keeps d₀ d) :
    Keeps d₀ (doPowerGoodTimeout d) := by
  unfold doPowerGoodTimeout; try dsimp only
  (with_reducible (repeat' first | assumption | apply keeps_takeError | split | refine keeps_foldl _ ?_ (fun _ _ _ => ?_))) <;> simp (maxDischargeDepth := 100) only [*, keeps_ite, keeps_mk, keepsAs_iff, keeps_takeError]

theorem keeps_doPowerGoodLost {d₀ : Dev} (d : Dev) (rail : Nat) (h : Keeps d₀ d) :
    Keeps d₀ (doPowerGoodLost d rail) := by
  unfold doPowerGoodLost; try dsimp only
  (with_reducible (repeat' first | assumption | apply keeps_takeError | split | refine keeps_foldl _ ?_ (fun _ _ _ => ?_))) <;> simp (maxDischargeDepth := 100) only [*, keeps_ite, keeps_mk, keepsAs_iff, keeps_takeError]

theorem keeps_modPower {d₀ : Dev} (d : Dev) (f : Power → Power) (h : Keeps d₀ d) :
    Keeps d₀ (Dev.modPower d f) := by
  unfold Dev.modPower; try dsimp only
  (with_reducible (repeat' first | assumption | split | refine keeps_foldl _ ?_ (fun _ _ _ => ?_))) <;>
      simp (maxDischargeDepth := 100) only [*, keeps_ite, keeps_mk, keepsAs_iff]

theorem keeps_doPowerEval {d₀ : Dev} (d : Dev) (avg : Nat) (h : Keeps d₀ d) :
    Keeps d₀ (doPowerEval d avg) := by
  unfold doPowerEval; try dsimp only
  (with_reducible (repeat' first | assumption | apply keeps_modPower | split | refine keeps_foldl _ ?_ (fun _ _ _ => ?_))) <;> simp (maxDischargeDepth := 100) only [*, keeps_ite, keeps_mk, keepsAs_iff, keeps_modPower]

theorem keeps_doPwrBrake {d₀ : Dev} (d : Dev) (low : Bool) (heldNs : Nat) (h : Keeps d₀ d) :
    Keeps d₀ (doPwrBrake d low heldNs) := by
  unfold doPwrBrake; try dsimp only
  (with_reducible (repeat' first | assumption | apply keeps_modPower | split | refine keeps_foldl _ ?_ (fun _ _ _ => ?_))) <;> simp (maxDischargeDepth := 100) only [*, keeps_ite, keeps_mk, keepsAs_iff, keeps_modPower]

theorem keeps_readStacks {d₀ : Dev} (d : Dev) (s : Sensors) (h : Keeps d₀ d) :
    Keeps d₀ (Dev.readStacks d s) := by
  unfold Dev.readStacks; try dsimp only
  (with_reducible (repeat' first | assumption | apply keeps_modMem | apply keeps_take | split | refine keeps_foldl _ ?_ (fun _ _ _ => ?_))) <;> simp (maxDischargeDepth := 100) only [*, keeps_ite, keeps_mk, keepsAs_iff, keeps_modMem, keeps_take]

theorem keeps_doThermalCompare {d₀ : Dev} (d : Dev) (s : Sensors) (h : Keeps d₀ d) :
    Keeps d₀ (doThermalCompare d s) := by
  unfold doThermalCompare; try dsimp only
  (with_reducible (repeat' first | assumption | apply keeps_leave | apply keeps_modPower | apply keeps_readStacks | apply keeps_takeError | split | refine keeps_foldl _ ?_ (fun _ _ _ => ?_))) <;> simp (maxDischargeDepth := 100) only [*, keeps_ite, keeps_mk, keepsAs_iff, keeps_leave, keeps_modPower, keeps_readStacks, keeps_takeError]

theorem keeps_stopLamp {d₀ : Dev} (d : Dev) (h : Keeps d₀ d) :
    Keeps d₀ (Dev.stopLamp d) := by
  unfold Dev.stopLamp; try dsimp only
  (with_reducible (repeat' first | assumption | apply keeps_modLamp | split | refine keeps_foldl _ ?_ (fun _ _ _ => ?_))) <;> simp (maxDischargeDepth := 100) only [*, keeps_ite, keeps_mk, keepsAs_iff, keeps_modLamp]

theorem keeps_doThermalTrip {d₀ : Dev} (d : Dev) (source index : Nat) (s : Sensors) (h : Keeps d₀ d) :
    Keeps d₀ (doThermalTrip d source index s) := by
  unfold doThermalTrip; try dsimp only
  (with_reducible (repeat' first | assumption | apply keeps_modPower | apply keeps_stopLamp | apply keeps_takeError | split | refine keeps_foldl _ ?_ (fun _ _ _ => ?_))) <;> simp (maxDischargeDepth := 100) only [*, keeps_ite, keeps_mk, keepsAs_iff, keeps_modPower, keeps_stopLamp, keeps_takeError]

theorem keeps_doTelemetrySample {d₀ : Dev} (d : Dev) (s : Sensors) (powerMw : Nat) (h : Keeps d₀ d) :
    Keeps d₀ (doTelemetrySample d s powerMw) := by
  unfold doTelemetrySample; try dsimp only
  (with_reducible (repeat' first | assumption | apply keeps_modLamp | apply keeps_modPower | apply keeps_readStacks | apply keeps_useFree | split | refine keeps_foldl _ ?_ (fun _ _ _ => ?_))) <;> simp (maxDischargeDepth := 100) only [*, keeps_ite, keeps_mk, keepsAs_iff, keeps_modLamp, keeps_modPower, keeps_readStacks, keeps_useFree]

/-! ### LampCmd -/

theorem keeps_onLamp {d₀ : Dev} (d : Dev) (c : CmdRef) (f : Entry → Dev) (h : Keeps d₀ d)
    (hf : ∀ e, Keeps d₀ (f e)) :
    Keeps d₀ (d.onLamp c f) := by
  unfold Dev.onLamp; refine keeps_onPacket _ _ _ h (fun e => ?_); split <;> first | exact h | exact hf e

theorem keeps_spendKey {d₀ : Dev} (d : Dev) (h : Keeps d₀ d) :
    Keeps d₀ (Dev.spendKey d).2 := by
  unfold Dev.spendKey; try dsimp only
  (with_reducible (repeat' first | assumption | apply keeps_modLamp | apply keeps_newKey | split | refine keeps_foldl _ ?_ (fun _ _ _ => ?_))) <;> simp (maxDischargeDepth := 100) only [*, keeps_ite, keeps_mk, keepsAs_iff, keeps_modLamp, keeps_newKey]

theorem keeps_doAttestReport {d₀ : Dev} (d : Dev) (c : CmdRef) (h : Keeps d₀ d) :
    Keeps d₀ (doAttestReport d c) := by
  unfold doAttestReport; try dsimp only
  (with_reducible (repeat' first | assumption | refine keeps_onLamp _ _ _ ?_ (fun _ => ?_) | apply keeps_refuse | apply keeps_run | apply keeps_spendKey | split | refine keeps_foldl _ ?_ (fun _ _ _ => ?_))) <;> simp (maxDischargeDepth := 100) only [*, keeps_ite, keeps_mk, keepsAs_iff, keeps_refuse, keeps_run, keeps_spendKey]

theorem keeps_doExtend {d₀ : Dev} (d : Dev) (c : CmdRef) (h : Keeps d₀ d) :
    Keeps d₀ (doExtend d c) := by
  unfold doExtend; try dsimp only
  (with_reducible (repeat' first | assumption | refine keeps_onLamp _ _ _ ?_ (fun _ => ?_) | apply keeps_run | apply keeps_useFree | split | refine keeps_foldl _ ?_ (fun _ _ _ => ?_))) <;> simp (maxDischargeDepth := 100) only [*, keeps_ite, keeps_mk, keepsAs_iff, keeps_run, keeps_useFree]

theorem keeps_doDevrecRead {d₀ : Dev} (d : Dev) (c : CmdRef) (h : Keeps d₀ d) :
    Keeps d₀ (doDevrecRead d c) := by
  unfold doDevrecRead; try dsimp only
  (with_reducible (repeat' first | assumption | refine keeps_onLamp _ _ _ ?_ (fun _ => ?_) | apply keeps_run | split | refine keeps_foldl _ ?_ (fun _ _ _ => ?_))) <;> simp (maxDischargeDepth := 100) only [*, keeps_ite, keeps_mk, keepsAs_iff, keeps_run]

theorem keeps_dropCont {d₀ : Dev} (d : Dev) (c : CmdRef) (h : Keeps d₀ d) :
    Keeps d₀ (Dev.dropCont d c) := by
  unfold Dev.dropCont; try dsimp only
  (with_reducible (repeat' first | assumption | apply keeps_modLamp | split | refine keeps_foldl _ ?_ (fun _ _ _ => ?_))) <;> simp (maxDischargeDepth := 100) only [*, keeps_ite, keeps_mk, keepsAs_iff, keeps_modLamp]

theorem keeps_setCont {d₀ : Dev} (d : Dev) (k : Continuation) (h : Keeps d₀ d) :
    Keeps d₀ (Dev.setCont d k) := by
  unfold Dev.setCont; try dsimp only
  (with_reducible (repeat' first | assumption | apply keeps_dropCont | apply keeps_modLamp | split | refine keeps_foldl _ ?_ (fun _ _ _ => ?_))) <;> simp (maxDischargeDepth := 100) only [*, keeps_ite, keeps_mk, keepsAs_iff, keeps_dropCont, keeps_modLamp]

theorem keeps_contDone {d₀ : Dev} (d : Dev) (k : Continuation) (h : Keeps d₀ d) :
    Keeps d₀ (Dev.contDone d k) := by
  unfold Dev.contDone; try dsimp only
  (with_reducible (repeat' first | assumption | apply keeps_dropCont | apply keeps_run | split | refine keeps_foldl _ ?_ (fun _ _ _ => ?_))) <;> simp (maxDischargeDepth := 100) only [*, keeps_ite, keeps_mk, keepsAs_iff, keeps_dropCont, keeps_run]

theorem keeps_contFails {d₀ : Dev} (d : Dev) (k : Continuation) (h : Keeps d₀ d) :
    Keeps d₀ (Dev.contFails d k) := by
  unfold Dev.contFails; try dsimp only
  (with_reducible (repeat' first | assumption | apply keeps_dropCont | apply keeps_failEntry | split | refine keeps_foldl _ ?_ (fun _ _ _ => ?_))) <;> simp (maxDischargeDepth := 100) only [*, keeps_ite, keeps_mk, keepsAs_iff, keeps_dropCont, keeps_failEntry]

theorem keeps_doSbContinuation {d₀ : Dev} (d : Dev) (port offset : Nat) (data : List Byte) (h : Keeps d₀ d) :
    Keeps d₀ (doSbContinuation d port offset data) := by
  unfold doSbContinuation; try dsimp only
  (with_reducible (repeat' first | assumption | apply keeps_contDone | apply keeps_contFails | apply keeps_setCont | split | refine keeps_foldl _ ?_ (fun _ _ _ => ?_))) <;> simp (maxDischargeDepth := 100) only [*, keeps_ite, keeps_mk, keepsAs_iff, keeps_contDone, keeps_contFails, keeps_setCont]

theorem keeps_doContinuationTimeout {d₀ : Dev} (d : Dev) (h : Keeps d₀ d) :
    Keeps d₀ (doContinuationTimeout d) := by
  unfold doContinuationTimeout; try dsimp only
  (with_reducible (repeat' first | assumption | apply keeps_contFails | split | refine keeps_foldl _ ?_ (fun _ _ _ => ?_))) <;> simp (maxDischargeDepth := 100) only [*, keeps_ite, keeps_mk, keepsAs_iff, keeps_contFails]

theorem keeps_doDevrecInstall {d₀ : Dev} (d : Dev) (c : CmdRef) (h : Keeps d₀ d) :
    Keeps d₀ (doDevrecInstall d c) := by
  unfold doDevrecInstall; try dsimp only
  (with_reducible (repeat' first | assumption | refine keeps_onLamp _ _ _ ?_ (fun _ => ?_) | apply keeps_contDone | apply keeps_run | apply keeps_toStage | split | refine keeps_foldl _ ?_ (fun _ _ _ => ?_))) <;> simp (maxDischargeDepth := 100) only [*, keeps_ite, keeps_mk, keepsAs_iff, keeps_contDone, keeps_run, keeps_toStage]

theorem keeps_latestSample {d₀ : Dev} (d : Dev) (h : Keeps d₀ d) :
    Keeps d₀ (Dev.latestSample d).2 := by
  unfold Dev.latestSample; try dsimp only
  (with_reducible (repeat' first | assumption | split | refine keeps_foldl _ ?_ (fun _ _ _ => ?_))) <;>
      simp (maxDischargeDepth := 100) only [*, keeps_ite, keeps_mk, keepsAs_iff]

theorem keeps_doTelemetry {d₀ : Dev} (d : Dev) (c : CmdRef) (h : Keeps d₀ d) :
    Keeps d₀ (doTelemetry d c) := by
  unfold doTelemetry; try dsimp only
  (with_reducible (repeat' first | assumption | refine keeps_onLamp _ _ _ ?_ (fun _ => ?_) | apply keeps_latestSample | apply keeps_run | split | refine keeps_foldl _ ?_ (fun _ _ _ => ?_))) <;> simp (maxDischargeDepth := 100) only [*, keeps_ite, keeps_mk, keepsAs_iff, keeps_latestSample, keeps_run]

theorem keeps_doErrqRead {d₀ : Dev} (d : Dev) (c : CmdRef) (h : Keeps d₀ d) :
    Keeps d₀ (doErrqRead d c) := by
  unfold doErrqRead; try dsimp only
  (with_reducible (repeat' first | assumption | refine keeps_onLamp _ _ _ ?_ (fun _ => ?_) | apply keeps_run | split | refine keeps_foldl _ ?_ (fun _ _ _ => ?_))) <;> simp (maxDischargeDepth := 100) only [*, keeps_ite, keeps_mk, keepsAs_iff, keeps_run]

theorem keeps_doPowerCap {d₀ : Dev} (d : Dev) (c : CmdRef) (h : Keeps d₀ d) :
    Keeps d₀ (doPowerCap d c) := by
  unfold doPowerCap; try dsimp only
  (with_reducible (repeat' first | assumption | refine keeps_onLamp _ _ _ ?_ (fun _ => ?_) | apply keeps_run | split | refine keeps_foldl _ ?_ (fun _ _ _ => ?_))) <;> simp (maxDischargeDepth := 100) only [*, keeps_ite, keeps_mk, keepsAs_iff, keeps_run]

theorem keeps_appendGranules {d₀ : Dev} (d : Dev) (n : Nat) (b : List Byte) (h : Keeps d₀ d) :
    Keeps d₀ (Dev.appendGranules d n b) := by
  unfold Dev.appendGranules; try dsimp only
  (with_reducible (repeat' first | assumption | apply keeps_modQueue | apply keeps_putRing | split | refine keeps_foldl _ ?_ (fun _ _ _ => ?_))) <;> simp (maxDischargeDepth := 100) only [*, keeps_ite, keeps_mk, keepsAs_iff, keeps_modQueue, keeps_putRing]

theorem keeps_doSbCommandPacket {d₀ : Dev} (d : Dev) (src : SbEnd) (packet : List Byte) (h : Keeps d₀ d) :
    Keeps d₀ (doSbCommandPacket d src packet) := by
  unfold doSbCommandPacket; try dsimp only
  (with_reducible (repeat' first | assumption | apply keeps_appendGranules | apply keeps_modLamp | apply keeps_modQueue | split | refine keeps_foldl _ ?_ (fun _ _ _ => ?_))) <;> simp (maxDischargeDepth := 100) only [*, keeps_ite, keeps_mk, keepsAs_iff, keeps_appendGranules, keeps_modLamp, keeps_modQueue]

theorem keeps_doGetVendor {d₀ : Dev} (d : Dev) (src : SbEnd) (h : Keeps d₀ d) :
    Keeps d₀ (doGetVendor d src) := by
  unfold doGetVendor; try dsimp only
  (with_reducible (repeat' first | assumption | apply keeps_sbSend | split | refine keeps_foldl _ ?_ (fun _ _ _ => ?_))) <;> simp (maxDischargeDepth := 100) only [*, keeps_ite, keeps_mk, keepsAs_iff, keeps_sbSend]

end Sys2Proof.Machine
end

