-- ==== Sys2Proof/Laws/KeepsCommands.lean ====
section
/-! SUPPORT. What `Keeps` says of the functions of submission, the schedule, pilots and the registers: one lemma each. -/

set_option linter.all false

namespace Sys2Proof.Machine

/-! ### Submit -/

theorem keeps_doSubmissionDoorbell {d₀ : Dev} (d : Dev) (head value : Nat) (h : Keeps d₀ d) :
    Keeps d₀ (doSubmissionDoorbell d head value) := by
  unfold doSubmissionDoorbell; try dsimp only
  (with_reducible (repeat' first | assumption | apply keeps_doorbell | split | refine keeps_foldl _ ?_ (fun _ _ _ => ?_))) <;> simp (maxDischargeDepth := 100) only [*, keeps_ite, keeps_mk, keepsAs_iff, keeps_doorbell]

theorem keeps_doCompletionDoorbell {d₀ : Dev} (d : Dev) (head value : Nat) (h : Keeps d₀ d) :
    Keeps d₀ (doCompletionDoorbell d head value) := by
  unfold doCompletionDoorbell; try dsimp only
  (with_reducible (repeat' first | assumption | apply keeps_doorbell | split | refine keeps_foldl _ ?_ (fun _ _ _ => ?_))) <;> simp (maxDischargeDepth := 100) only [*, keeps_ite, keeps_mk, keepsAs_iff, keeps_doorbell]

theorem keeps_worstCase {d₀ : Dev} (d : Dev) (p : Payload) (h : Keeps d₀ d) :
    Keeps d₀ (Dev.worstCase d p).2 := by
  unfold Dev.worstCase; try dsimp only
  (with_reducible (repeat' first | assumption | apply keeps_useFree | split | refine keeps_foldl _ ?_ (fun _ _ _ => ?_))) <;> simp (maxDischargeDepth := 100) only [*, keeps_ite, keeps_mk, keepsAs_iff, keeps_useFree]

theorem keeps_accept {d₀ : Dev} (d : Dev) (q : Nat) (f : Fetched) (h : Keeps d₀ d) :
    Keeps d₀ (Dev.accept d q f) := by
  unfold Dev.accept; try dsimp only
  (with_reducible (repeat' first | assumption | apply keeps_take | apply keeps_worstCase | split | refine keeps_foldl _ ?_ (fun _ _ _ => ?_))) <;> simp (maxDischargeDepth := 100) only [*, keeps_ite, keeps_mk, keepsAs_iff, keeps_take, keeps_worstCase]

theorem keeps_doSubmission {d₀ : Dev} (d : Dev) (q : Nat) (h : Keeps d₀ d) :
    Keeps d₀ (doSubmission d q) := by
  unfold doSubmission; try dsimp only
  (with_reducible (repeat' first | assumption | apply keeps_accept | apply keeps_take | split | refine keeps_foldl _ ?_ (fun _ _ _ => ?_))) <;> simp (maxDischargeDepth := 100) only [*, keeps_ite, keeps_mk, keepsAs_iff, keeps_accept, keeps_take]

/-! ### Schedule -/

theorem keeps_setPtag {d₀ : Dev} (d : Dev) (g p v : Nat) (h : Keeps d₀ d) :
    Keeps d₀ (Dev.setPtag d g p v) := by
  unfold Dev.setPtag; try dsimp only
  (with_reducible (repeat' first | assumption | split | refine keeps_foldl _ ?_ (fun _ _ _ => ?_))) <;>
      simp (maxDischargeDepth := 100) only [*, keeps_ite, keeps_mk, keepsAs_iff]

theorem keeps_setQtag {d₀ : Dev} (d : Dev) (g q v : Nat) (h : Keeps d₀ d) :
    Keeps d₀ (Dev.setQtag d g q v) := by
  unfold Dev.setQtag; try dsimp only
  (with_reducible (repeat' first | assumption | apply keeps_modQueue | split | refine keeps_foldl _ ?_ (fun _ _ _ => ?_))) <;> simp (maxDischargeDepth := 100) only [*, keeps_ite, keeps_mk, keepsAs_iff, keeps_modQueue]

theorem keeps_advanceTags {d₀ : Dev} (d : Dev) (g : Nat) (rivals : List (Nat × Nat × Entry)) (q : Nat) (e : Entry) (h : Keeps d₀ d) :
    Keeps d₀ (Dev.advanceTags d g rivals q e) := by
  unfold Dev.advanceTags; try dsimp only
  (with_reducible (repeat' first | assumption | apply keeps_setPtag | apply keeps_setQtag | split | refine keeps_foldl _ ?_ (fun _ _ _ => ?_))) <;> simp (maxDischargeDepth := 100) only [*, keeps_ite, keeps_mk, keepsAs_iff, keeps_setPtag, keeps_setQtag]

theorem keeps_leaveQueue {d₀ : Dev} (d : Dev) (q : Nat) (e : Entry) (h : Keeps d₀ d) :
    Keeps d₀ (Dev.leaveQueue d q e) := by
  unfold Dev.leaveQueue; try dsimp only
  (with_reducible (repeat' first | assumption | apply keeps_account | apply keeps_modEntry | apply keeps_modQueue | split | refine keeps_foldl _ ?_ (fun _ _ _ => ?_))) <;> simp (maxDischargeDepth := 100) only [*, keeps_ite, keeps_mk, keepsAs_iff, keeps_account, keeps_modEntry, keeps_modQueue]

theorem keeps_doDispatch {d₀ : Dev} (d : Dev) (q : Nat) (h : Keeps d₀ d) :
    Keeps d₀ (doDispatch d q) := by
  unfold doDispatch; try dsimp only
  (with_reducible (repeat' first | assumption | apply keeps_advanceTags | apply keeps_leaveQueue | split | refine keeps_foldl _ ?_ (fun _ _ _ => ?_))) <;> simp (maxDischargeDepth := 100) only [*, keeps_ite, keeps_mk, keepsAs_iff, keeps_advanceTags, keeps_leaveQueue]

theorem keeps_doWaitTimeout {d₀ : Dev} (d : Dev) (q : Nat) (h : Keeps d₀ d) :
    Keeps d₀ (doWaitTimeout d q) := by
  unfold doWaitTimeout; try dsimp only
  (with_reducible (repeat' first | assumption | apply keeps_modEntry | apply keeps_modQueue | split | refine keeps_foldl _ ?_ (fun _ _ _ => ?_))) <;> simp (maxDischargeDepth := 100) only [*, keeps_ite, keeps_mk, keepsAs_iff, keeps_modEntry, keeps_modQueue]

theorem keeps_markHeads {d₀ : Dev} (d : Dev) (h : Keeps d₀ d) :
    Keeps d₀ (Dev.markHeads d) := by
  unfold Dev.markHeads; try dsimp only
  (with_reducible (repeat' first | assumption | split | refine keeps_foldl _ ?_ (fun _ _ _ => ?_))) <;>
      simp (maxDischargeDepth := 100) only [*, keeps_ite, keeps_mk, keepsAs_iff]

theorem keeps_markLapsed {d₀ : Dev} (d : Dev) (h : Keeps d₀ d) :
    Keeps d₀ (Dev.markLapsed d) := by
  unfold Dev.markLapsed; try dsimp only
  (with_reducible (repeat' first | assumption | apply keeps_modEntry | split | refine keeps_foldl _ ?_ (fun _ _ _ => ?_))) <;> simp (maxDischargeDepth := 100) only [*, keeps_ite, keeps_mk, keepsAs_iff, keeps_modEntry]

/-! ### Pilot -/

theorem keeps_chargePilots {d₀ : Dev} (d : Dev) (sp n : Nat) (h : Keeps d₀ d) :
    Keeps d₀ (Dev.chargePilots d sp n) := by
  unfold Dev.chargePilots; try dsimp only
  (with_reducible (repeat' first | assumption | apply keeps_modPart | split | refine keeps_foldl _ ?_ (fun _ _ _ => ?_))) <;> simp (maxDischargeDepth := 100) only [*, keeps_ite, keeps_mk, keepsAs_iff, keeps_modPart]

theorem keeps_doPilotWindow {d₀ : Dev} (d : Dev) (sp slots : Nat) (bubble : Bool) (h : Keeps d₀ d) :
    Keeps d₀ (doPilotWindow d sp slots bubble) := by
  unfold doPilotWindow; try dsimp only
  (with_reducible (repeat' first | assumption | apply keeps_chargePilots | apply keeps_setSpin | split | refine keeps_foldl _ ?_ (fun _ _ _ => ?_))) <;> simp (maxDischargeDepth := 100) only [*, keeps_ite, keeps_mk, keepsAs_iff, keeps_chargePilots, keeps_setSpin]

theorem keeps_doPilotRamp {d₀ : Dev} (d : Dev) (sp : Nat) (h : Keeps d₀ d) :
    Keeps d₀ (doPilotRamp d sp) := by
  unfold doPilotRamp; try dsimp only
  (with_reducible (repeat' first | assumption | apply keeps_setSpin | split | refine keeps_foldl _ ?_ (fun _ _ _ => ?_))) <;> simp (maxDischargeDepth := 100) only [*, keeps_ite, keeps_mk, keepsAs_iff, keeps_setSpin]

theorem keeps_doPilotCfgWrite {d₀ : Dev} (d : Dev) (sp w : Nat) (h : Keeps d₀ d) :
    Keeps d₀ (doPilotCfgWrite d sp w) := by
  unfold doPilotCfgWrite; try dsimp only
  (with_reducible (repeat' first | assumption | apply keeps_modSpin | split | refine keeps_foldl _ ?_ (fun _ _ _ => ?_))) <;> simp (maxDischargeDepth := 100) only [*, keeps_ite, keeps_mk, keepsAs_iff, keeps_modSpin]

/-! ### RegRead -/

theorem keeps_modPath {d₀ : Dev} (d : Dev) (p : Path) (f : PathRegs → PathRegs) (h : Keeps d₀ d) : Keeps d₀ (d.modPath p f) := by
  exact ⟨h.1, h.2.1, h.2.2.1, fun w => let u := h.2.2.2 w; ⟨u.1, u.2.1, u.2.2.1, tblWf_tput _ _ u.2.2.2⟩⟩

theorem keeps_reportDown {d₀ : Dev} (d : Dev) (e : ErrorInfo) (h : Keeps d₀ d) :
    Keeps d₀ (Dev.reportDown d e) := by
  unfold Dev.reportDown; try dsimp only
  (with_reducible (repeat' first | assumption | apply keeps_due | apply keeps_modLamp | split | refine keeps_foldl _ ?_ (fun _ _ _ => ?_))) <;> simp (maxDischargeDepth := 100) only [*, keeps_ite, keeps_mk, keepsAs_iff, keeps_due, keeps_modLamp]

theorem keeps_readUp {d₀ : Dev} (d : Dev) (p : Path) (off : Nat) (h : Keeps d₀ d) :
    Keeps d₀ (Dev.readUp d p off).2 := by
  unfold Dev.readUp; try dsimp only
  (with_reducible (repeat' first | assumption | apply keeps_modPath | split | refine keeps_foldl _ ?_ (fun _ _ _ => ?_))) <;> simp (maxDischargeDepth := 100) only [*, keeps_ite, keeps_mk, keepsAs_iff, keeps_modPath]

theorem keeps_readReg {d₀ : Dev} (d : Dev) (p : Path) (off : Nat) (h : Keeps d₀ d) :
    Keeps d₀ (Dev.readReg d p off).2 := by
  unfold Dev.readReg; try dsimp only
  (with_reducible (repeat' first | assumption | apply keeps_readUp | apply keeps_reportDown | split | refine keeps_foldl _ ?_ (fun _ _ _ => ?_))) <;> simp (maxDischargeDepth := 100) only [*, keeps_ite, keeps_mk, keepsAs_iff, keeps_readUp, keeps_reportDown]

theorem keeps_setRead {d₀ : Dev} (d : Dev) (data : List Byte) (poisoned : Bool) (h : Keeps d₀ d) :
    Keeps d₀ (Dev.setRead d data poisoned) := by
  unfold Dev.setRead; try dsimp only
  (with_reducible (repeat' first | assumption | apply keeps_modLinks | split | refine keeps_foldl _ ?_ (fun _ _ _ => ?_))) <;> simp (maxDischargeDepth := 100) only [*, keeps_ite, keeps_mk, keepsAs_iff, keeps_modLinks]

theorem keeps_readFor {d₀ : Dev} (d : Dev) (p : Path) (off : Nat) (h : Keeps d₀ d) :
    Keeps d₀ (Dev.readFor d p off) := by
  unfold Dev.readFor; try dsimp only
  (with_reducible (repeat' first | assumption | apply keeps_readReg | apply keeps_setRead | split | refine keeps_foldl _ ?_ (fun _ _ _ => ?_))) <;> simp (maxDischargeDepth := 100) only [*, keeps_ite, keeps_mk, keepsAs_iff, keeps_readReg, keeps_setRead]

theorem keeps_readPair {d₀ : Dev} (d : Dev) (off : Nat) (h : Keeps d₀ d) :
    Keeps d₀ (Dev.readPair d off) := by
  unfold Dev.readPair; try dsimp only
  (with_reducible (repeat' first | assumption | apply keeps_readReg | apply keeps_setRead | split | refine keeps_foldl _ ?_ (fun _ _ _ => ?_))) <;> simp (maxDischargeDepth := 100) only [*, keeps_ite, keeps_mk, keepsAs_iff, keeps_readReg, keeps_setRead]

theorem keeps_readCount {d₀ : Dev} (d : Dev) (p : Path) (off : Nat) (wide : Bool) (h : Keeps d₀ d) :
    Keeps d₀ (Dev.readCount d p off wide) := by
  unfold Dev.readCount; try dsimp only
  (with_reducible (repeat' first | assumption | apply keeps_readFor | apply keeps_readPair | split | refine keeps_foldl _ ?_ (fun _ _ _ => ?_))) <;> simp (maxDischargeDepth := 100) only [*, keeps_ite, keeps_mk, keepsAs_iff, keeps_readFor, keeps_readPair]

theorem keeps_doTickLoRead {d₀ : Dev} (d : Dev) (p : Path) (wide : Bool) (h : Keeps d₀ d) :
    Keeps d₀ (doTickLoRead d p wide) := by
  unfold doTickLoRead; try dsimp only
  (with_reducible (repeat' first | assumption | apply keeps_readCount | split | refine keeps_foldl _ ?_ (fun _ _ _ => ?_))) <;> simp (maxDischargeDepth := 100) only [*, keeps_ite, keeps_mk, keepsAs_iff, keeps_readCount]

theorem keeps_doTokenLoRead {d₀ : Dev} (d : Dev) (p : Path) (h : Keeps d₀ d) :
    Keeps d₀ (doTokenLoRead d p) := by
  unfold doTokenLoRead; try dsimp only
  (with_reducible (repeat' first | assumption | apply keeps_readFor | split | refine keeps_foldl _ ?_ (fun _ _ _ => ?_))) <;> simp (maxDischargeDepth := 100) only [*, keeps_ite, keeps_mk, keepsAs_iff, keeps_readFor]

theorem keeps_doCounterLoRead {d₀ : Dev} (d : Dev) (p : Path) (c : Counter) (wide : Bool) (h : Keeps d₀ d) :
    Keeps d₀ (doCounterLoRead d p c wide) := by
  unfold doCounterLoRead; try dsimp only
  (with_reducible (repeat' first | assumption | apply keeps_readCount | split | refine keeps_foldl _ ?_ (fun _ _ _ => ?_))) <;> simp (maxDischargeDepth := 100) only [*, keeps_ite, keeps_mk, keepsAs_iff, keeps_readCount]

theorem keeps_doDownAccessRead {d₀ : Dev} (d : Dev) (p : Path) (off : Nat) (h : Keeps d₀ d) :
    Keeps d₀ (doDownAccessRead d p off) := by
  unfold doDownAccessRead; try dsimp only
  (with_reducible (repeat' first | assumption | apply keeps_readFor | split | refine keeps_foldl _ ?_ (fun _ _ _ => ?_))) <;> simp (maxDischargeDepth := 100) only [*, keeps_ite, keeps_mk, keepsAs_iff, keeps_readFor]

/-! ### RegWrite -/

theorem keeps_writeSpn {d₀ : Dev} (d : Dev) (sp o v : Nat) (h : Keeps d₀ d) :
    Keeps d₀ (Dev.writeSpn d sp o v) := by
  unfold Dev.writeSpn; try dsimp only
  (with_reducible (repeat' first | assumption | apply keeps_doPilotCfgWrite | split | refine keeps_foldl _ ?_ (fun _ _ _ => ?_))) <;> simp (maxDischargeDepth := 100) only [*, keeps_ite, keeps_mk, keepsAs_iff, keeps_doPilotCfgWrite]

theorem keeps_writeVec {d₀ : Dev} (d : Dev) (sp o v : Nat) (h : Keeps d₀ d) :
    Keeps d₀ (Dev.writeVec d sp o v) := by
  unfold Dev.writeVec; try dsimp only
  (with_reducible (repeat' first | assumption | apply keeps_modSpin | split | refine keeps_foldl _ ?_ (fun _ _ _ => ?_))) <;> simp (maxDischargeDepth := 100) only [*, keeps_ite, keeps_mk, keepsAs_iff, keeps_modSpin]

theorem keeps_writeSkeinQuota {d₀ : Dev} (d : Dev) (n v : Nat) (h : Keeps d₀ d) :
    Keeps d₀ (Dev.writeSkeinQuota d n v) := by
  unfold Dev.writeSkeinQuota; try dsimp only
  (with_reducible (repeat' first | assumption | apply keeps_modMem | apply keeps_modPart | split | refine keeps_foldl _ ?_ (fun _ _ _ => ?_))) <;> simp (maxDischargeDepth := 100) only [*, keeps_ite, keeps_mk, keepsAs_iff, keeps_modMem, keeps_modPart]

theorem keeps_clearDamaged {d₀ : Dev} (d : Dev) (r : Nat) (h : Keeps d₀ d) :
    Keeps d₀ (Dev.clearDamaged d r) := by
  unfold Dev.clearDamaged; try dsimp only
  (with_reducible (repeat' first | assumption | apply keeps_modMem | split | refine keeps_foldl _ ?_ (fun _ _ _ => ?_))) <;> simp (maxDischargeDepth := 100) only [*, keeps_ite, keeps_mk, keepsAs_iff, keeps_modMem]

theorem writeEcc_bytes (m : Mem) (v : Nat) : (m.writeEcc v).bytes = m.bytes := rfl
theorem writeEcc_host (m : Mem) (v : Nat) : (m.writeEcc v).host = m.host := rfl

theorem keeps_writeSkn {d₀ : Dev} (d : Dev) (p : Path) (o v : Nat) (h : Keeps d₀ d) :
    Keeps d₀ (Dev.writeSkn d p o v) := by
  unfold Dev.writeSkn; try dsimp only
  (with_reducible (repeat' first | assumption | apply keeps_clearDamaged | apply keeps_modMem | apply keeps_modPart | apply keeps_modPath | apply keeps_writeSkeinQuota | split | refine keeps_foldl _ ?_ (fun _ _ _ => ?_))) <;> simp (maxDischargeDepth := 100) only [*, keeps_ite, keeps_mk, keepsAs_iff, keeps_clearDamaged, keeps_modMem, keeps_modPart, keeps_modPath, keeps_writeSkeinQuota, noteUe_bytes, noteUe_host, writeEcc_bytes, writeEcc_host]

theorem keeps_writeRqt {d₀ : Dev} (d : Dev) (p : Path) (o v : Nat) (h : Keeps d₀ d) :
    Keeps d₀ (Dev.writeRqt d p o v) := by
  unfold Dev.writeRqt; try dsimp only
  (with_reducible (repeat' first | assumption | apply keeps_modPath | split | refine keeps_foldl _ ?_ (fun _ _ _ => ?_))) <;> simp (maxDischargeDepth := 100) only [*, keeps_ite, keeps_mk, keepsAs_iff, keeps_modPath]

theorem keeps_writeTrd {d₀ : Dev} (d : Dev) (die o v : Nat) (h : Keeps d₀ d) :
    Keeps d₀ (Dev.writeTrd d die o v) := by
  unfold Dev.writeTrd; try dsimp only
  (with_reducible (repeat' first | assumption | apply keeps_modTreadle | split | refine keeps_foldl _ ?_ (fun _ _ _ => ?_))) <;> simp (maxDischargeDepth := 100) only [*, keeps_ite, keeps_mk, keepsAs_iff, keeps_modTreadle]

theorem keeps_writeLnk {d₀ : Dev} (d : Dev) (p : Path) (die o v : Nat) (h : Keeps d₀ d) :
    Keeps d₀ (Dev.writeLnk d p die o v) := by
  unfold Dev.writeLnk; try dsimp only
  (with_reducible (repeat' first | assumption | apply keeps_modLinks | apply keeps_modPath | apply keeps_modPort | apply keeps_writeDevNum | apply keeps_writePortCtl | split | refine keeps_foldl _ ?_ (fun _ _ _ => ?_))) <;> simp (maxDischargeDepth := 100) only [*, keeps_ite, keeps_mk, keepsAs_iff, keeps_modLinks, keeps_modPath, keeps_modPort, keeps_writeDevNum, keeps_writePortCtl]

theorem keeps_writePwr {d₀ : Dev} (d : Dev) (o v : Nat) (h : Keeps d₀ d) :
    Keeps d₀ (Dev.writePwr d o v) := by
  unfold Dev.writePwr; try dsimp only
  (with_reducible (repeat' first | assumption | apply keeps_modPower | split | refine keeps_foldl _ ?_ (fun _ _ _ => ?_))) <;> simp (maxDischargeDepth := 100) only [*, keeps_ite, keeps_mk, keepsAs_iff, keeps_modPower]

theorem keeps_restart {d₀ : Dev} (d : Dev) (h : Keeps d₀ d) :
    Keeps d₀ (Dev.restart d) := by
  unfold Dev.restart; try dsimp only
  (with_reducible (repeat' first | assumption | apply keeps_bootFrom1 | split | refine keeps_foldl _ ?_ (fun _ _ _ => ?_))) <;> simp (maxDischargeDepth := 100) only [*, keeps_ite, keeps_mk, keepsAs_iff, keeps_bootFrom1]

theorem keeps_programSlotB {d₀ : Dev} (d : Dev) (v : Nat) (h : Keeps d₀ d) :
    Keeps d₀ (Dev.programSlotB d v) := by
  unfold Dev.programSlotB; try dsimp only
  (with_reducible (repeat' first | assumption | apply keeps_modLamp | split | refine keeps_foldl _ ?_ (fun _ _ _ => ?_))) <;> simp (maxDischargeDepth := 100) only [*, keeps_ite, keeps_mk, keepsAs_iff, keeps_modLamp]

theorem keeps_writeLmp {d₀ : Dev} (d : Dev) (p : Path) (o v : Nat) (h : Keeps d₀ d) :
    Keeps d₀ (Dev.writeLmp d p o v) := by
  unfold Dev.writeLmp; try dsimp only
  (with_reducible (repeat' first | assumption | apply keeps_modLamp | apply keeps_modPath | apply keeps_programSlotB | apply keeps_restart | split | refine keeps_foldl _ ?_ (fun _ _ _ => ?_))) <;> simp (maxDischargeDepth := 100) only [*, keeps_ite, keeps_mk, keepsAs_iff, keeps_modLamp, keeps_modPath, keeps_programSlotB, keeps_restart]

theorem keeps_writeUp {d₀ : Dev} (d : Dev) (p : Path) (off v : Nat) (h : Keeps d₀ d) :
    Keeps d₀ (Dev.writeUp d p off v) := by
  unfold Dev.writeUp; try dsimp only
  (with_reducible (repeat' first | assumption | apply keeps_writeLmp | apply keeps_writeLnk | apply keeps_writePwr | apply keeps_writeRqt | apply keeps_writeSkn | apply keeps_writeSpn | apply keeps_writeTrd | apply keeps_writeVec | split | refine keeps_foldl _ ?_ (fun _ _ _ => ?_))) <;> simp (maxDischargeDepth := 100) only [*, keeps_ite, keeps_mk, keepsAs_iff, keeps_writeLmp, keeps_writeLnk, keeps_writePwr, keeps_writeRqt, keeps_writeSkn, keeps_writeSpn, keeps_writeTrd, keeps_writeVec]

theorem keeps_writeReg {d₀ : Dev} (d : Dev) (p : Path) (off v : Nat) (h : Keeps d₀ d) :
    Keeps d₀ (Dev.writeReg d p off v) := by
  unfold Dev.writeReg; try dsimp only
  (with_reducible (repeat' first | assumption | apply keeps_reportDown | apply keeps_writeUp | split | refine keeps_foldl _ ?_ (fun _ _ _ => ?_))) <;> simp (maxDischargeDepth := 100) only [*, keeps_ite, keeps_mk, keepsAs_iff, keeps_reportDown, keeps_writeUp]

theorem keeps_doRegisterWrite {d₀ : Dev} (d : Dev) (p : Path) (off : Nat) (v : Word) (h : Keeps d₀ d) :
    Keeps d₀ (doRegisterWrite d p off v) := by
  unfold doRegisterWrite; try dsimp only
  (with_reducible (repeat' first | assumption | apply keeps_writeReg | split | refine keeps_foldl _ ?_ (fun _ _ _ => ?_))) <;> simp (maxDischargeDepth := 100) only [*, keeps_ite, keeps_mk, keepsAs_iff, keeps_writeReg]

theorem keeps_doSknQuotaWrite {d₀ : Dev} (d : Dev) (p : Path) (part kind : Nat) (v : Word) (h : Keeps d₀ d) :
    Keeps d₀ (doSknQuotaWrite d p part kind v) := by
  unfold doSknQuotaWrite; try dsimp only
  (with_reducible (repeat' first | assumption | apply keeps_writeReg | split | refine keeps_foldl _ ?_ (fun _ _ _ => ?_))) <;> simp (maxDischargeDepth := 100) only [*, keeps_ite, keeps_mk, keepsAs_iff, keeps_writeReg]

theorem keeps_doCeClr {d₀ : Dev} (d : Dev) (p : Path) (h : Keeps d₀ d) :
    Keeps d₀ (doCeClr d p) := by
  unfold doCeClr; try dsimp only
  (with_reducible (repeat' first | assumption | apply keeps_writeReg | split | refine keeps_foldl _ ?_ (fun _ _ _ => ?_))) <;> simp (maxDischargeDepth := 100) only [*, keeps_ite, keeps_mk, keepsAs_iff, keeps_writeReg]

theorem keeps_doPilotWrite {d₀ : Dev} (d : Dev) (p : Path) (sp : Nat) (v : Word) (h : Keeps d₀ d) :
    Keeps d₀ (doPilotWrite d p sp v) := by
  unfold doPilotWrite; try dsimp only
  (with_reducible (repeat' first | assumption | apply keeps_writeReg | split | refine keeps_foldl _ ?_ (fun _ _ _ => ?_))) <;> simp (maxDischargeDepth := 100) only [*, keeps_ite, keeps_mk, keepsAs_iff, keeps_writeReg]

theorem keeps_doDevNumWrite {d₀ : Dev} (d : Dev) (p : Path) (v : Word) (h : Keeps d₀ d) :
    Keeps d₀ (doDevNumWrite d p v) := by
  unfold doDevNumWrite; try dsimp only
  (with_reducible (repeat' first | assumption | apply keeps_writeReg | split | refine keeps_foldl _ ?_ (fun _ _ _ => ?_))) <;> simp (maxDischargeDepth := 100) only [*, keeps_ite, keeps_mk, keepsAs_iff, keeps_writeReg]

theorem keeps_doPortEnableWrite {d₀ : Dev} (d : Dev) (p : Path) (port : Nat) (v : Word) (h : Keeps d₀ d) :
    Keeps d₀ (doPortEnableWrite d p port v) := by
  unfold doPortEnableWrite; try dsimp only
  (with_reducible (repeat' first | assumption | apply keeps_writeReg | split | refine keeps_foldl _ ?_ (fun _ _ _ => ?_))) <;> simp (maxDischargeDepth := 100) only [*, keeps_ite, keeps_mk, keepsAs_iff, keeps_writeReg]

theorem keeps_doRestart {d₀ : Dev} (d : Dev) (p : Path) (h : Keeps d₀ d) :
    Keeps d₀ (doRestart d p) := by
  unfold doRestart; try dsimp only
  (with_reducible (repeat' first | assumption | apply keeps_writeReg | split | refine keeps_foldl _ ?_ (fun _ _ _ => ?_))) <;> simp (maxDischargeDepth := 100) only [*, keeps_ite, keeps_mk, keepsAs_iff, keeps_writeReg]

theorem keeps_doRecoveryDataWrite {d₀ : Dev} (d : Dev) (p : Path) (v : Word) (h : Keeps d₀ d) :
    Keeps d₀ (doRecoveryDataWrite d p v) := by
  unfold doRecoveryDataWrite; try dsimp only
  (with_reducible (repeat' first | assumption | apply keeps_writeReg | split | refine keeps_foldl _ ?_ (fun _ _ _ => ?_))) <;> simp (maxDischargeDepth := 100) only [*, keeps_ite, keeps_mk, keepsAs_iff, keeps_writeReg]

theorem keeps_sbMemRead {d₀ : Dev} (d : Dev) (a : Nat) (h : Keeps d₀ d) :
    Keeps d₀ (Dev.sbMemRead d a).2 := by
  unfold Dev.sbMemRead; try dsimp only
  (with_reducible (repeat' first | assumption | apply keeps_correctAll | apply keeps_due | apply keeps_meetUe | apply keeps_useFree | split | refine keeps_foldl _ ?_ (fun _ _ _ => ?_))) <;> simp (maxDischargeDepth := 100) only [*, keeps_ite, keeps_mk, keepsAs_iff, keeps_correctAll, keeps_due, keeps_meetUe, keeps_useFree, noteUe_bytes, noteUe_host, writeEcc_bytes, writeEcc_host]

theorem keeps_sbReadWord {d₀ : Dev} (d : Dev) (port a : Nat) (h : Keeps d₀ d) :
    Keeps d₀ (Dev.sbReadWord d port a).2 := by
  unfold Dev.sbReadWord; try dsimp only
  (with_reducible (repeat' first | assumption | apply keeps_readReg | apply keeps_sbMemRead | split | refine keeps_foldl _ ?_ (fun _ _ _ => ?_))) <;> simp (maxDischargeDepth := 100) only [*, keeps_ite, keeps_mk, keepsAs_iff, keeps_readReg, keeps_sbMemRead]

theorem keeps_doSbRegisterRead {d₀ : Dev} (d : Dev) (src : SbEnd) (tag addr words : Nat) (h : Keeps d₀ d) : Keeps d₀ (doSbRegisterRead d src tag addr words) := by
  unfold doSbRegisterRead; (repeat' split)
  · exact h
  · exact keeps_sbSend _ _ _ h
  · exact keeps_sbSend _ _ _ (keeps_fold_snd _ h (fun x i hx => keeps_sbReadWord _ _ _ hx))

theorem keeps_sbMemWrite {d₀ : Dev} (d : Dev) (a : Nat) (data : List Byte) (h : Keeps d₀ d) :
    Keeps d₀ (Dev.sbMemWrite d a data).2 := by
  unfold Dev.sbMemWrite; try dsimp only
  (with_reducible (repeat' first | assumption | apply keeps_due | apply keeps_meetUe | apply keeps_poke | split | refine keeps_foldl _ ?_ (fun _ _ _ => ?_))) <;> simp (maxDischargeDepth := 100) only [*, keeps_ite, keeps_mk, keepsAs_iff, keeps_due, keeps_meetUe, keeps_poke, noteUe_bytes, noteUe_host, writeEcc_bytes, writeEcc_host]

theorem keeps_doSbRegisterWrite {d₀ : Dev} (d : Dev) (src : SbEnd) (tag addr : Nat) (v : Word) (h : Keeps d₀ d) :
    Keeps d₀ (doSbRegisterWrite d src tag addr v) := by
  unfold doSbRegisterWrite; try dsimp only
  (with_reducible (repeat' first | assumption | apply keeps_sbMemWrite | apply keeps_sbSend | apply keeps_writeReg | split | refine keeps_foldl _ ?_ (fun _ _ _ => ?_))) <;> simp (maxDischargeDepth := 100) only [*, keeps_ite, keeps_mk, keepsAs_iff, keeps_sbMemWrite, keeps_sbSend, keeps_writeReg]

theorem keeps_ringUe {d₀ : Dev} (d : Dev) (q pa : Nat) (h : Keeps d₀ d) :
    Keeps d₀ (Dev.ringUe d q pa) := by
  unfold Dev.ringUe; try dsimp only
  (with_reducible (repeat' first | assumption | apply keeps_due | apply keeps_modLinks | apply keeps_modMem | split | refine keeps_foldl _ ?_ (fun _ _ _ => ?_))) <;> simp (maxDischargeDepth := 100) only [*, keeps_ite, keeps_mk, keepsAs_iff, keeps_due, keeps_modLinks, keeps_modMem, noteUe_bytes, noteUe_host, writeEcc_bytes, writeEcc_host]

theorem keeps_windowRead {d₀ : Dev} (d : Dev) (q off n : Nat) (h : Keeps d₀ d) :
    Keeps d₀ (Dev.windowRead d q off n) := by
  unfold Dev.windowRead; try dsimp only
  (with_reducible (repeat' first | assumption | apply keeps_correctAll | apply keeps_ringUe | apply keeps_setRead | apply keeps_useFree | split | refine keeps_foldl _ ?_ (fun _ _ _ => ?_))) <;> simp (maxDischargeDepth := 100) only [*, keeps_ite, keeps_mk, keepsAs_iff, keeps_correctAll, keeps_ringUe, keeps_setRead, keeps_useFree]

theorem keeps_windowWrite {d₀ : Dev} (d : Dev) (q off : Nat) (data : List Byte) (h : Keeps d₀ d) :
    Keeps d₀ (Dev.windowWrite d q off data) := by
  unfold Dev.windowWrite; try dsimp only
  (with_reducible (repeat' first | assumption | apply keeps_poke | apply keeps_ringUe | split | refine keeps_foldl _ ?_ (fun _ _ _ => ?_))) <;> simp (maxDischargeDepth := 100) only [*, keeps_ite, keeps_mk, keepsAs_iff, keeps_poke, keeps_ringUe]

theorem keeps_doQueueWindow {d₀ : Dev} (d : Dev) (q off len : Nat) (write : Option (List Byte)) (h : Keeps d₀ d) :
    Keeps d₀ (doQueueWindow d q off len write) := by
  unfold doQueueWindow; try dsimp only
  (with_reducible (repeat' first | assumption | apply keeps_windowRead | apply keeps_windowWrite | split | refine keeps_foldl _ ?_ (fun _ _ _ => ?_))) <;> simp (maxDischargeDepth := 100) only [*, keeps_ite, keeps_mk, keepsAs_iff, keeps_windowRead, keeps_windowWrite]

theorem keeps_writeMsix {d₀ : Dev} (d : Dev) (o v : Nat) (h : Keeps d₀ d) :
    Keeps d₀ (Dev.writeMsix d o v) := by
  unfold Dev.writeMsix; try dsimp only
  (with_reducible (repeat' first | assumption | apply keeps_doMsixUnmask | apply keeps_modLinks | split | refine keeps_foldl _ ?_ (fun _ _ _ => ?_))) <;> simp (maxDischargeDepth := 100) only [*, keeps_ite, keeps_mk, keepsAs_iff, keeps_doMsixUnmask, keeps_modLinks]

theorem keeps_bellPage {d₀ : Dev} (d : Dev) (len : Nat) (write : Option (List Byte)) (h : Keeps d₀ d) :
    Keeps d₀ (Dev.bellPage d len write) := by
  unfold Dev.bellPage; try dsimp only
  (with_reducible (repeat' first | assumption | apply keeps_doorbell | apply keeps_setRead | split | refine keeps_foldl _ ?_ (fun _ _ _ => ?_))) <;> simp (maxDischargeDepth := 100) only [*, keeps_ite, keeps_mk, keepsAs_iff, keeps_doorbell, keeps_setRead]

theorem keeps_bar2Access {d₀ : Dev} (d : Dev) (o len : Nat) (write : Option (List Byte)) (h : Keeps d₀ d) :
    Keeps d₀ (Dev.bar2Access d o len write) := by
  unfold Dev.bar2Access; try dsimp only
  (with_reducible (repeat' first | assumption | apply keeps_bellPage | apply keeps_doQueueWindow | apply keeps_setRead | apply keeps_writeMsix | split | refine keeps_foldl _ ?_ (fun _ _ _ => ?_))) <;> simp (maxDischargeDepth := 100) only [*, keeps_ite, keeps_mk, keepsAs_iff, keeps_bellPage, keeps_doQueueWindow, keeps_setRead, keeps_writeMsix]

theorem keeps_bar0Access {d₀ : Dev} (d : Dev) (o len : Nat) (write : Option (List Byte)) (h : Keeps d₀ d) :
    Keeps d₀ (Dev.bar0Access d o len write) := by
  unfold Dev.bar0Access; try dsimp only
  (with_reducible (repeat' first | assumption | apply keeps_readFor | apply keeps_readPair | apply keeps_writeReg | split | refine keeps_foldl _ ?_ (fun _ _ _ => ?_))) <;> simp (maxDischargeDepth := 100) only [*, keeps_ite, keeps_mk, keepsAs_iff, keeps_readFor, keeps_readPair, keeps_writeReg]

theorem keeps_slot0Access {d₀ : Dev} (d : Dev) (o len : Nat) (write : Option (List Byte)) (h : Keeps d₀ d) :
    Keeps d₀ (Dev.slot0Access d o len write) := by
  unfold Dev.slot0Access; try dsimp only
  (with_reducible (repeat' first | assumption | apply keeps_bar0Access | apply keeps_bar2Access | apply keeps_setRead | split | refine keeps_foldl _ ?_ (fun _ _ _ => ?_))) <;> simp (maxDischargeDepth := 100) only [*, keeps_ite, keeps_mk, keepsAs_iff, keeps_bar0Access, keeps_bar2Access, keeps_setRead]

theorem keeps_forwardAccess {d₀ : Dev} (d : Dev) (slot o len : Nat) (write : Option (List Byte)) (h : Keeps d₀ d) :
    Keeps d₀ (Dev.forwardAccess d slot o len write) := by
  unfold Dev.forwardAccess; try dsimp only
  (with_reducible (repeat' first | assumption | apply keeps_giveFlits | apply keeps_modLinks | apply keeps_newMsg | apply keeps_setRead | apply keeps_useFree | split | refine keeps_foldl _ ?_ (fun _ _ _ => ?_))) <;> simp (maxDischargeDepth := 100) only [*, keeps_ite, keeps_mk, keepsAs_iff, keeps_giveFlits, keeps_modLinks, keeps_newMsg, keeps_setRead, keeps_useFree]

theorem keeps_doGroupWindow {d₀ : Dev} (d : Dev) (slot o len : Nat) (write : Option (List Byte)) (h : Keeps d₀ d) :
    Keeps d₀ (doGroupWindow d slot o len write) := by
  unfold doGroupWindow; try dsimp only
  (with_reducible (repeat' first | assumption | apply keeps_forwardAccess | apply keeps_modLinks | apply keeps_setRead | apply keeps_slot0Access | split | refine keeps_foldl _ ?_ (fun _ _ _ => ?_))) <;> simp (maxDischargeDepth := 100) only [*, keeps_ite, keeps_mk, keepsAs_iff, keeps_forwardAccess, keeps_modLinks, keeps_setRead, keeps_slot0Access]

end Sys2Proof.Machine
end

