-- ==== Sys2Proof/Laws/KeepsExec.lean ====
section
/-! SUPPORT. What `Keeps` says of the commands: every one but a tick and the standby rails. -/

set_option linter.all false

namespace Sys2Proof.Machine

/-- A command that reads and writes the clock otherwise than `Keeps` says. -/
def Clocked : Instr → Prop
  | .DEVICE_TICK => True
  | .STANDBY_POWER_UP _ => True
  | .STANDBY_POWER_LOSS => True
  | _ => False

/-- The effect of a command on the block, before its errors are taken, keeps what `Keeps` says. -/
theorem exec_effect (c : Instr) (h : ¬Clocked c) :
    ∃ f : Dev → Dev, (∀ s : State, exec c s = s.runDev f) ∧ ∀ d, Keeps d (f d) := by
  cases c with
  | DEVICE_TICK => exact absurd trivial h
  | STANDBY_POWER_UP b => exact absurd trivial h
  | STANDBY_POWER_LOSS => exact absurd trivial h
  | NOP c => exact ⟨fun d => doNop d c, fun _ => rfl, fun d => keeps_doNop d _ (keeps_refl d)⟩
  | TIMESTAMP c => exact ⟨fun d => doTimestamp d c, fun _ => rfl, fun d => keeps_doTimestamp d _ (keeps_refl d)⟩
  | QUEUE_CREATE c => exact ⟨fun d => doQueueCreate d c, fun _ => rfl, fun d => keeps_doQueueCreate d _ (keeps_refl d)⟩
  | QUEUE_DESTROY c => exact ⟨fun d => doQueueDestroy d c, fun _ => rfl, fun d => keeps_doQueueDestroy d _ (keeps_refl d)⟩
  | QUEUE_RESUME c => exact ⟨fun d => doQueueResume d c, fun _ => rfl, fun d => keeps_doQueueResume d _ (keeps_refl d)⟩
  | PART_CREATE c => exact ⟨fun d => doPartCreate d c, fun _ => rfl, fun d => keeps_doPartCreate d _ (keeps_refl d)⟩
  | PART_CREATE_REGROW c => exact ⟨fun d => doPartCreateRegrow d c, fun _ => rfl, fun d => keeps_doPartCreateRegrow d _ (keeps_refl d)⟩
  | PART_RELEASE c => exact ⟨fun d => doPartRelease d c, fun _ => rfl, fun d => keeps_doPartRelease d _ (keeps_refl d)⟩
  | PART_SHARES c => exact ⟨fun d => doPartShares d c, fun _ => rfl, fun d => keeps_doPartShares d _ (keeps_refl d)⟩
  | CTX_SAVE c => exact ⟨fun d => doCtxSave d c, fun _ => rfl, fun d => keeps_doCtxSave d _ (keeps_refl d)⟩
  | CTX_RESTORE c => exact ⟨fun d => doCtxRestore d c, fun _ => rfl, fun d => keeps_doCtxRestore d _ (keeps_refl d)⟩
  | KILL c => exact ⟨fun d => doKill d c, fun _ => rfl, fun d => keeps_doKill d _ (keeps_refl d)⟩
  | RECLAIM c => exact ⟨fun d => doReclaim d c, fun _ => rfl, fun d => keeps_doReclaim d _ (keeps_refl d)⟩
  | ARR_MATMUL c => exact ⟨fun d => doArrMatmul d c, fun _ => rfl, fun d => keeps_doArrMatmul d _ (keeps_refl d)⟩
  | ARR_STREAM c => exact ⟨fun d => doArrStream d c, fun _ => rfl, fun d => keeps_doArrStream d _ (keeps_refl d)⟩
  | ARR_CONV c => exact ⟨fun d => doArrConv d c, fun _ => rfl, fun d => keeps_doArrConv d _ (keeps_refl d)⟩
  | ARR_SHALLOW c => exact ⟨fun d => doArrShallow d c, fun _ => rfl, fun d => keeps_doArrShallow d _ (keeps_refl d)⟩
  | ARR_QUAD c => exact ⟨fun d => doArrQuad d c, fun _ => rfl, fun d => keeps_doArrQuad d _ (keeps_refl d)⟩
  | ARR_ACC_ZERO c => exact ⟨fun d => doArrAccZero d c, fun _ => rfl, fun d => keeps_doArrAccZero d _ (keeps_refl d)⟩
  | ARR_ACC_LOAD c => exact ⟨fun d => doArrAccLoad d c, fun _ => rfl, fun d => keeps_doArrAccLoad d _ (keeps_refl d)⟩
  | ARR_ACC_STORE c => exact ⟨fun d => doArrAccStore d c, fun _ => rfl, fun d => keeps_doArrAccStore d _ (keeps_refl d)⟩
  | ARR_ACC_POST c => exact ⟨fun d => doArrAccPost d c, fun _ => rfl, fun d => keeps_doArrAccPost d _ (keeps_refl d)⟩
  | PILOT_WINDOW sp w => exact ⟨fun d => doPilotWindow d sp w.slots w.bubble, fun _ => rfl, fun d => keeps_doPilotWindow d _ _ _ (keeps_refl d)⟩
  | PILOT_RAMP sp => exact ⟨fun d => doPilotRamp d sp, fun _ => rfl, fun d => keeps_doPilotRamp d _ (keeps_refl d)⟩
  | MEM_COPY c => exact ⟨fun d => doMemCopy d c, fun _ => rfl, fun d => keeps_doMemCopy d _ (keeps_refl d)⟩
  | MEM_FILL c => exact ⟨fun d => doMemFill d c, fun _ => rfl, fun d => keeps_doMemFill d _ (keeps_refl d)⟩
  | MEM_ALLOC c => exact ⟨fun d => doMemAlloc d c, fun _ => rfl, fun d => keeps_doMemAlloc d _ (keeps_refl d)⟩
  | MEM_FREE c => exact ⟨fun d => doMemFree d c, fun _ => rfl, fun d => keeps_doMemFree d _ (keeps_refl d)⟩
  | MEM_MIGRATE c => exact ⟨fun d => doMemMigrate d c, fun _ => rfl, fun d => keeps_doMemMigrate d _ (keeps_refl d)⟩
  | SEAL c => exact ⟨fun d => doSeal d c, fun _ => rfl, fun d => keeps_doSeal d _ (keeps_refl d)⟩
  | MAP c => exact ⟨fun d => doMap d c, fun _ => rfl, fun d => keeps_doMap d _ (keeps_refl d)⟩
  | UNMAP c => exact ⟨fun d => doUnmap d c, fun _ => rfl, fun d => keeps_doUnmap d _ (keeps_refl d)⟩
  | UNSEAL c => exact ⟨fun d => doUnseal d c, fun _ => rfl, fun d => keeps_doUnseal d _ (keeps_refl d)⟩
  | UNSEAL_ZERO_DONE region => exact ⟨fun d => doUnsealZeroDone d region, fun _ => rfl, fun d => keeps_doUnsealZeroDone d _ (keeps_refl d)⟩
  | BACKGROUND_ZERO_DONE t => exact ⟨fun d => doBackgroundZeroDone d t, fun _ => rfl, fun d => keeps_doBackgroundZeroDone d _ (keeps_refl d)⟩
  | RELEASE_ZERO_DONE part => exact ⟨fun d => doReleaseZeroDone d part, fun _ => rfl, fun d => keeps_doReleaseZeroDone d _ (keeps_refl d)⟩
  | KV_PAGE_ZERO_DONE part pa => exact ⟨fun d => doKvPageZeroDone d part pa, fun _ => rfl, fun d => keeps_doKvPageZeroDone d _ _ (keeps_refl d)⟩
  | VEC_RUN c => exact ⟨fun d => doVecRun d c, fun _ => rfl, fun d => keeps_doVecRun d _ (keeps_refl d)⟩
  | VEC_TQ_FLUSH c => exact ⟨fun d => doVecTqFlush d c, fun _ => rfl, fun d => keeps_doVecTqFlush d _ (keeps_refl d)⟩
  | TQ_POP c => exact ⟨fun d => doTqPop d c, fun _ => rfl, fun d => keeps_doTqPop d _ (keeps_refl d)⟩
  | TQ_POP_TIMEOUT c => exact ⟨fun d => doTqPopTimeout d c, fun _ => rfl, fun d => keeps_doTqPopTimeout d _ (keeps_refl d)⟩
  | WICK_DESC c => exact ⟨fun d => doWickDesc d c, fun _ => rfl, fun d => keeps_doWickDesc d _ (keeps_refl d)⟩
  | WICK_DESC_REMOVE c => exact ⟨fun d => doWickDescRemove d c, fun _ => rfl, fun d => keeps_doWickDescRemove d _ (keeps_refl d)⟩
  | STATS c => exact ⟨fun d => doStats d c, fun _ => rfl, fun d => keeps_doStats d _ (keeps_refl d)⟩
  | STATS_T c => exact ⟨fun d => doStatsT d c, fun _ => rfl, fun d => keeps_doStatsT d _ (keeps_refl d)⟩
  | STATS_S c => exact ⟨fun d => doStatsS d c, fun _ => rfl, fun d => keeps_doStatsS d _ (keeps_refl d)⟩
  | GRAD c => exact ⟨fun d => doGrad d c, fun _ => rfl, fun d => keeps_doGrad d _ (keeps_refl d)⟩
  | RELEASE c => exact ⟨fun d => doRelease d c, fun _ => rfl, fun d => keeps_doRelease d _ (keeps_refl d)⟩
  | WICK_MERGE c => exact ⟨fun d => doWickMerge d c, fun _ => rfl, fun d => keeps_doWickMerge d _ (keeps_refl d)⟩
  | WICK_TOKMAP c => exact ⟨fun d => doWickTokmap d c, fun _ => rfl, fun d => keeps_doWickTokmap d _ (keeps_refl d)⟩
  | REQ_ADMIT c => exact ⟨fun d => doReqAdmit d c, fun _ => rfl, fun d => keeps_doReqAdmit d _ (keeps_refl d)⟩
  | POOL_ADD c => exact ⟨fun d => doPoolAdd d c, fun _ => rfl, fun d => keeps_doPoolAdd d _ (keeps_refl d)⟩
  | POOL_REMOVE c => exact ⟨fun d => doPoolRemove d c, fun _ => rfl, fun d => keeps_doPoolRemove d _ (keeps_refl d)⟩
  | REQ_RELEASE c => exact ⟨fun d => doReqRelease d c, fun _ => rfl, fun d => keeps_doReqRelease d _ (keeps_refl d)⟩
  | OPEN c => exact ⟨fun d => doOpen d c, fun _ => rfl, fun d => keeps_doOpen d _ (keeps_refl d)⟩
  | CLOSE c => exact ⟨fun d => doClose d c, fun _ => rfl, fun d => keeps_doClose d _ (keeps_refl d)⟩
  | ABORT c => exact ⟨fun d => doAbort d c, fun _ => rfl, fun d => keeps_doAbort d _ (keeps_refl d)⟩
  | PREFILL c => exact ⟨fun d => doPrefill d c, fun _ => rfl, fun d => keeps_doPrefill d _ (keeps_refl d)⟩
  | SET_BALANCE c => exact ⟨fun d => doSetBalance d c, fun _ => rfl, fun d => keeps_doSetBalance d _ (keeps_refl d)⟩
  | ADD_BALANCE c => exact ⟨fun d => doAddBalance d c, fun _ => rfl, fun d => keeps_doAddBalance d _ (keeps_refl d)⟩
  | BIND c => exact ⟨fun d => doBind d c, fun _ => rfl, fun d => keeps_doBind d _ (keeps_refl d)⟩
  | CONFIG c => exact ⟨fun d => doConfig d c, fun _ => rfl, fun d => keeps_doConfig d _ (keeps_refl d)⟩
  | DRAW c => exact ⟨fun d => doDraw d c, fun _ => rfl, fun d => keeps_doDraw d _ (keeps_refl d)⟩
  | STREAM_DELIVER req => exact ⟨fun d => doStreamDeliver d req, fun _ => rfl, fun d => keeps_doStreamDeliver d _ (keeps_refl d)⟩
  | CONS_READ req => exact ⟨fun d => doConsRead d req, fun _ => rfl, fun d => keeps_doConsRead d _ (keeps_refl d)⟩
  | GRAD_EXCHANGE_CONFIG c => exact ⟨fun d => doXchConfig d c, fun _ => rfl, fun d => keeps_doXchConfig d _ (keeps_refl d)⟩
  | SEND c => exact ⟨fun d => doSend d c, fun _ => rfl, fun d => keeps_doSend d _ (keeps_refl d)⟩
  | REMOVE c => exact ⟨fun d => doXchRemove d c, fun _ => rfl, fun d => keeps_doXchRemove d _ (keeps_refl d)⟩
  | CONTRIB_ARRIVE m => exact ⟨fun d => doContribArrive d m, fun _ => rfl, fun d => keeps_doContribArrive d _ (keeps_refl d)⟩
  | STEP_WAIT c => exact ⟨fun d => doStepWait d c, fun _ => rfl, fun d => keeps_doStepWait d _ (keeps_refl d)⟩
  | DECISION_TICK c => exact ⟨fun d => doDecisionTick d c, fun _ => rfl, fun d => keeps_doDecisionTick d _ (keeps_refl d)⟩
  | ACT_OFFLOAD c => exact ⟨fun d => doActOffload d c, fun _ => rfl, fun d => keeps_doActOffload d _ (keeps_refl d)⟩
  | ACT_PREFETCH c => exact ⟨fun d => doActPrefetch d c, fun _ => rfl, fun d => keeps_doActPrefetch d _ (keeps_refl d)⟩
  | TRD_NORM c => exact ⟨fun d => doTrdNorm d c, fun _ => rfl, fun d => keeps_doTrdNorm d _ (keeps_refl d)⟩
  | NORM_RESULT group step sum flags => exact ⟨fun d => doNormResult d group step sum flags, fun _ => rfl, fun d => keeps_doNormResult d _ _ _ _ (keeps_refl d)⟩
  | TRD_UPDATE c => exact ⟨fun d => doTrdUpdate d c, fun _ => rfl, fun d => keeps_doTrdUpdate d _ (keeps_refl d)⟩
  | TRD_VERIFY c => exact ⟨fun d => doTrdVerify d c, fun _ => rfl, fun d => keeps_doTrdVerify d _ (keeps_refl d)⟩
  | ROOT c => exact ⟨fun d => doRoot d c, fun _ => rfl, fun d => keeps_doRoot d _ (keeps_refl d)⟩
  | STORE c => exact ⟨fun d => doStore d c, fun _ => rfl, fun d => keeps_doStore d _ (keeps_refl d)⟩
  | SNAPSHOT_CONFIG x => exact ⟨fun d => doSnapConfig d x.cmd x.answer, fun _ => rfl, fun d => keeps_doSnapConfig d _ _ (keeps_refl d)⟩
  | TAKE c => exact ⟨fun d => doTake d c, fun _ => rfl, fun d => keeps_doTake d _ (keeps_refl d)⟩
  | RESTORE_STATE c a => exact ⟨fun d => doRestoreState d c a, fun _ => rfl, fun d => keeps_doRestoreState d _ _ (keeps_refl d)⟩
  | RESTORE_LOG c a => exact ⟨fun d => doRestoreLog d c a, fun _ => rfl, fun d => keeps_doRestoreLog d _ _ (keeps_refl d)⟩
  | VOTE c => exact ⟨fun d => doVote d c, fun _ => rfl, fun d => keeps_doVote d _ (keeps_refl d)⟩
  | COMMIT_DECIDE c => exact ⟨fun d => doCommitDecide d c, fun _ => rfl, fun d => keeps_doCommitDecide d _ (keeps_refl d)⟩
  | COMMIT_WINDOW_EXPIRE c => exact ⟨fun d => doCommitWindowExpire d c, fun _ => rfl, fun d => keeps_doCommitWindowExpire d _ (keeps_refl d)⟩
  | DECISION_ARRIVE group step attempt decision => exact ⟨fun d => doDecisionArrive d group step attempt decision, fun _ => rfl, fun d => keeps_doDecisionArrive d _ _ _ _ (keeps_refl d)⟩
  | QUERY c => exact ⟨fun d => doQuery d c, fun _ => rfl, fun d => keeps_doQuery d _ (keeps_refl d)⟩
  | LOG_MARK_CONFIG c => exact ⟨fun d => doLogMarkConfig d c, fun _ => rfl, fun d => keeps_doLogMarkConfig d _ (keeps_refl d)⟩
  | MARK c => exact ⟨fun d => doMark d c, fun _ => rfl, fun d => keeps_doMark d _ (keeps_refl d)⟩
  | LOG_MIRROR_RECEIVE m => exact ⟨fun d => doLogMirrorReceive d m, fun _ => rfl, fun d => keeps_doLogMirrorReceive d _ (keeps_refl d)⟩
  | LOG_ENTRY_SECURED part share lsn => exact ⟨fun d => doLogEntrySecured d part share lsn, fun _ => rfl, fun d => keeps_doLogEntrySecured d _ _ _ (keeps_refl d)⟩
  | BEGIN c => exact ⟨fun d => doBegin d c, fun _ => rfl, fun d => keeps_doBegin d _ (keeps_refl d)⟩
  | END c => exact ⟨fun d => doEnd d c, fun _ => rfl, fun d => keeps_doEnd d _ (keeps_refl d)⟩
  | ABANDON c => exact ⟨fun d => doAbandon d c, fun _ => rfl, fun d => keeps_doAbandon d _ (keeps_refl d)⟩
  | ROUTE_SET c => exact ⟨fun d => doRouteSet d c, fun _ => rfl, fun d => keeps_doRouteSet d _ (keeps_refl d)⟩
  | ROUTE_HOLD_RELEASE dst => exact ⟨fun d => doRouteHoldRelease d dst, fun _ => rfl, fun d => keeps_doRouteHoldRelease d _ (keeps_refl d)⟩
  | GROUP_DECLARE c => exact ⟨fun d => doGroupDeclare d c, fun _ => rfl, fun d => keeps_doGroupDeclare d _ (keeps_refl d)⟩
  | GROUP_REMOVE c => exact ⟨fun d => doGroupRemove d c, fun _ => rfl, fun d => keeps_doGroupRemove d _ (keeps_refl d)⟩
  | LINK_WRITE c => exact ⟨fun d => doLinkWrite d c, fun _ => rfl, fun d => keeps_doLinkWrite d _ (keeps_refl d)⟩
  | CHAIN_REDUCE c => exact ⟨fun d => doChainReduce d c, fun _ => rfl, fun d => keeps_doChainReduce d _ (keeps_refl d)⟩
  | LINK_SIGNAL c => exact ⟨fun d => doLinkSignal d c, fun _ => rfl, fun d => keeps_doLinkSignal d _ (keeps_refl d)⟩
  | GROUP_MESSAGE_ARRIVE m => exact ⟨fun d => doGroupMessageArrive d m, fun _ => rfl, fun d => keeps_doGroupMessageArrive d _ (keeps_refl d)⟩
  | COMMIT_MESSAGE_ARRIVE m => exact ⟨fun d => doCommitMessage d m, fun _ => rfl, fun d => keeps_doCommitMessage d _ (keeps_refl d)⟩
  | SPAN_RESET spanId => exact ⟨fun d => doSpanReset d spanId, fun _ => rfl, fun d => keeps_doSpanReset d _ (keeps_refl d)⟩
  | FLIT_RECEIVE port f => exact ⟨fun d => doFlitReceive d port f, fun _ => rfl, fun d => keeps_doFlitReceive d _ _ (keeps_refl d)⟩
  | REPLAY_REQUEST port fromFlit => exact ⟨fun d => doReplayRequest d port fromFlit, fun _ => rfl, fun d => keeps_doReplayRequest d _ _ (keeps_refl d)⟩
  | MESSAGE_FORWARD port cls m => exact ⟨fun d => doMessageForward d port cls m, fun _ => rfl, fun d => keeps_doMessageForward d _ _ _ (keeps_refl d)⟩
  | END_TO_END_ACK msg => exact ⟨fun d => doEndToEndAck d msg, fun _ => rfl, fun d => keeps_doEndToEndAck d _ (keeps_refl d)⟩
  | UNREACHABLE msg => exact ⟨fun d => doUnreachable d msg, fun _ => rfl, fun d => keeps_doUnreachable d _ (keeps_refl d)⟩
  | MESSAGE_LOST_TIMEOUT msg => exact ⟨fun d => doMessageLost d msg, fun _ => rfl, fun d => keeps_doMessageLost d _ (keeps_refl d)⟩
  | RETRAIN port cause badLane => exact ⟨fun d => doRetrain d port cause badLane, fun _ => rfl, fun d => keeps_doRetrain d _ _ _ (keeps_refl d)⟩
  | RETRAIN_DONE port => exact ⟨fun d => doRetrainDone d port, fun _ => rfl, fun d => keeps_doRetrainDone d _ (keeps_refl d)⟩
  | RETRAIN_TIMEOUT port => exact ⟨fun d => doRetrainTimeout d port, fun _ => rfl, fun d => keeps_doRetrainTimeout d _ (keeps_refl d)⟩
  | GROUP_WINDOW_ACCESS slot offset x => exact ⟨fun d => doGroupWindow d slot offset x.len x.write, fun _ => rfl, fun d => keeps_doGroupWindow d _ _ _ _ (keeps_refl d)⟩
  | QUEUE_WINDOW_ACCESS queue offset len write => exact ⟨fun d => doQueueWindow d queue offset len write, fun _ => rfl, fun d => keeps_doQueueWindow d _ _ _ _ (keeps_refl d)⟩
  | HOST_PATH_UP speed width => exact ⟨fun d => doHostPathUp d speed width, fun _ => rfl, fun d => keeps_doHostPathUp d _ _ (keeps_refl d)⟩
  | MSIX_COALESCED_SEND vector => exact ⟨fun d => doMsixCoalesced d vector, fun _ => rfl, fun d => keeps_doMsixCoalesced d _ (keeps_refl d)⟩
  | HOST_PERST_N high heldNs => exact ⟨fun d => doHostPerstN d high heldNs, fun _ => rfl, fun d => keeps_doHostPerstN d _ _ (keeps_refl d)⟩
  | SUBMISSION_DOORBELL head value => exact ⟨fun d => doSubmissionDoorbell d head.toNat value.toNat, fun _ => rfl, fun d => keeps_doSubmissionDoorbell d _ _ (keeps_refl d)⟩
  | COMPLETION_DOORBELL head value => exact ⟨fun d => doCompletionDoorbell d head.toNat value.toNat, fun _ => rfl, fun d => keeps_doCompletionDoorbell d _ _ (keeps_refl d)⟩
  | SUBMISSION queue => exact ⟨fun d => doSubmission d queue, fun _ => rfl, fun d => keeps_doSubmission d _ (keeps_refl d)⟩
  | DISPATCH queue => exact ⟨fun d => doDispatch d queue, fun _ => rfl, fun d => keeps_doDispatch d _ (keeps_refl d)⟩
  | WAIT_TIMEOUT queue => exact ⟨fun d => doWaitTimeout d queue, fun _ => rfl, fun d => keeps_doWaitTimeout d _ (keeps_refl d)⟩
  | RERUN_ISSUE c => exact ⟨fun d => doRerunIssue d c, fun _ => rfl, fun d => keeps_doRerunIssue d _ (keeps_refl d)⟩
  | COMMAND_COMMIT c => exact ⟨fun d => doCommandCommit d c, fun _ => rfl, fun d => keeps_doCommandCommit d _ (keeps_refl d)⟩
  | CHAIN_COMMIT sp chain => exact ⟨fun d => doChainCommit d sp chain, fun _ => rfl, fun d => keeps_doChainCommit d _ _ (keeps_refl d)⟩
  | RECORD_WRITE queue => exact ⟨fun d => doRecordWrite d queue, fun _ => rfl, fun d => keeps_doRecordWrite d _ (keeps_refl d)⟩
  | REFCLK_LOST => exact ⟨fun d => doRefclkLost d, fun _ => rfl, fun d => keeps_doRefclkLost d (keeps_refl d)⟩
  | REFCLK_RETURN => exact ⟨fun d => doRefclkReturn d, fun _ => rfl, fun d => keeps_doRefclkReturn d (keeps_refl d)⟩
  | CD_REFCLK_LOST clock => exact ⟨fun d => doCdRefclkLost d clock, fun _ => rfl, fun d => keeps_doCdRefclkLost d _ (keeps_refl d)⟩
  | TICK_LO_READ r => exact ⟨fun d => doTickLoRead d r.path r.wide, fun _ => rfl, fun d => keeps_doTickLoRead d _ _ (keeps_refl d)⟩
  | TOKEN_LO_READ path => exact ⟨fun d => doTokenLoRead d path, fun _ => rfl, fun d => keeps_doTokenLoRead d _ (keeps_refl d)⟩
  | COUNTER_LO_READ r counter => exact ⟨fun d => doCounterLoRead d r.path counter r.wide, fun _ => rfl, fun d => keeps_doCounterLoRead d _ _ _ (keeps_refl d)⟩
  | REGISTER_WRITE path offset value => exact ⟨fun d => doRegisterWrite d path offset value, fun _ => rfl, fun d => keeps_doRegisterWrite d _ _ _ (keeps_refl d)⟩
  | SKN_QUOTA_WRITE path part kind value => exact ⟨fun d => doSknQuotaWrite d path part kind value, fun _ => rfl, fun d => keeps_doSknQuotaWrite d _ _ _ _ (keeps_refl d)⟩
  | CE_CLR path => exact ⟨fun d => doCeClr d path, fun _ => rfl, fun d => keeps_doCeClr d _ (keeps_refl d)⟩
  | PILOT_CFG_WRITE path sp value => exact ⟨fun d => doPilotWrite d path sp value, fun _ => rfl, fun d => keeps_doPilotWrite d _ _ _ (keeps_refl d)⟩
  | DEV_NUM_WRITE path value => exact ⟨fun d => doDevNumWrite d path value, fun _ => rfl, fun d => keeps_doDevNumWrite d _ _ (keeps_refl d)⟩
  | PORT_ENABLE_WRITE path port value => exact ⟨fun d => doPortEnableWrite d path port value, fun _ => rfl, fun d => keeps_doPortEnableWrite d _ _ _ (keeps_refl d)⟩
  | RESTART path => exact ⟨fun d => doRestart d path, fun _ => rfl, fun d => keeps_doRestart d _ (keeps_refl d)⟩
  | RECOVERY_DATA_WRITE path value => exact ⟨fun d => doRecoveryDataWrite d path value, fun _ => rfl, fun d => keeps_doRecoveryDataWrite d _ _ (keeps_refl d)⟩
  | SB_COMMAND_PACKET m packet => exact ⟨fun d => d.onVendor m.vendor (fun d => doSbCommandPacket d m.src packet), fun _ => rfl, fun d => keeps_onVendor d _ _ (keeps_refl d) (fun d h => keeps_doSbCommandPacket d _ _ h)⟩
  | SB_REGISTER_READ m tag addr words => exact ⟨fun d => d.onVendor m.vendor (fun d => doSbRegisterRead d m.src tag addr words), fun _ => rfl, fun d => keeps_onVendor d _ _ (keeps_refl d) (fun d h => keeps_doSbRegisterRead d _ _ _ _ h)⟩
  | SB_REGISTER_WRITE m tag addr value => exact ⟨fun d => d.onVendor m.vendor (fun d => doSbRegisterWrite d m.src tag addr value), fun _ => rfl, fun d => keeps_onVendor d _ _ (keeps_refl d) (fun d h => keeps_doSbRegisterWrite d _ _ _ _ h)⟩
  | SB_CONTINUATION m offset data => exact ⟨fun d => d.onVendor m.vendor (fun d => doSbContinuation d m.src.port offset data), fun _ => rfl, fun d => keeps_onVendor d _ _ (keeps_refl d) (fun d h => keeps_doSbContinuation d _ _ _ h)⟩
  | CONTINUATION_TIMEOUT => exact ⟨fun d => doContinuationTimeout d, fun _ => rfl, fun d => keeps_doContinuationTimeout d (keeps_refl d)⟩
  | GET_VENDOR_DEFINED_MESSAGE_SUPPORT src => exact ⟨fun d => doGetVendor d src, fun _ => rfl, fun d => keeps_doGetVendor d _ (keeps_refl d)⟩
  | ALERT_SEND port => exact ⟨fun d => doAlertSend d port, fun _ => rfl, fun d => keeps_doAlertSend d _ (keeps_refl d)⟩
  | ATTEST_REPORT c => exact ⟨fun d => doAttestReport d c, fun _ => rfl, fun d => keeps_doAttestReport d _ (keeps_refl d)⟩
  | EXTEND c => exact ⟨fun d => doExtend d c, fun _ => rfl, fun d => keeps_doExtend d _ (keeps_refl d)⟩
  | DEVREC_READ c => exact ⟨fun d => doDevrecRead d c, fun _ => rfl, fun d => keeps_doDevrecRead d _ (keeps_refl d)⟩
  | DEVREC_INSTALL c => exact ⟨fun d => doDevrecInstall d c, fun _ => rfl, fun d => keeps_doDevrecInstall d _ (keeps_refl d)⟩
  | TELEMETRY c => exact ⟨fun d => doTelemetry d c, fun _ => rfl, fun d => keeps_doTelemetry d _ (keeps_refl d)⟩
  | TELEMETRY_SAMPLE sensors powerMw => exact ⟨fun d => doTelemetrySample d sensors powerMw, fun _ => rfl, fun d => keeps_doTelemetrySample d _ _ (keeps_refl d)⟩
  | ERRQ_READ c => exact ⟨fun d => doErrqRead d c, fun _ => rfl, fun d => keeps_doErrqRead d _ (keeps_refl d)⟩
  | POWER_CAP c => exact ⟨fun d => doPowerCap d c, fun _ => rfl, fun d => keeps_doPowerCap d _ (keeps_refl d)⟩
  | ERROR_TAKEN e => exact ⟨fun d => doErrorTaken d e, fun _ => rfl, fun d => keeps_doErrorTaken d _ (keeps_refl d)⟩
  | UNIT_RESTART_DONE u => exact ⟨fun d => doUnitRestartDone d u, fun _ => rfl, fun d => keeps_doUnitRestartDone d _ (keeps_refl d)⟩
  | RECOVERY_TIMEOUT u => exact ⟨fun d => doRecoveryTimeout d u, fun _ => rfl, fun d => keeps_doRecoveryTimeout d _ (keeps_refl d)⟩
  | WATCHDOG c => exact ⟨fun d => doWatchdog d c, fun _ => rfl, fun d => keeps_doWatchdog d _ (keeps_refl d)⟩
  | LOCKSTEP_FAULT => exact ⟨fun d => doLockstepFault d, fun _ => rfl, fun d => keeps_doLockstepFault d (keeps_refl d)⟩
  | POWER_GOOD_TIMEOUT => exact ⟨fun d => doPowerGoodTimeout d, fun _ => rfl, fun d => keeps_doPowerGoodTimeout d (keeps_refl d)⟩
  | SB_RST_N lowNs => exact ⟨fun d => doSbRstN d lowNs, fun _ => rfl, fun d => keeps_doSbRstN d _ (keeps_refl d)⟩
  | INPUT_STUCK input => exact ⟨fun d => doInputStuck d input, fun _ => rfl, fun d => keeps_doInputStuck d _ (keeps_refl d)⟩
  | INPUT_CHATTER input => exact ⟨fun d => doInputChatter d input, fun _ => rfl, fun d => keeps_doInputChatter d _ (keeps_refl d)⟩
  | POWER_EVAL avgMw => exact ⟨fun d => doPowerEval d avgMw, fun _ => rfl, fun d => keeps_doPowerEval d _ (keeps_refl d)⟩
  | PWR_BRAKE_N p => exact ⟨fun d => doPwrBrake d p.low p.heldNs, fun _ => rfl, fun d => keeps_doPwrBrake d _ _ (keeps_refl d)⟩
  | THERMAL_COMPARE sensors => exact ⟨fun d => doThermalCompare d sensors, fun _ => rfl, fun d => keeps_doThermalCompare d _ (keeps_refl d)⟩
  | THERMAL_TRIP source index readings => exact ⟨fun d => doThermalTrip d source index readings, fun _ => rfl, fun d => keeps_doThermalTrip d _ _ _ (keeps_refl d)⟩
  | POWER_GOOD_LOST rail => exact ⟨fun d => doPowerGoodLost d rail, fun _ => rfl, fun d => keeps_doPowerGoodLost d _ (keeps_refl d)⟩
  | FULL_TRAINING_DONE port badLanes => exact ⟨fun d => doFullTrainingDone d port badLanes, fun _ => rfl, fun d => keeps_doFullTrainingDone d _ _ (keeps_refl d)⟩
  | HOST_PATH_DOWN cause => exact ⟨fun d => doHostPathDown d cause, fun _ => rfl, fun d => keeps_doHostPathDown d _ (keeps_refl d)⟩
  | SERVING_A_BUDDY id src body => exact ⟨fun d => doServeBuddy d ⟨id, src, d.links.devNum, body.channel, body⟩, fun _ => rfl, fun d => keeps_doServeBuddy d _ (keeps_refl d)⟩
  | COMMIT_TABLE_QUERY src group step => exact ⟨fun d => doCommitTableQuery d src group step, fun _ => rfl, fun d => keeps_doCommitTableQuery d _ _ _ (keeps_refl d)⟩
  | LINK_WRITE_DATA_ARRIVE m => exact ⟨fun d => doLinkWriteData d m, fun _ => rfl, fun d => keeps_doLinkWriteData d _ (keeps_refl d)⟩
  | MSIX_VECTOR_UNMASK vector => exact ⟨fun d => doMsixUnmask d vector, fun _ => rfl, fun d => keeps_doMsixUnmask d _ (keeps_refl d)⟩
  | DOWN_ACCESS_READ path offset => exact ⟨fun d => doDownAccessRead d path offset, fun _ => rfl, fun d => keeps_doDownAccessRead d _ _ (keeps_refl d)⟩
  | UNSECURED_ENTRY_TIMEOUT c => exact ⟨fun d => doUnsecuredTimeout d c, fun _ => rfl, fun d => keeps_doUnsecuredTimeout d _ (keeps_refl d)⟩

/-- A command other than a tick and the standby rails answers a next state that keeps what `Keeps` says, with the same
commands waiting and no error that waits to be taken. -/
theorem exec_keeps (c : Instr) (s : State) (h : ¬Clocked c) :
    ∃ t, exec c s = .next t ∧ Keeps s.dev t.dev ∧ t.pending = s.pending ∧ t.dev.errDue = [] := by
  obtain ⟨f, hf, hk⟩ := exec_effect c h
  exact ⟨_, hf s, keeps_settle _ (hk s.dev), rfl, settle_errDue _⟩

end Sys2Proof.Machine
end

