-- ==== Sys2Proof/Laws/Messages.lean ====
section
/-! SUPPORT. Sending and answering messages changes nothing of the block but its links. -/

namespace Sys2Proof.Machine

/-- A change of the block that leaves all but its links. -/
def LinksOnly (f : Dev → Dev) : Prop := ∀ d, f d = { d with links := (f d).links }

theorem linksOnly_comp {f g : Dev → Dev} (hg : LinksOnly g) (hf : LinksOnly f) : LinksOnly (fun d => g (f d)) := by
  intro d
  show g (f d) = { d with links := (g (f d)).links }
  rw [hg (f d), hf d]

theorem linksOnly_modLinks (f : Links → Links) : LinksOnly (fun d => d.modLinks f) := fun _ => rfl

theorem linksOnly_modPort (j : Nat) (f : Port → Port) : LinksOnly (fun d => d.modPort j f) := fun _ => rfl
theorem linksOnly_countDrop (a : Nat) : LinksOnly (fun d => d.countDrop a) := by
  intro d; beta_reduce; unfold Dev.countDrop; split <;> rfl

theorem linksOnly_giveFlits (j vc cls n : Nat) : LinksOnly (fun d => d.giveFlits j vc cls n) := fun _ => rfl

theorem linksOnly_leave (m : Message) (cls : Nat) : LinksOnly (fun d => d.leave m cls) := by
  intro d; beta_reduce; unfold Dev.leave; split
  · simp only; split
    · rfl
    · exact linksOnly_giveFlits _ _ _ _ _
  · exact linksOnly_countDrop _ _

theorem linksOnly_answer (a : Nat) (b : MsgBody) : LinksOnly (fun d => d.answer a b) := by
  intro d; beta_reduce; unfold Dev.answer Dev.newMsg; simp only; split
  · rfl
  · exact linksOnly_leave _ _ _

theorem linksOnly_ackMsg (m : Message) : LinksOnly (fun d => d.ackMsg m) := linksOnly_answer _ _

theorem linksOnly_sendMsg (c : Option CmdRef) (a : Nat) (b : MsgBody) : LinksOnly (fun d => d.sendMsg c a b) := by
  intro d; beta_reduce; unfold Dev.sendMsg Dev.newMsg; simp only; split
  · rfl
  · exact linksOnly_leave _ _ _

theorem linksOnly_foldl {α : Type} {f : Dev → α → Dev} (h : ∀ a, LinksOnly (fun d => f d a)) (l : List α) :
    LinksOnly (fun d => l.foldl f d) := by
  induction l with
  | nil => intro d; rfl
  | cons a l ih => exact linksOnly_comp ih (h a)

end Sys2Proof.Machine
end

