-- ==== Sys2Proof/Laws/Run.lean ====
section
/-! SUPPORT. A run of a command, taken apart one action at a time. -/

namespace Sys2Proof.Machine

@[simp] theorem run_pure {α : Type} (a : α) (x : Ctx) : (pure a : Run α) x = .ok a x := rfl

/-- A run goes on where its first part ended well. -/
theorem run_bind {α β : Type} (m : Run α) (f : α → Run β) (x : Ctx) :
    (m >>= f) x = match m x with
      | .ok a y => f a y
      | .error z y => .error z y := by
  change EStateM.bind m f x = _
  unfold EStateM.bind
  cases m x <;> rfl

@[simp] theorem run_bind_pure {α β : Type} (a : α) (f : α → Run β) (x : Ctx) : ((pure a : Run α) >>= f) x = f a x := rfl

theorem run_bind_ok {α β : Type} {m : Run α} {f : α → Run β} {x y : Ctx} {a : α} (h : m x = .ok a y) :
    (m >>= f) x = f a y := by
  rw [run_bind, h]

@[simp] theorem run_getDev_bind {β : Type} (f : Dev → Run β) (x : Ctx) : (getDev >>= f) x = f x.dev x := rfl
@[simp] theorem run_getDev (x : Ctx) : getDev x = .ok x.dev x := rfl
@[simp] theorem run_get_bind {β : Type} (f : Ctx → Run β) (x : Ctx) : ((get : Run Ctx) >>= f) x = f x x := rfl
@[simp] theorem run_set_bind {β : Type} (y : Ctx) (f : PUnit → Run β) (x : Ctx) : ((set y : Run PUnit) >>= f) x = f ⟨⟩ y := rfl
@[simp] theorem run_hold (e : Effect) (x : Ctx) : hold e x = .ok ⟨⟩ { x with eff := e :: x.eff } := rfl
@[simp] theorem run_hold_bind {β : Type} (e : Effect) (f : Unit → Run β) (x : Ctx) :
    (hold e >>= f) x = f () { x with eff := e :: x.eff } := rfl
@[simp] theorem run_holdAll (es : List Effect) (x : Ctx) : holdAll es x = .ok ⟨⟩ { x with eff := es.reverse ++ x.eff } := rfl
@[simp] theorem run_holdAll_bind {β : Type} (es : List Effect) (f : Unit → Run β) (x : Ctx) :
    (holdAll es >>= f) x = f () { x with eff := es.reverse ++ x.eff } := rfl
@[simp] theorem run_noteVals_bind {β : Type} (vs : List FVal) (f : Unit → Run β) (x : Ctx) :
    (noteVals vs >>= f) x = f () { x with inf := x.inf || vs.any FVal.isInf, nan := x.nan || vs.any FVal.isNan } := rfl
@[simp] theorem run_require_true (st : Nat) (x : Ctx) : require true st x = .ok ⟨⟩ x := rfl
@[simp] theorem run_require_false (st : Nat) (x : Ctx) : require false st x = .error ⟨st, none, none⟩ x := rfl
@[simp] theorem run_require_true_bind {β : Type} (st : Nat) (f : Unit → Run β) (x : Ctx) :
    (require true st >>= f) x = f () x := rfl
@[simp] theorem run_require_false_bind {β : Type} (st : Nat) (f : Unit → Run β) (x : Ctx) :
    (require false st >>= f) x = .error ⟨st, none, none⟩ x := rfl
@[simp] theorem run_failWith {α : Type} (st : Nat) (x : Ctx) : (failWith st : Run α) x = .error ⟨st, none, none⟩ x := rfl

/-- A check passes where it holds. -/
theorem run_require_bind {β : Type} {b : Bool} (h : b = true) (st : Nat) (f : Unit → Run β) (x : Ctx) :
    (require b st >>= f) x = f () x := by subst h; rfl

theorem run_map {α β : Type} (g : α → β) (m : Run α) (x : Ctx) :
    (g <$> m) x = match m x with
      | .ok a y => .ok (g a) y
      | .error z y => .error z y := by
  change EStateM.map g m x = _
  unfold EStateM.map
  cases m x <;> rfl

/-- A list of actions of which each holds effects and cannot fail. -/
theorem run_forM_hold {α : Type} {act : α → Run PUnit} {eff : α → List Effect}
    (h : ∀ a x, act a x = .ok ⟨⟩ { x with eff := (eff a).reverse ++ x.eff }) (l : List α) (x : Ctx) :
    (l.forM act) x = .ok ⟨⟩ { x with eff := (l.flatMap eff).reverse ++ x.eff } := by
  induction l generalizing x with
  | nil => rfl
  | cons a l ih =>
    change (act a >>= fun _ => l.forM act) x = _
    rw [run_bind_ok (h a x), ih]
    simp

/-! ### A run reads one state of the block (R262) -/

/-- A run that ends well reads the same block, packet and name throughout. -/
def KeepsDev {α : Type} (m : Run α) : Prop :=
  ∀ x a y, m x = .ok a y → y.dev = x.dev ∧ y.cmd = x.cmd ∧ y.entry = x.entry

theorem keepsDev_pure {α : Type} (a : α) : KeepsDev (pure a : Run α) := by
  intro x b y h; simp at h; obtain ⟨_, rfl⟩ := h; exact ⟨rfl, rfl, rfl⟩

theorem keepsDev_bind {α β : Type} {m : Run α} {f : α → Run β} (hm : KeepsDev m) (hf : ∀ a, KeepsDev (f a)) :
    KeepsDev (m >>= f) := by
  intro x b z h
  rw [run_bind] at h
  cases hmx : m x with
  | ok a y =>
    rw [hmx] at h
    have h1 := hm x a y hmx
    have h2 := hf a y b z h
    exact ⟨h2.1.trans h1.1, h2.2.1.trans h1.2.1, h2.2.2.trans h1.2.2⟩
  | error e y => rw [hmx] at h; simp at h

theorem keepsDev_modify (f : Ctx → Ctx) (hf : ∀ x, (f x).dev = x.dev ∧ (f x).cmd = x.cmd ∧ (f x).entry = x.entry) :
    KeepsDev (modify f : Run PUnit) := by
  intro x a y h
  have : y = f x := by
    simp only [modify, modifyGet, MonadStateOf.modifyGet, EStateM.modifyGet] at h
    injection h with _ h; exact h.symm
  subst this; exact hf x

theorem keepsDev_hold (e : Effect) : KeepsDev (hold e) := keepsDev_modify _ (fun _ => ⟨rfl, rfl, rfl⟩)
theorem keepsDev_holdAll (es : List Effect) : KeepsDev (holdAll es) := keepsDev_modify _ (fun _ => ⟨rfl, rfl, rfl⟩)
theorem keepsDev_noteVals (vs : List FVal) : KeepsDev (noteVals vs) := keepsDev_modify _ (fun _ => ⟨rfl, rfl, rfl⟩)

theorem keepsDev_get_bind {β : Type} {f : Ctx → Run β} (hf : ∀ a, KeepsDev (f a)) : KeepsDev ((get : Run Ctx) >>= f) := by
  intro x b y h; exact hf x x b y h

theorem keepsDev_getDev : KeepsDev getDev := by
  intro x a y h; simp at h; obtain ⟨_, rfl⟩ := h; exact ⟨rfl, rfl, rfl⟩

theorem keepsDev_throw {α : Type} (f : Fail) : KeepsDev (throw f : Run α) := by
  intro x a y h; change EStateM.Result.error f x = _ at h; simp at h

theorem keepsDev_failWith {α : Type} (st : Nat) : KeepsDev (failWith st : Run α) := keepsDev_throw _

theorem keepsDev_require (b : Bool) (st : Nat) : KeepsDev (require b st) := by
  unfold require; split
  · exact keepsDev_pure _
  · exact keepsDev_failWith _

theorem keepsDev_mapM {α β : Type} {f : α → Run β} (hf : ∀ a, KeepsDev (f a)) (l : List α) : KeepsDev (l.mapM f) := by
  induction l with
  | nil => rw [List.mapM_nil]; exact keepsDev_pure _
  | cons a l ih =>
    rw [List.mapM_cons]
    exact keepsDev_bind (hf a) (fun b => keepsDev_bind ih (fun bs => keepsDev_pure _))

theorem keepsDev_forM {α : Type} {f : α → Run PUnit} (hf : ∀ a, KeepsDev (f a)) (l : List α) : KeepsDev (l.forM f) := by
  induction l with
  | nil => exact keepsDev_pure _
  | cons a l ih =>
    change KeepsDev (f a >>= fun _ => l.forM f)
    exact keepsDev_bind (hf a) (fun _ => ih)

theorem keepsDev_foldlM {α β : Type} {f : β → α → Run β} (hf : ∀ b a, KeepsDev (f b a)) (l : List α) (b : β) :
    KeepsDev (l.foldlM f b) := by
  induction l generalizing b with
  | nil => exact keepsDev_pure _
  | cons a l ih =>
    rw [List.foldlM_cons]
    exact keepsDev_bind (hf b a) (fun _ => ih _)

/-- The sectors of a physical range that a read looks at. -/
def readsSector (x : Ctx) (pa n s : Nat) : Bool := decide (pa < 64 * s + 64) && decide (64 * s < pa + n) && !ownSector x.eff s

/-- R145: a read of device-physical memory: an uncorrectable sector fails it, a correctable one is counted. -/
theorem readPhys_eq (pa n : Nat) (x : Ctx) : readPhys pa n x =
    match x.dev.mem.ue.find? (readsSector x pa n) with
    | some s => .error ⟨stUncorrectable, none, some (64 * s)⟩ x
    | none => .ok (overlay x.eff pa (getBytes x.dev.mem.bytes pa n))
        { x with ces := x.ces ++ x.dev.mem.ces.filter (readsSector x pa n) } := by
  change (match x.dev.mem.ue.find? (readsSector x pa n) with
    | some s => (throw (Fail.mk stUncorrectable none (some (64 * s))) : Run (List Byte))
    | none => do
      set { x with ces := x.ces ++ x.dev.mem.ces.filter (readsSector x pa n) }
      return overlay x.eff pa (getBytes x.dev.mem.bytes pa n)) x = _
  cases x.dev.mem.ue.find? (readsSector x pa n) <;> rfl

theorem keepsDev_readPhys (pa n : Nat) : KeepsDev (readPhys pa n) := by
  intro x b y h
  rw [readPhys_eq] at h
  cases hf : x.dev.mem.ue.find? (readsSector x pa n) with
  | some s => rw [hf] at h; simp at h
  | none => rw [hf] at h; simp at h; obtain ⟨_, rfl⟩ := h; exact ⟨rfl, rfl, rfl⟩

theorem keepsDev_xlate (a : Access) (part va : Nat) : KeepsDev (xlate a part va) := by
  unfold xlate
  refine keepsDev_bind keepsDev_getDev (fun d => ?_)
  split
  · exact keepsDev_pure _
  · exact keepsDev_throw _

theorem keepsDev_readIn (a : Access) (part va n : Nat) : KeepsDev (readIn a part va n) := by
  unfold readIn
  exact keepsDev_bind (keepsDev_mapM (fun p => keepsDev_bind (keepsDev_xlate _ _ _) (fun _ => keepsDev_readPhys _ _)) _)
    (fun _ => keepsDev_pure _)

theorem keepsDev_writeIn (a : Access) (part va : Nat) (data : List Byte) : KeepsDev (writeIn a part va data) := by
  unfold writeIn
  refine keepsDev_bind (keepsDev_foldlM (fun bs p => ?_) _ _) (fun _ => keepsDev_pure _)
  exact keepsDev_bind (keepsDev_xlate _ _ _) (fun _ => keepsDev_bind (keepsDev_hold _) (fun _ => keepsDev_pure _))

theorem keepsDev_readVa (a : Access) (va n : Nat) : KeepsDev (readVa a va n) := by
  unfold readVa; exact keepsDev_get_bind (fun _ => keepsDev_readIn _ _ _ _)

theorem keepsDev_writeVa (a : Access) (va : Nat) (data : List Byte) : KeepsDev (writeVa a va data) := by
  unfold writeVa; exact keepsDev_get_bind (fun _ => keepsDev_writeIn _ _ _ _)

theorem keepsDev_readHost (iova n : Nat) : KeepsDev (readHost iova n) := by
  unfold readHost
  exact keepsDev_get_bind (fun _ => keepsDev_bind (keepsDev_require _ _) (fun _ => keepsDev_pure _))

theorem keepsDev_readAt (m : Desc) (a : Access) (va n : Nat) : KeepsDev (m.readAt a va n) := by
  unfold Desc.readAt; split
  · exact keepsDev_readHost _ _
  · exact keepsDev_readVa _ _ _

theorem keepsDev_readRow (m : Desc) (a : Access) (r cols : Nat) : KeepsDev (m.readRow a r cols) := by
  unfold Desc.readRow; split
  · exact keepsDev_bind (keepsDev_mapM (fun _ => keepsDev_bind (keepsDev_readAt _ _ _ _) (fun _ => keepsDev_pure _)) _)
      (fun _ => keepsDev_pure _)
  · refine keepsDev_bind (keepsDev_readAt _ _ _ _) (fun _ => ?_)
    dsimp only
    split
    · exact keepsDev_bind (keepsDev_readAt _ _ _ _) (fun _ => keepsDev_pure _)
    · exact keepsDev_bind (keepsDev_pure _) (fun _ => keepsDev_pure _)

theorem keepsDev_readVals (m : Desc) (a : Access) (r cols : Nat) : KeepsDev (m.readVals a r cols) := by
  unfold Desc.readVals; exact keepsDev_bind (keepsDev_readRow _ _ _ _) (fun _ => keepsDev_pure _)

theorem keepsDev_readMat (m : Desc) (a : Access) (rows cols : Nat) : KeepsDev (m.readMat a rows cols) := by
  unfold Desc.readMat; exact keepsDev_mapM (fun _ => keepsDev_readVals _ _ _ _) _

theorem keepsDev_writeCodes (m : Desc) (a : Access) (r : Nat) (p : List Nat × List Byte) : KeepsDev (m.writeCodes a r p) := by
  unfold Desc.writeCodes; simp only
  split
  · refine keepsDev_bind (keepsDev_hold _) (fun _ => ?_)
    split
    · exact keepsDev_pure _
    · exact keepsDev_hold _
  · refine keepsDev_bind (keepsDev_writeVa _ _ _) (fun _ => ?_)
    split
    · exact keepsDev_pure _
    · exact keepsDev_writeVa _ _ _

theorem keepsDev_writeVals (m : Desc) (a : Access) (r : Nat) (vs : List FVal) : KeepsDev (m.writeVals a r vs) := by
  unfold Desc.writeVals; simp only
  exact keepsDev_bind (keepsDev_noteVals _) (fun _ => keepsDev_writeCodes _ _ _ _)

end Sys2Proof.Machine
end

