-- ==== Sys2Proof/Laws/State.lean ====
section
/-! SUPPORT. Each named update of the block, field by field: what it changes and what it leaves. -/

namespace Sys2Proof.Machine

variable (s : State) (d : Dev)

@[simp] theorem withDev_dev : (s.withDev d).dev = d := rfl
@[simp] theorem withDev_pending : (s.withDev d).pending = s.pending := rfl
@[simp] theorem put_dev : (s.put d).dev = d.settle := rfl
@[simp] theorem put_pending : (s.put d).pending = s.pending := rfl
@[simp] theorem useFree_fst : d.useFree.1 = d.free := rfl
@[simp] theorem useFree_snd : d.useFree.2 = { d with free := d.free + 1 } := rfl

@[simp] theorem setQueue_clk (q : Nat) (v : Queue) : (d.setQueue q v).clk = d.clk := rfl
@[simp] theorem setQueue_qs (q : Nat) (v : Queue) : (d.setQueue q v).qs = { d.qs with q := tput Queue.off d.qs.q q v } := rfl
@[simp] theorem setQueue_sp (q : Nat) (v : Queue) : (d.setQueue q v).sp = d.sp := rfl
@[simp] theorem setQueue_mem (q : Nat) (v : Queue) : (d.setQueue q v).mem = d.mem := rfl
@[simp] theorem setQueue_parts (q : Nat) (v : Queue) : (d.setQueue q v).parts = d.parts := rfl
@[simp] theorem setQueue_wick (q : Nat) (v : Queue) : (d.setQueue q v).wick = d.wick := rfl
@[simp] theorem setQueue_reqs (q : Nat) (v : Queue) : (d.setQueue q v).reqs = d.reqs := rfl
@[simp] theorem setQueue_links (q : Nat) (v : Queue) : (d.setQueue q v).links = d.links := rfl
@[simp] theorem setQueue_xch (q : Nat) (v : Queue) : (d.setQueue q v).xch = d.xch := rfl
@[simp] theorem setQueue_train (q : Nat) (v : Queue) : (d.setQueue q v).train = d.train := rfl
@[simp] theorem setQueue_lamp (q : Nat) (v : Queue) : (d.setQueue q v).lamp = d.lamp := rfl
@[simp] theorem setQueue_power (q : Nat) (v : Queue) : (d.setQueue q v).power = d.power := rfl
@[simp] theorem setQueue_paths (q : Nat) (v : Queue) : (d.setQueue q v).paths = d.paths := rfl
@[simp] theorem setQueue_errDue (q : Nat) (v : Queue) : (d.setQueue q v).errDue = d.errDue := rfl
@[simp] theorem setQueue_free (q : Nat) (v : Queue) : (d.setQueue q v).free = d.free := rfl

@[simp] theorem modQueue_clk (q : Nat) (f : Queue → Queue) : (d.modQueue q f).clk = d.clk := rfl
@[simp] theorem modQueue_qs (q : Nat) (f : Queue → Queue) : (d.modQueue q f).qs = { d.qs with q := tput Queue.off d.qs.q q (f (d.queue q)) } := rfl
@[simp] theorem modQueue_sp (q : Nat) (f : Queue → Queue) : (d.modQueue q f).sp = d.sp := rfl
@[simp] theorem modQueue_mem (q : Nat) (f : Queue → Queue) : (d.modQueue q f).mem = d.mem := rfl
@[simp] theorem modQueue_parts (q : Nat) (f : Queue → Queue) : (d.modQueue q f).parts = d.parts := rfl
@[simp] theorem modQueue_wick (q : Nat) (f : Queue → Queue) : (d.modQueue q f).wick = d.wick := rfl
@[simp] theorem modQueue_reqs (q : Nat) (f : Queue → Queue) : (d.modQueue q f).reqs = d.reqs := rfl
@[simp] theorem modQueue_links (q : Nat) (f : Queue → Queue) : (d.modQueue q f).links = d.links := rfl
@[simp] theorem modQueue_xch (q : Nat) (f : Queue → Queue) : (d.modQueue q f).xch = d.xch := rfl
@[simp] theorem modQueue_train (q : Nat) (f : Queue → Queue) : (d.modQueue q f).train = d.train := rfl
@[simp] theorem modQueue_lamp (q : Nat) (f : Queue → Queue) : (d.modQueue q f).lamp = d.lamp := rfl
@[simp] theorem modQueue_power (q : Nat) (f : Queue → Queue) : (d.modQueue q f).power = d.power := rfl
@[simp] theorem modQueue_paths (q : Nat) (f : Queue → Queue) : (d.modQueue q f).paths = d.paths := rfl
@[simp] theorem modQueue_errDue (q : Nat) (f : Queue → Queue) : (d.modQueue q f).errDue = d.errDue := rfl
@[simp] theorem modQueue_free (q : Nat) (f : Queue → Queue) : (d.modQueue q f).free = d.free := rfl

@[simp] theorem modEntry_clk (c : CmdRef) (f : Entry → Entry) : (d.modEntry c f).clk = d.clk := rfl
@[simp] theorem modEntry_qs (c : CmdRef) (f : Entry → Entry) : (d.modEntry c f).qs = { d.qs with q := tput Queue.off d.qs.q c.queue ((d.queue c.queue).modEntry c.seq f) } := rfl
@[simp] theorem modEntry_sp (c : CmdRef) (f : Entry → Entry) : (d.modEntry c f).sp = d.sp := rfl
@[simp] theorem modEntry_mem (c : CmdRef) (f : Entry → Entry) : (d.modEntry c f).mem = d.mem := rfl
@[simp] theorem modEntry_parts (c : CmdRef) (f : Entry → Entry) : (d.modEntry c f).parts = d.parts := rfl
@[simp] theorem modEntry_wick (c : CmdRef) (f : Entry → Entry) : (d.modEntry c f).wick = d.wick := rfl
@[simp] theorem modEntry_reqs (c : CmdRef) (f : Entry → Entry) : (d.modEntry c f).reqs = d.reqs := rfl
@[simp] theorem modEntry_links (c : CmdRef) (f : Entry → Entry) : (d.modEntry c f).links = d.links := rfl
@[simp] theorem modEntry_xch (c : CmdRef) (f : Entry → Entry) : (d.modEntry c f).xch = d.xch := rfl
@[simp] theorem modEntry_train (c : CmdRef) (f : Entry → Entry) : (d.modEntry c f).train = d.train := rfl
@[simp] theorem modEntry_lamp (c : CmdRef) (f : Entry → Entry) : (d.modEntry c f).lamp = d.lamp := rfl
@[simp] theorem modEntry_power (c : CmdRef) (f : Entry → Entry) : (d.modEntry c f).power = d.power := rfl
@[simp] theorem modEntry_paths (c : CmdRef) (f : Entry → Entry) : (d.modEntry c f).paths = d.paths := rfl
@[simp] theorem modEntry_errDue (c : CmdRef) (f : Entry → Entry) : (d.modEntry c f).errDue = d.errDue := rfl
@[simp] theorem modEntry_free (c : CmdRef) (f : Entry → Entry) : (d.modEntry c f).free = d.free := rfl

@[simp] theorem setToken_clk (set t v : Nat) : (d.setToken set t v).clk = d.clk := rfl
@[simp] theorem setToken_qs (set t v : Nat) : (d.setToken set t v).qs = { d.qs with tokens := tput 0 d.qs.tokens (64 * set + t) v } := rfl
@[simp] theorem setToken_sp (set t v : Nat) : (d.setToken set t v).sp = d.sp := rfl
@[simp] theorem setToken_mem (set t v : Nat) : (d.setToken set t v).mem = d.mem := rfl
@[simp] theorem setToken_parts (set t v : Nat) : (d.setToken set t v).parts = d.parts := rfl
@[simp] theorem setToken_wick (set t v : Nat) : (d.setToken set t v).wick = d.wick := rfl
@[simp] theorem setToken_reqs (set t v : Nat) : (d.setToken set t v).reqs = d.reqs := rfl
@[simp] theorem setToken_links (set t v : Nat) : (d.setToken set t v).links = d.links := rfl
@[simp] theorem setToken_xch (set t v : Nat) : (d.setToken set t v).xch = d.xch := rfl
@[simp] theorem setToken_train (set t v : Nat) : (d.setToken set t v).train = d.train := rfl
@[simp] theorem setToken_lamp (set t v : Nat) : (d.setToken set t v).lamp = d.lamp := rfl
@[simp] theorem setToken_power (set t v : Nat) : (d.setToken set t v).power = d.power := rfl
@[simp] theorem setToken_paths (set t v : Nat) : (d.setToken set t v).paths = d.paths := rfl
@[simp] theorem setToken_errDue (set t v : Nat) : (d.setToken set t v).errDue = d.errDue := rfl
@[simp] theorem setToken_free (set t v : Nat) : (d.setToken set t v).free = d.free := rfl

@[simp] theorem setPart_clk (p : Nat) (v : Partition) : (d.setPart p v).clk = d.clk := rfl
@[simp] theorem setPart_qs (p : Nat) (v : Partition) : (d.setPart p v).qs = d.qs := rfl
@[simp] theorem setPart_sp (p : Nat) (v : Partition) : (d.setPart p v).sp = d.sp := rfl
@[simp] theorem setPart_mem (p : Nat) (v : Partition) : (d.setPart p v).mem = d.mem := rfl
@[simp] theorem setPart_parts (p : Nat) (v : Partition) : (d.setPart p v).parts = { d.parts with p := tput Partition.off d.parts.p p v } := rfl
@[simp] theorem setPart_wick (p : Nat) (v : Partition) : (d.setPart p v).wick = d.wick := rfl
@[simp] theorem setPart_reqs (p : Nat) (v : Partition) : (d.setPart p v).reqs = d.reqs := rfl
@[simp] theorem setPart_links (p : Nat) (v : Partition) : (d.setPart p v).links = d.links := rfl
@[simp] theorem setPart_xch (p : Nat) (v : Partition) : (d.setPart p v).xch = d.xch := rfl
@[simp] theorem setPart_train (p : Nat) (v : Partition) : (d.setPart p v).train = d.train := rfl
@[simp] theorem setPart_lamp (p : Nat) (v : Partition) : (d.setPart p v).lamp = d.lamp := rfl
@[simp] theorem setPart_power (p : Nat) (v : Partition) : (d.setPart p v).power = d.power := rfl
@[simp] theorem setPart_paths (p : Nat) (v : Partition) : (d.setPart p v).paths = d.paths := rfl
@[simp] theorem setPart_errDue (p : Nat) (v : Partition) : (d.setPart p v).errDue = d.errDue := rfl
@[simp] theorem setPart_free (p : Nat) (v : Partition) : (d.setPart p v).free = d.free := rfl

@[simp] theorem modPart_clk (p : Nat) (f : Partition → Partition) : (d.modPart p f).clk = d.clk := rfl
@[simp] theorem modPart_qs (p : Nat) (f : Partition → Partition) : (d.modPart p f).qs = d.qs := rfl
@[simp] theorem modPart_sp (p : Nat) (f : Partition → Partition) : (d.modPart p f).sp = d.sp := rfl
@[simp] theorem modPart_mem (p : Nat) (f : Partition → Partition) : (d.modPart p f).mem = d.mem := rfl
@[simp] theorem modPart_parts (p : Nat) (f : Partition → Partition) : (d.modPart p f).parts = { d.parts with p := tput Partition.off d.parts.p p (f (d.part p)) } := rfl
@[simp] theorem modPart_wick (p : Nat) (f : Partition → Partition) : (d.modPart p f).wick = d.wick := rfl
@[simp] theorem modPart_reqs (p : Nat) (f : Partition → Partition) : (d.modPart p f).reqs = d.reqs := rfl
@[simp] theorem modPart_links (p : Nat) (f : Partition → Partition) : (d.modPart p f).links = d.links := rfl
@[simp] theorem modPart_xch (p : Nat) (f : Partition → Partition) : (d.modPart p f).xch = d.xch := rfl
@[simp] theorem modPart_train (p : Nat) (f : Partition → Partition) : (d.modPart p f).train = d.train := rfl
@[simp] theorem modPart_lamp (p : Nat) (f : Partition → Partition) : (d.modPart p f).lamp = d.lamp := rfl
@[simp] theorem modPart_power (p : Nat) (f : Partition → Partition) : (d.modPart p f).power = d.power := rfl
@[simp] theorem modPart_paths (p : Nat) (f : Partition → Partition) : (d.modPart p f).paths = d.paths := rfl
@[simp] theorem modPart_errDue (p : Nat) (f : Partition → Partition) : (d.modPart p f).errDue = d.errDue := rfl
@[simp] theorem modPart_free (p : Nat) (f : Partition → Partition) : (d.modPart p f).free = d.free := rfl

@[simp] theorem setSpin_clk (s : Nat) (v : Spindle) : (d.setSpin s v).clk = d.clk := rfl
@[simp] theorem setSpin_qs (s : Nat) (v : Spindle) : (d.setSpin s v).qs = d.qs := rfl
@[simp] theorem setSpin_sp (s : Nat) (v : Spindle) : (d.setSpin s v).sp = tput Spindle.reset d.sp s v := rfl
@[simp] theorem setSpin_mem (s : Nat) (v : Spindle) : (d.setSpin s v).mem = d.mem := rfl
@[simp] theorem setSpin_parts (s : Nat) (v : Spindle) : (d.setSpin s v).parts = d.parts := rfl
@[simp] theorem setSpin_wick (s : Nat) (v : Spindle) : (d.setSpin s v).wick = d.wick := rfl
@[simp] theorem setSpin_reqs (s : Nat) (v : Spindle) : (d.setSpin s v).reqs = d.reqs := rfl
@[simp] theorem setSpin_links (s : Nat) (v : Spindle) : (d.setSpin s v).links = d.links := rfl
@[simp] theorem setSpin_xch (s : Nat) (v : Spindle) : (d.setSpin s v).xch = d.xch := rfl
@[simp] theorem setSpin_train (s : Nat) (v : Spindle) : (d.setSpin s v).train = d.train := rfl
@[simp] theorem setSpin_lamp (s : Nat) (v : Spindle) : (d.setSpin s v).lamp = d.lamp := rfl
@[simp] theorem setSpin_power (s : Nat) (v : Spindle) : (d.setSpin s v).power = d.power := rfl
@[simp] theorem setSpin_paths (s : Nat) (v : Spindle) : (d.setSpin s v).paths = d.paths := rfl
@[simp] theorem setSpin_errDue (s : Nat) (v : Spindle) : (d.setSpin s v).errDue = d.errDue := rfl
@[simp] theorem setSpin_free (s : Nat) (v : Spindle) : (d.setSpin s v).free = d.free := rfl

@[simp] theorem modSpin_clk (s : Nat) (f : Spindle → Spindle) : (d.modSpin s f).clk = d.clk := rfl
@[simp] theorem modSpin_qs (s : Nat) (f : Spindle → Spindle) : (d.modSpin s f).qs = d.qs := rfl
@[simp] theorem modSpin_sp (s : Nat) (f : Spindle → Spindle) : (d.modSpin s f).sp = tput Spindle.reset d.sp s (f (d.spin s)) := rfl
@[simp] theorem modSpin_mem (s : Nat) (f : Spindle → Spindle) : (d.modSpin s f).mem = d.mem := rfl
@[simp] theorem modSpin_parts (s : Nat) (f : Spindle → Spindle) : (d.modSpin s f).parts = d.parts := rfl
@[simp] theorem modSpin_wick (s : Nat) (f : Spindle → Spindle) : (d.modSpin s f).wick = d.wick := rfl
@[simp] theorem modSpin_reqs (s : Nat) (f : Spindle → Spindle) : (d.modSpin s f).reqs = d.reqs := rfl
@[simp] theorem modSpin_links (s : Nat) (f : Spindle → Spindle) : (d.modSpin s f).links = d.links := rfl
@[simp] theorem modSpin_xch (s : Nat) (f : Spindle → Spindle) : (d.modSpin s f).xch = d.xch := rfl
@[simp] theorem modSpin_train (s : Nat) (f : Spindle → Spindle) : (d.modSpin s f).train = d.train := rfl
@[simp] theorem modSpin_lamp (s : Nat) (f : Spindle → Spindle) : (d.modSpin s f).lamp = d.lamp := rfl
@[simp] theorem modSpin_power (s : Nat) (f : Spindle → Spindle) : (d.modSpin s f).power = d.power := rfl
@[simp] theorem modSpin_paths (s : Nat) (f : Spindle → Spindle) : (d.modSpin s f).paths = d.paths := rfl
@[simp] theorem modSpin_errDue (s : Nat) (f : Spindle → Spindle) : (d.modSpin s f).errDue = d.errDue := rfl
@[simp] theorem modSpin_free (s : Nat) (f : Spindle → Spindle) : (d.modSpin s f).free = d.free := rfl

@[simp] theorem modMem_clk (f : Mem → Mem) : (d.modMem f).clk = d.clk := rfl
@[simp] theorem modMem_qs (f : Mem → Mem) : (d.modMem f).qs = d.qs := rfl
@[simp] theorem modMem_sp (f : Mem → Mem) : (d.modMem f).sp = d.sp := rfl
@[simp] theorem modMem_mem (f : Mem → Mem) : (d.modMem f).mem = f d.mem := rfl
@[simp] theorem modMem_parts (f : Mem → Mem) : (d.modMem f).parts = d.parts := rfl
@[simp] theorem modMem_wick (f : Mem → Mem) : (d.modMem f).wick = d.wick := rfl
@[simp] theorem modMem_reqs (f : Mem → Mem) : (d.modMem f).reqs = d.reqs := rfl
@[simp] theorem modMem_links (f : Mem → Mem) : (d.modMem f).links = d.links := rfl
@[simp] theorem modMem_xch (f : Mem → Mem) : (d.modMem f).xch = d.xch := rfl
@[simp] theorem modMem_train (f : Mem → Mem) : (d.modMem f).train = d.train := rfl
@[simp] theorem modMem_lamp (f : Mem → Mem) : (d.modMem f).lamp = d.lamp := rfl
@[simp] theorem modMem_power (f : Mem → Mem) : (d.modMem f).power = d.power := rfl
@[simp] theorem modMem_paths (f : Mem → Mem) : (d.modMem f).paths = d.paths := rfl
@[simp] theorem modMem_errDue (f : Mem → Mem) : (d.modMem f).errDue = d.errDue := rfl
@[simp] theorem modMem_free (f : Mem → Mem) : (d.modMem f).free = d.free := rfl

@[simp] theorem modWick_clk (f : Wick → Wick) : (d.modWick f).clk = d.clk := rfl
@[simp] theorem modWick_qs (f : Wick → Wick) : (d.modWick f).qs = d.qs := rfl
@[simp] theorem modWick_sp (f : Wick → Wick) : (d.modWick f).sp = d.sp := rfl
@[simp] theorem modWick_mem (f : Wick → Wick) : (d.modWick f).mem = d.mem := rfl
@[simp] theorem modWick_parts (f : Wick → Wick) : (d.modWick f).parts = d.parts := rfl
@[simp] theorem modWick_wick (f : Wick → Wick) : (d.modWick f).wick = f d.wick := rfl
@[simp] theorem modWick_reqs (f : Wick → Wick) : (d.modWick f).reqs = d.reqs := rfl
@[simp] theorem modWick_links (f : Wick → Wick) : (d.modWick f).links = d.links := rfl
@[simp] theorem modWick_xch (f : Wick → Wick) : (d.modWick f).xch = d.xch := rfl
@[simp] theorem modWick_train (f : Wick → Wick) : (d.modWick f).train = d.train := rfl
@[simp] theorem modWick_lamp (f : Wick → Wick) : (d.modWick f).lamp = d.lamp := rfl
@[simp] theorem modWick_power (f : Wick → Wick) : (d.modWick f).power = d.power := rfl
@[simp] theorem modWick_paths (f : Wick → Wick) : (d.modWick f).paths = d.paths := rfl
@[simp] theorem modWick_errDue (f : Wick → Wick) : (d.modWick f).errDue = d.errDue := rfl
@[simp] theorem modWick_free (f : Wick → Wick) : (d.modWick f).free = d.free := rfl

@[simp] theorem modReqs_clk (f : Reqs → Reqs) : (d.modReqs f).clk = d.clk := rfl
@[simp] theorem modReqs_qs (f : Reqs → Reqs) : (d.modReqs f).qs = d.qs := rfl
@[simp] theorem modReqs_sp (f : Reqs → Reqs) : (d.modReqs f).sp = d.sp := rfl
@[simp] theorem modReqs_mem (f : Reqs → Reqs) : (d.modReqs f).mem = d.mem := rfl
@[simp] theorem modReqs_parts (f : Reqs → Reqs) : (d.modReqs f).parts = d.parts := rfl
@[simp] theorem modReqs_wick (f : Reqs → Reqs) : (d.modReqs f).wick = d.wick := rfl
@[simp] theorem modReqs_reqs (f : Reqs → Reqs) : (d.modReqs f).reqs = f d.reqs := rfl
@[simp] theorem modReqs_links (f : Reqs → Reqs) : (d.modReqs f).links = d.links := rfl
@[simp] theorem modReqs_xch (f : Reqs → Reqs) : (d.modReqs f).xch = d.xch := rfl
@[simp] theorem modReqs_train (f : Reqs → Reqs) : (d.modReqs f).train = d.train := rfl
@[simp] theorem modReqs_lamp (f : Reqs → Reqs) : (d.modReqs f).lamp = d.lamp := rfl
@[simp] theorem modReqs_power (f : Reqs → Reqs) : (d.modReqs f).power = d.power := rfl
@[simp] theorem modReqs_paths (f : Reqs → Reqs) : (d.modReqs f).paths = d.paths := rfl
@[simp] theorem modReqs_errDue (f : Reqs → Reqs) : (d.modReqs f).errDue = d.errDue := rfl
@[simp] theorem modReqs_free (f : Reqs → Reqs) : (d.modReqs f).free = d.free := rfl

@[simp] theorem modLinks_clk (f : Links → Links) : (d.modLinks f).clk = d.clk := rfl
@[simp] theorem modLinks_qs (f : Links → Links) : (d.modLinks f).qs = d.qs := rfl
@[simp] theorem modLinks_sp (f : Links → Links) : (d.modLinks f).sp = d.sp := rfl
@[simp] theorem modLinks_mem (f : Links → Links) : (d.modLinks f).mem = d.mem := rfl
@[simp] theorem modLinks_parts (f : Links → Links) : (d.modLinks f).parts = d.parts := rfl
@[simp] theorem modLinks_wick (f : Links → Links) : (d.modLinks f).wick = d.wick := rfl
@[simp] theorem modLinks_reqs (f : Links → Links) : (d.modLinks f).reqs = d.reqs := rfl
@[simp] theorem modLinks_links (f : Links → Links) : (d.modLinks f).links = f d.links := rfl
@[simp] theorem modLinks_xch (f : Links → Links) : (d.modLinks f).xch = d.xch := rfl
@[simp] theorem modLinks_train (f : Links → Links) : (d.modLinks f).train = d.train := rfl
@[simp] theorem modLinks_lamp (f : Links → Links) : (d.modLinks f).lamp = d.lamp := rfl
@[simp] theorem modLinks_power (f : Links → Links) : (d.modLinks f).power = d.power := rfl
@[simp] theorem modLinks_paths (f : Links → Links) : (d.modLinks f).paths = d.paths := rfl
@[simp] theorem modLinks_errDue (f : Links → Links) : (d.modLinks f).errDue = d.errDue := rfl
@[simp] theorem modLinks_free (f : Links → Links) : (d.modLinks f).free = d.free := rfl

@[simp] theorem modTraining_clk (f : Training → Training) : (d.modTraining f).clk = d.clk := rfl
@[simp] theorem modTraining_qs (f : Training → Training) : (d.modTraining f).qs = d.qs := rfl
@[simp] theorem modTraining_sp (f : Training → Training) : (d.modTraining f).sp = d.sp := rfl
@[simp] theorem modTraining_mem (f : Training → Training) : (d.modTraining f).mem = d.mem := rfl
@[simp] theorem modTraining_parts (f : Training → Training) : (d.modTraining f).parts = d.parts := rfl
@[simp] theorem modTraining_wick (f : Training → Training) : (d.modTraining f).wick = d.wick := rfl
@[simp] theorem modTraining_reqs (f : Training → Training) : (d.modTraining f).reqs = d.reqs := rfl
@[simp] theorem modTraining_links (f : Training → Training) : (d.modTraining f).links = d.links := rfl
@[simp] theorem modTraining_xch (f : Training → Training) : (d.modTraining f).xch = d.xch := rfl
@[simp] theorem modTraining_train (f : Training → Training) : (d.modTraining f).train = f d.train := rfl
@[simp] theorem modTraining_lamp (f : Training → Training) : (d.modTraining f).lamp = d.lamp := rfl
@[simp] theorem modTraining_power (f : Training → Training) : (d.modTraining f).power = d.power := rfl
@[simp] theorem modTraining_paths (f : Training → Training) : (d.modTraining f).paths = d.paths := rfl
@[simp] theorem modTraining_errDue (f : Training → Training) : (d.modTraining f).errDue = d.errDue := rfl
@[simp] theorem modTraining_free (f : Training → Training) : (d.modTraining f).free = d.free := rfl

@[simp] theorem modLamp_clk (f : Lamp → Lamp) : (d.modLamp f).clk = d.clk := rfl
@[simp] theorem modLamp_qs (f : Lamp → Lamp) : (d.modLamp f).qs = d.qs := rfl
@[simp] theorem modLamp_sp (f : Lamp → Lamp) : (d.modLamp f).sp = d.sp := rfl
@[simp] theorem modLamp_mem (f : Lamp → Lamp) : (d.modLamp f).mem = d.mem := rfl
@[simp] theorem modLamp_parts (f : Lamp → Lamp) : (d.modLamp f).parts = d.parts := rfl
@[simp] theorem modLamp_wick (f : Lamp → Lamp) : (d.modLamp f).wick = d.wick := rfl
@[simp] theorem modLamp_reqs (f : Lamp → Lamp) : (d.modLamp f).reqs = d.reqs := rfl
@[simp] theorem modLamp_links (f : Lamp → Lamp) : (d.modLamp f).links = d.links := rfl
@[simp] theorem modLamp_xch (f : Lamp → Lamp) : (d.modLamp f).xch = d.xch := rfl
@[simp] theorem modLamp_train (f : Lamp → Lamp) : (d.modLamp f).train = d.train := rfl
@[simp] theorem modLamp_lamp (f : Lamp → Lamp) : (d.modLamp f).lamp = f d.lamp := rfl
@[simp] theorem modLamp_power (f : Lamp → Lamp) : (d.modLamp f).power = d.power := rfl
@[simp] theorem modLamp_paths (f : Lamp → Lamp) : (d.modLamp f).paths = d.paths := rfl
@[simp] theorem modLamp_errDue (f : Lamp → Lamp) : (d.modLamp f).errDue = d.errDue := rfl
@[simp] theorem modLamp_free (f : Lamp → Lamp) : (d.modLamp f).free = d.free := rfl

@[simp] theorem modPower_clk (f : Power → Power) : (d.modPower f).clk = d.clk := rfl
@[simp] theorem modPower_qs (f : Power → Power) : (d.modPower f).qs = d.qs := rfl
@[simp] theorem modPower_sp (f : Power → Power) : (d.modPower f).sp = d.sp := rfl
@[simp] theorem modPower_mem (f : Power → Power) : (d.modPower f).mem = d.mem := rfl
@[simp] theorem modPower_parts (f : Power → Power) : (d.modPower f).parts = d.parts := rfl
@[simp] theorem modPower_wick (f : Power → Power) : (d.modPower f).wick = d.wick := rfl
@[simp] theorem modPower_reqs (f : Power → Power) : (d.modPower f).reqs = d.reqs := rfl
@[simp] theorem modPower_links (f : Power → Power) : (d.modPower f).links = d.links := rfl
@[simp] theorem modPower_xch (f : Power → Power) : (d.modPower f).xch = d.xch := rfl
@[simp] theorem modPower_train (f : Power → Power) : (d.modPower f).train = d.train := rfl
@[simp] theorem modPower_lamp (f : Power → Power) : (d.modPower f).lamp = d.lamp := rfl
@[simp] theorem modPower_power (f : Power → Power) : (d.modPower f).power = f d.power := rfl
@[simp] theorem modPower_paths (f : Power → Power) : (d.modPower f).paths = d.paths := rfl
@[simp] theorem modPower_errDue (f : Power → Power) : (d.modPower f).errDue = d.errDue := rfl
@[simp] theorem modPower_free (f : Power → Power) : (d.modPower f).free = d.free := rfl

@[simp] theorem modPath_clk (p : Path) (f : PathRegs → PathRegs) : (d.modPath p f).clk = d.clk := rfl
@[simp] theorem modPath_qs (p : Path) (f : PathRegs → PathRegs) : (d.modPath p f).qs = d.qs := rfl
@[simp] theorem modPath_sp (p : Path) (f : PathRegs → PathRegs) : (d.modPath p f).sp = d.sp := rfl
@[simp] theorem modPath_mem (p : Path) (f : PathRegs → PathRegs) : (d.modPath p f).mem = d.mem := rfl
@[simp] theorem modPath_parts (p : Path) (f : PathRegs → PathRegs) : (d.modPath p f).parts = d.parts := rfl
@[simp] theorem modPath_wick (p : Path) (f : PathRegs → PathRegs) : (d.modPath p f).wick = d.wick := rfl
@[simp] theorem modPath_reqs (p : Path) (f : PathRegs → PathRegs) : (d.modPath p f).reqs = d.reqs := rfl
@[simp] theorem modPath_links (p : Path) (f : PathRegs → PathRegs) : (d.modPath p f).links = d.links := rfl
@[simp] theorem modPath_xch (p : Path) (f : PathRegs → PathRegs) : (d.modPath p f).xch = d.xch := rfl
@[simp] theorem modPath_train (p : Path) (f : PathRegs → PathRegs) : (d.modPath p f).train = d.train := rfl
@[simp] theorem modPath_lamp (p : Path) (f : PathRegs → PathRegs) : (d.modPath p f).lamp = d.lamp := rfl
@[simp] theorem modPath_power (p : Path) (f : PathRegs → PathRegs) : (d.modPath p f).power = d.power := rfl
@[simp] theorem modPath_paths (p : Path) (f : PathRegs → PathRegs) : (d.modPath p f).paths = tmod PathRegs.reset d.paths (pathKey p) f := rfl
@[simp] theorem modPath_errDue (p : Path) (f : PathRegs → PathRegs) : (d.modPath p f).errDue = d.errDue := rfl
@[simp] theorem modPath_free (p : Path) (f : PathRegs → PathRegs) : (d.modPath p f).free = d.free := rfl

@[simp] theorem due_clk (e : ErrorInfo) : (d.due e).clk = d.clk := rfl
@[simp] theorem due_qs (e : ErrorInfo) : (d.due e).qs = d.qs := rfl
@[simp] theorem due_sp (e : ErrorInfo) : (d.due e).sp = d.sp := rfl
@[simp] theorem due_mem (e : ErrorInfo) : (d.due e).mem = d.mem := rfl
@[simp] theorem due_parts (e : ErrorInfo) : (d.due e).parts = d.parts := rfl
@[simp] theorem due_wick (e : ErrorInfo) : (d.due e).wick = d.wick := rfl
@[simp] theorem due_reqs (e : ErrorInfo) : (d.due e).reqs = d.reqs := rfl
@[simp] theorem due_links (e : ErrorInfo) : (d.due e).links = d.links := rfl
@[simp] theorem due_xch (e : ErrorInfo) : (d.due e).xch = d.xch := rfl
@[simp] theorem due_train (e : ErrorInfo) : (d.due e).train = d.train := rfl
@[simp] theorem due_lamp (e : ErrorInfo) : (d.due e).lamp = d.lamp := rfl
@[simp] theorem due_power (e : ErrorInfo) : (d.due e).power = d.power := rfl
@[simp] theorem due_paths (e : ErrorInfo) : (d.due e).paths = d.paths := rfl
@[simp] theorem due_errDue (e : ErrorInfo) : (d.due e).errDue = d.errDue ++ [e] := rfl
@[simp] theorem due_free (e : ErrorInfo) : (d.due e).free = d.free := rfl

end Sys2Proof.Machine
end

