-- ==== Sys2Proof/WellFormed.lean ====
section
/-! DEFINITION. Well-formed commands: every operand in the range that the manual gives its field. The meanings are total and
do not rest on it. -/

namespace Sys2Proof

/-- R233: a queue and a 64-bit sequence number. -/
def CmdRef.wf (c : CmdRef) : Bool := decide (c.queue < 256) && decide (c.seq < 2 ^ 64)

/-- R570, R577: device numbers of 14 bits and one of four virtual channels. -/
def Message.wf (m : Message) : Bool := decide (m.src < 16384) && decide (m.dst < 16384) && decide (m.vc < 4)

/-- R570, R571: a flit names buffers that exist. -/
def FlitIn.wf (f : FlitIn) : Bool :=
  decide (f.vc < 4) && decide (f.cls < 2) && decide (f.creditVc < 4) && decide (f.creditCls < 2)

/-- R606: a side-band port and an endpoint ID of MCTP. -/
def SbEnd.wf (e : SbEnd) : Bool := decide (e.port < 2) && decide (e.eid < 256)

/-- R608: the enterprise number is a 4-byte field. -/
def VendorEnd.wf (m : VendorEnd) : Bool := m.src.wf && decide (m.vendor < 2 ^ 32)

/-- R624: a unit class. -/
def UnitId.wf (u : UnitId) : Bool := decide (u.cls < 12) && decide (u.idx < 256)

/-- R37, R347: a page of a tier, a slot of a KV frame. -/
def ZeroTarget.wf : ZeroTarget → Bool
  | .skeinPage p => decide (p < 384)
  | .hbmPage p => decide (p < 524288)
  | .ddrPage p => decide (p < 4194304)
  | .kvSlot part _ slot => decide (part < 14) && decide (slot < 32)

/-- R40, R42: a 4-byte aligned offset in the register space. -/
def regOffset (off : Nat) : Bool := decide (off < 0x2000000) && off % 4 == 0

def Instr.wf : Instr → Bool
  | .NOP c => c.wf
  | .TIMESTAMP c => c.wf
  | .QUEUE_CREATE c => c.wf
  | .QUEUE_DESTROY c => c.wf
  | .QUEUE_RESUME c => c.wf
  | .PART_CREATE c => c.wf
  | .PART_CREATE_REGROW c => c.wf
  | .PART_RELEASE c => c.wf
  | .PART_SHARES c => c.wf
  | .CTX_SAVE c => c.wf
  | .CTX_RESTORE c => c.wf
  | .KILL c => c.wf
  | .RECLAIM c => c.wf
  | .ARR_MATMUL c => c.wf
  | .ARR_STREAM c => c.wf
  | .ARR_CONV c => c.wf
  | .ARR_SHALLOW c => c.wf
  | .ARR_QUAD c => c.wf
  | .ARR_ACC_ZERO c => c.wf
  | .ARR_ACC_LOAD c => c.wf
  | .ARR_ACC_STORE c => c.wf
  | .ARR_ACC_POST c => c.wf
  | .PILOT_WINDOW sp w => decide (sp < 14) && decide (w.slots ≤ 16)
  | .PILOT_RAMP sp => decide (sp < 14)
  | .MEM_COPY c => c.wf
  | .MEM_FILL c => c.wf
  | .MEM_ALLOC c => c.wf
  | .MEM_FREE c => c.wf
  | .MEM_MIGRATE c => c.wf
  | .SEAL c => c.wf
  | .MAP c => c.wf
  | .UNMAP c => c.wf
  | .UNSEAL c => c.wf
  | .UNSEAL_ZERO_DONE region => decide (region < 16)
  | .BACKGROUND_ZERO_DONE t => t.wf
  | .RELEASE_ZERO_DONE part => decide (part < 14)
  | .KV_PAGE_ZERO_DONE part _ => decide (part < 14)
  | .VEC_RUN c => c.wf
  | .VEC_TQ_FLUSH c => c.wf
  | .TQ_POP c => c.wf
  | .TQ_POP_TIMEOUT c => c.wf
  | .WICK_DESC c => c.wf
  | .WICK_DESC_REMOVE c => c.wf
  | .STATS c => c.wf
  | .STATS_T c => c.wf
  | .STATS_S c => c.wf
  | .GRAD c => c.wf
  | .RELEASE c => c.wf
  | .WICK_MERGE c => c.wf
  | .WICK_TOKMAP c => c.wf
  | .REQ_ADMIT c => c.wf
  | .POOL_ADD c => c.wf
  | .POOL_REMOVE c => c.wf
  | .REQ_RELEASE c => c.wf
  | .OPEN c => c.wf
  | .CLOSE c => c.wf
  | .ABORT c => c.wf
  | .PREFILL c => c.wf
  | .SET_BALANCE c => c.wf
  | .ADD_BALANCE c => c.wf
  | .BIND c => c.wf
  | .CONFIG c => c.wf
  | .DRAW c => c.wf
  | .STREAM_DELIVER req => decide (req < 16384)
  | .CONS_READ req => decide (req < 16384)
  | .GRAD_EXCHANGE_CONFIG c => c.wf
  | .SEND c => c.wf
  | .REMOVE c => c.wf
  | .CONTRIB_ARRIVE m => m.wf
  | .STEP_WAIT c => c.wf
  | .DECISION_TICK c => c.wf
  | .ACT_OFFLOAD c => c.wf
  | .ACT_PREFETCH c => c.wf
  | .TRD_NORM c => c.wf
  | .NORM_RESULT group step _ _ => decide (group < 65536) && decide (step < 2 ^ 32)
  | .TRD_UPDATE c => c.wf
  | .TRD_VERIFY c => c.wf
  | .ROOT c => c.wf
  | .STORE c => c.wf
  | .SNAPSHOT_CONFIG x => x.cmd.wf && x.answer.all Message.wf
  | .TAKE c => c.wf
  | .RESTORE_STATE c a => c.wf && a.all Message.wf
  | .RESTORE_LOG c a => c.wf && a.all Message.wf
  | .VOTE c => c.wf
  | .COMMIT_DECIDE c => c.wf
  | .COMMIT_WINDOW_EXPIRE c => c.wf
  | .DECISION_ARRIVE group step attempt decision => decide (group < 65536) && decide (step < 2 ^ 32) && decide (attempt < 2 ^ 32) && decide (decision < 4)
  | .QUERY c => c.wf
  | .LOG_MARK_CONFIG c => c.wf
  | .MARK c => c.wf
  | .LOG_MIRROR_RECEIVE m => m.wf
  | .LOG_ENTRY_SECURED part share _ => decide (part < 14) && decide (share < 2)
  | .BEGIN c => c.wf
  | .END c => c.wf
  | .ABANDON c => c.wf
  | .ROUTE_SET c => c.wf
  | .ROUTE_HOLD_RELEASE dst => decide (dst < 16384)
  | .GROUP_DECLARE c => c.wf
  | .GROUP_REMOVE c => c.wf
  | .LINK_WRITE c => c.wf
  | .CHAIN_REDUCE c => c.wf
  | .LINK_SIGNAL c => c.wf
  | .GROUP_MESSAGE_ARRIVE m => m.wf
  | .COMMIT_MESSAGE_ARRIVE m => m.wf
  | .SPAN_RESET spanId => decide (spanId < 2 ^ 32)
  | .FLIT_RECEIVE port f => decide (port < 8) && f.wf
  | .REPLAY_REQUEST port _ => decide (port < 8)
  | .MESSAGE_FORWARD port cls m => decide (port < 8) && decide (cls < 2) && m.wf
  | .END_TO_END_ACK _ => true
  | .UNREACHABLE _ => true
  | .MESSAGE_LOST_TIMEOUT _ => true
  | .RETRAIN port _ badLane => decide (port < 8) && badLane.all (fun l => decide (l < 9))
  | .RETRAIN_DONE port => decide (port < 8)
  | .RETRAIN_TIMEOUT port => decide (port < 8)
  | .GROUP_WINDOW_ACCESS slot offset x =>
    decide (slot < 8) && decide (offset + x.len ≤ 0x200000000) && offset % 4 == 0 && (x.len == 4 || x.len == 8) &&
      x.write.all (fun b => b.length == x.len)
  | .QUEUE_WINDOW_ACCESS queue offset _ _ => decide (queue < 256) && decide (offset < 0x800000)
  | .HOST_PATH_UP _ _ => true
  | .MSIX_COALESCED_SEND vector => decide (vector < 2048)
  | .HOST_PERST_N _ _ => true
  | .SUBMISSION_DOORBELL head _ => head.toNat / 2 ^ 8 == 0
  | .COMPLETION_DOORBELL head _ => head.toNat / 2 ^ 8 == 1
  | .SUBMISSION queue => decide (queue < 256)
  | .DISPATCH queue => decide (queue < 256)
  | .WAIT_TIMEOUT queue => decide (queue < 256)
  | .RERUN_ISSUE c => c.wf
  | .COMMAND_COMMIT c => c.wf
  | .CHAIN_COMMIT sp _ => decide (sp < 14)
  | .RECORD_WRITE queue => decide (queue < 256)
  | .DEVICE_TICK => true
  | .REFCLK_LOST => true
  | .REFCLK_RETURN => true
  | .CD_REFCLK_LOST clock => decide (clock < 3)
  | .TICK_LO_READ _ => true
  | .TOKEN_LO_READ _ => true
  | .COUNTER_LO_READ _ _ => true
  | .REGISTER_WRITE _ offset _ => regOffset offset
  | .SKN_QUOTA_WRITE _ part kind _ => decide (part < 14) && decide (kind < 3)
  | .CE_CLR _ => true
  | .PILOT_CFG_WRITE _ sp _ => decide (sp < 14)
  | .DEV_NUM_WRITE _ _ => true
  | .PORT_ENABLE_WRITE _ port _ => decide (port < 8)
  | .RESTART _ => true
  | .RECOVERY_DATA_WRITE _ _ => true
  | .SB_COMMAND_PACKET m _ => m.wf
  | .SB_REGISTER_READ m tag addr words =>
    m.wf && decide (tag < 256) && decide (addr < 2 ^ 64) && decide (1 ≤ words) && decide (words ≤ 16)
  | .SB_REGISTER_WRITE m tag addr _ =>
    m.wf && decide (tag < 256) && decide (addr < 2 ^ 64)
  | .SB_CONTINUATION m offset data =>
    m.wf && decide (offset < 2 ^ 32) && decide (1 ≤ data.length) && decide (data.length ≤ 1024)
  | .CONTINUATION_TIMEOUT => true
  | .GET_VENDOR_DEFINED_MESSAGE_SUPPORT src => src.wf
  | .ALERT_SEND port => decide (port < 2)
  | .ATTEST_REPORT c => c.wf
  | .EXTEND c => c.wf
  | .DEVREC_READ c => c.wf
  | .DEVREC_INSTALL c => c.wf
  | .TELEMETRY c => c.wf
  | .TELEMETRY_SAMPLE _ _ => true
  | .ERRQ_READ c => c.wf
  | .POWER_CAP c => c.wf
  | .ERROR_TAKEN e => e.unit.wf
  | .UNIT_RESTART_DONE u => u.wf
  | .RECOVERY_TIMEOUT u => u.wf
  | .WATCHDOG c => c.wf
  | .LOCKSTEP_FAULT => true
  | .STANDBY_POWER_UP _ => true
  | .POWER_GOOD_TIMEOUT => true
  | .SB_RST_N _ => true
  | .INPUT_STUCK input => decide (input < 2)
  | .INPUT_CHATTER input => decide (input < 2)
  | .POWER_EVAL _ => true
  | .PWR_BRAKE_N _ => true
  | .THERMAL_COMPARE _ => true
  | .THERMAL_TRIP source _ _ => decide (source < 5)
  | .POWER_GOOD_LOST rail => decide (rail < 3)
  | .FULL_TRAINING_DONE port badLanes => decide (port < 8) && badLanes.all (fun l => decide (l < 9))
  | .HOST_PATH_DOWN _ => true
  | .STANDBY_POWER_LOSS => true
  | .SERVING_A_BUDDY _ src _ => decide (src < 16384)
  | .COMMIT_TABLE_QUERY src group step => decide (src < 16384) && decide (group < 65536) && decide (step < 2 ^ 32)
  | .LINK_WRITE_DATA_ARRIVE m => m.wf
  | .MSIX_VECTOR_UNMASK vector => decide (vector < 2048)
  | .DOWN_ACCESS_READ _ offset => regOffset offset
  | .UNSECURED_ENTRY_TIMEOUT c => c.wf

end Sys2Proof
end

