-- ==== Sys2Proof/Tests/Slice0.lean ====
section
/-! SUPPORT. Tests: ill-formed commands that the check refuses, single commands on small states with the results that the
manual's text gives, and for every statement with hypotheses a state and operands that meet them. -/

namespace Sys2Proof.Tests

set_option Elab.async false

open Sys2Proof.Machine

/-! ### Small states -/

/-- Partition 0 of the small states: active with Spindles 0 and 1, two pages of Skein, of HBM and of DDR5 mapped as data, one
Skein page for the Wick and two KV pages. -/
def part0 : Partition :=
  { Partition.off with
    state := .active, spindles := [0, 1], quotaSkein := 376, quotaWick := 8, quotaHbm := 8, quotaDdr := 8, kvFrames := [514]
    pt := [(32, ⟨paOf .skein 8, .data⟩), (64, ⟨paOf .skein 9, .data⟩), (96, ⟨paOf .hbm 512, .data⟩),
      (128, ⟨paOf .hbm 513, .data⟩), (160, ⟨paOf .ddr 0, .data⟩), (192, ⟨paOf .ddr 1, .data⟩),
      (224, ⟨paOf .skein 10, .wick⟩), (256, ⟨paOf .hbm 514, .kv⟩), (257, ⟨paOf .hbm 514 + 65536, .kv⟩)] }

/-- A powered block with partition 0, 1,024 pages of HBM and 16 of DDR5. -/
def base : Dev :=
  { Dev.initial with
    clk := { Clock.reset with standby := true, refPresent := true }
    parts := { Dev.initial.parts with p := [(0, part0)] }
    mem := { Mem.reset with
      hbmPages := 1024, ddrPages := 16, skein := [(8, .mapped 0), (9, .mapped 0), (10, .mapped 0)]
      hbm := [(512, .mapped 0), (513, .mapped 0), (514, .kvFrame 0)], ddr := [(0, .mapped 0), (1, .mapped 0)] } }

/-- The header of packet 1 of queue 2, in partition 0. -/
def hdr (op : Nat) : Header := ⟨op, 0, 1, 0, 0, 2, true, 1, 0xFF, 0xFF, 0xFF, 0, 0, 0, 0, 0⟩

/-- Packet 1 of queue 2 in a phase. -/
def pkAt (op : Nat) (p : Payload) (ph : Phase) : Entry :=
  { hdr := hdr op, payload := p, bytes := [], phase := ph, reruns := 0, issued := false, yielded := false, ce := false,
    order := 1, since := 1, wc := 0, headSince := none, lapsed := false, submitted := 0, accepted := 0, heldBy := none, chain := none, room := 0,
    reqRecords := [] }

/-- The packet, dispatched. -/
def pk (op : Nat) (p : Payload) : Entry := pkAt op p .dispatched

def one : CmdRef := ⟨2, 1⟩

/-- Queue 2, running, with its packets. -/
def queueOf (es : List Entry) : Queue := { Queue.off with state := .running, entries := es }

/-- The block `d`, whose queues lie above 2, with the packet `e` in queue 2. -/
def on (d : Dev) (e : Entry) : State := ⟨{ d with qs := { d.qs with q := (2, queueOf [e]) :: d.qs.q } }, []⟩

theorem live_on {d : Dev} (e : Entry) (hl : d.live = []) : (on d e).dev.live = [(2, e)] := by
  have : d.qs.q.flatMap (fun kv => kv.2.entries.map (fun e => (kv.1, e))) = [] := hl
  simp [Dev.live, on, queueOf, this]

theorem ready_on {d : Dev} (op : Nat) (p : Payload) (h : d.errDue = []) (hl : d.live = []) : Ready (on d (pk op p)) one (pk op p) :=
  ⟨rfl, rfl, by simp [Dev.rootHolds, live_on _ hl, pk, pkAt], h⟩

theorem part_on {d : Dev} (op : Nat) (p : Payload) (h : d.errDue = []) (hl : d.live = []) :
    ReadyPart (on d (pk op p)) one (pk op p) :=
  ⟨ready_on op p h hl, by unfold Dev.partBusy; split <;> simp [live_on _ hl, pk, pkAt]⟩

theorem request_on {d : Dev} (op : Nat) (p : Payload) (h : d.errDue = []) (hl : d.live = []) :
    ReadyRequest (on d (pk op p)) one (pk op p) :=
  ⟨ready_on op p h hl, by simp [Dev.reqBusy, live_on _ hl, pk, pkAt]⟩

theorem die_on {d : Dev} (op : Nat) (p : Payload) (h : d.errDue = []) (hl : d.live = []) :
    ReadyDie (on d (pk op p)) one (pk op p) :=
  ⟨ready_on op p h hl, by simp [Dev.dieFree, live_on _ hl, pk, pkAt]⟩

theorem array_on {d : Dev} (op : Nat) (p : Payload) (h : d.errDue = []) (hl : d.live = []) (hs : (on d (pk op p)).dev.spindleOf (pk op p) = 0)
    (hi : (on d (pk op p)).dev.accIssue 0 (pk op p) = some [])
    (hr : (arrJobs p).any (fun j => (on d (pk op p)).dev.segmentBreach 0 j.1 j.2) = false) :
    ReadyArray (on d (pk op p)) one (pk op p) 0 (on d (pk op p)).dev (pk op p) :=
  ⟨ready_on op p h hl, hs, ⟨[], hi, by simp [Dev.joinChain]⟩, hr, rfl⟩

/-- A run that reached its end. -/
def ranOk {α : Type} (r : EStateM.Result Fail Ctx α) : Bool :=
  match r with
  | .ok _ _ => true
  | .error _ _ => false

theorem ranOk_ok {α : Type} {r : EStateM.Result Fail Ctx α} (h : ranOk r = true) : ∃ k x, r = .ok k x := by
  cases r with
  | ok k x => exact ⟨k, x, rfl⟩
  | error _ _ => cases h

theorem ranOk_bind {α β : Type} {m : Run α} {f : α → Run β} {x : Ctx} (h : ranOk ((m >>= f) x) = true) :
    ∃ a y, m x = .ok a y ∧ ranOk (f a y) = true := by
  rw [run_bind] at h
  cases hm : m x with
  | ok a y => rw [hm] at h; exact ⟨a, y, rfl, h⟩
  | error _ _ => rw [hm] at h; cases h

/-- A run that reached its end and left its context as it was. -/
def stays {α : Type} (r : EStateM.Result Fail Ctx α) (x : Ctx) : Bool :=
  match r with
  | .ok _ y => decide (y = x)
  | .error _ _ => false

theorem stays_ok {α : Type} {r : EStateM.Result Fail Ctx α} {x : Ctx} (h : stays r x = true) : ∃ v, r = .ok v x := by
  cases r with
  | ok v y => exact ⟨v, by rw [of_decide_eq_true h]⟩
  | error _ _ => cases h

theorem mapM_stays {α β : Type} {f : α → Run β} {x : Ctx} (l : List α) (h : ∀ a ∈ l, ∃ v, f a x = .ok v x) :
    ∃ vs, l.mapM f x = .ok vs x := by
  induction l with
  | nil => exact ⟨[], rfl⟩
  | cons a t ih =>
    obtain ⟨v, hv⟩ := h a (by simp)
    obtain ⟨vs, hvs⟩ := ih (fun b hb => h b (by simp [hb]))
    exact ⟨v :: vs, by rw [List.mapM_cons, run_bind_ok hv, run_bind_ok hvs]; rfl⟩

/-- Actions of which each ends well from a context with a property that it keeps. -/
theorem forM_ok {α : Type} {f : α → Run PUnit} {P : Ctx → Prop} (l : List α)
    (h : ∀ a ∈ l, ∀ x, P x → ∃ y, f a x = .ok ⟨⟩ y ∧ P y) (x : Ctx) (hx : P x) : ∃ y, l.forM f x = .ok ⟨⟩ y ∧ P y := by
  induction l generalizing x with
  | nil => exact ⟨x, rfl, hx⟩
  | cons a t ih =>
    obtain ⟨y, hy, hp⟩ := h a (by simp) x hx
    obtain ⟨z, hz, hq⟩ := ih (fun b hb => h b (by simp [hb])) y hp
    exact ⟨z, by change (f a >>= fun _ => t.forM f) x = _; rw [run_bind_ok hy, hz], hq⟩

theorem two_ok {α β : Type} {m : Run α} {f : α → Run β} {x : Ctx} (h : ranOk ((m >>= f) x) = true) :
    ∃ a b y z, m x = .ok a y ∧ f a y = .ok b z := by
  obtain ⟨a, y, ha, h⟩ := ranOk_bind h
  obtain ⟨b, z, hb⟩ := ranOk_ok h
  exact ⟨a, b, y, z, ha, hb⟩

theorem three_ok {α β γ : Type} {m : Run α} {f : Run β} {g : α → β → Run γ} {x : Ctx}
    (h : ranOk ((m >>= fun a => f >>= fun b => g a b) x) = true) :
    ∃ a b u y z w, m x = .ok a y ∧ f y = .ok b z ∧ g a b z = .ok u w := by
  obtain ⟨a, y, ha, h⟩ := ranOk_bind h
  obtain ⟨b, z, hb, h⟩ := ranOk_bind h
  obtain ⟨u, w, hu⟩ := ranOk_ok h
  exact ⟨a, b, u, y, z, w, ha, hb, hu⟩
/-! ### Hypotheses that are met: queues and clocks -/

theorem witness_SimplePacketsComplete :
    (∃ s c e, Ready s c e ∧ e.payload = .nop) ∧ (∃ s c e, Ready s c e ∧ e.payload = .timestamp) :=
  ⟨⟨on base (pk 0 .nop), one, _, ready_on _ _ rfl rfl, rfl⟩, ⟨on base (pk 1 .timestamp), one, _, ready_on _ _ rfl rfl, rfl⟩⟩

/-- Rings that meet end to end. -/
theorem witness_QueueCreateCompletes : ∃ s c e q part sz cz share vec attr sqVa cqVa first r, Ready s c e ∧
    e.payload = .queueCreate q part sz cz share vec attr sqVa cqVa first r ∧
    let d := s.dev.claimed
    d.hasQueue q = false ∧ (d.queuesOf part).length < 64 ∧ d.ringRangeOk part sqVa (64 * 2 ^ sz) = true ∧
    d.ringRangeOk part cqVa (32 * 2 ^ cz) = true ∧ (sqVa + 64 * 2 ^ sz ≤ cqVa ∨ cqVa + 32 * 2 ^ cz ≤ sqVa) :=
  ⟨on base (pk 2 (.queueCreate 255 0 4 5 1 0 0 0x200000 0x200400 0 true)), one, _, 255, 0, 4, 5, 1, 0, 0, 0x200000, 0x200400, 0,
    true, ready_on _ _ rfl rfl, rfl, rfl, by decide, by decide, by decide, by decide⟩

/-- A block whose queue 3 stands in a state, empty. -/
def withQueue3 (st : QState) : Dev :=
  { base with qs := { base.qs with q := [(3, { Queue.off with state := st, head := 4, tail := 4 })] } }

theorem witness_QueueDestroyCompletes :
    (∃ s c e q mode r, Ready s c e ∧ e.payload = .queueDestroy q mode r ∧ 2 ≤ q ∧ (s.dev.queue q).state ≠ .disabled) ∧
    (∃ s c e q mode r n res, AtStage s c e n res ∧ e.payload = .queueDestroy q mode r ∧
      (s.dev.flushAll q false false).dev.errDue = [] ∧ (s.dev.flushAll q false false).dev.recordsWritten q c = true ∧
      ((s.dev.flushAll q false false).bad = true ∨ (s.dev.flushAll q false false).dev.fetch q = none)) :=
  ⟨⟨on (withQueue3 .running) (pk 3 (.queueDestroy 3 1 true)), one, _, 3, 1, true, ready_on _ _ rfl rfl, rfl, by decide, by decide⟩,
    ⟨on (withQueue3 .running) (pkAt 3 (.queueDestroy 3 0 true) (.running (.stage 1 Result.fresh))), one, _, 3, 0, true, 1, _,
      ⟨rfl, rfl⟩, rfl, rfl, by decide, .inr (by decide)⟩⟩

theorem witness_QueueResumeCompletes :
    (∃ s c e q head seq r, Ready s c e ∧ e.payload = .queueResume q 0 head seq r ∧ (s.dev.queue q).state = .halted ∧
      (s.dev.queue q).badHeader = false ∧ s.dev.queueStopped q = false) ∧
    (∃ s c e q head seq r f d, Ready s c e ∧ e.payload = .queueResume q 1 head seq r ∧ (s.dev.queue q).state = .halted ∧
      (s.dev.queue q).badHeader = false ∧ s.dev.queueStopped q = false ∧ s.dev.flushTo q (s.dev.queue q).tail = f ∧
      f.bad = false ∧ f.dev.toStage c 1 { Result.fresh with c0 := f.flushed, c1 := (s.dev.queue q).tail } = d ∧
      d.recordsWritten q c = true ∧ (d.queue q).head = (s.dev.queue q).tail ∧ d.errDue = []) ∧
    (∃ s c e q head seq r d, Ready s c e ∧ e.payload = .queueResume q 2 head seq r ∧ (s.dev.queue q).state = .halted ∧
      s.dev.queueStopped q = false ∧
      (s.dev.flushWaiting q false).toStage c 1 { Result.fresh with c0 := s.dev.waitingIn q, c1 := (s.dev.queue q).tail } = d ∧
      d.recordsWritten q c = true ∧ d.errDue = []) :=
  ⟨⟨on (withQueue3 .halted) (pk 4 (.queueResume 3 0 0 0 true)), one, _, 3, 0, 0, true, ready_on _ _ rfl rfl, rfl, rfl, rfl,
      by decide⟩,
    ⟨on (withQueue3 .halted) (pk 4 (.queueResume 3 1 0 0 true)), one, _, 3, 0, 0, true, _, _, ready_on _ _ rfl rfl, rfl, rfl, rfl,
      by decide, rfl, by decide, rfl, by decide, by decide, by decide⟩,
    ⟨on (withQueue3 .halted) (pk 4 (.queueResume 3 2 4 1 true)), one, _, 3, 4, 1, true, _, ready_on _ _ rfl rfl, rfl, rfl,
      by decide, rfl, by decide, by decide⟩⟩
/-! ### Hypotheses that are met: partitions -/

/-- A block whose partition 1 is as given. -/
def withPart1 (x : Partition) : Dev := { base with parts := { base.parts with p := [(0, part0), (1, x)] } }

/-- A saved partition 1 with one Skein page and one rank. -/
def savedPart : Partition :=
  { Partition.off with state := .saved, quotaSkein := 1, saved := ⟨[520, 521, 522], [(32, [(0, 1)])], [[]], [([], 0)]⟩ }

theorem witness_PartCreateCompletes :
    (∃ s c e part w share attr spanId n iova r l, ReadyPart s c e ∧ e.payload = .partCreate part w share attr spanId n iova r ∧
      let d := s.dev.claimed
      (d.part part).state = .free ∧ bit attr 1 = false ∧ d.freeSpindles.take w = l ∧ l.length = w) ∧
    (∃ s c e part w share attr spanId n iova r l list, ReadyPart s c e ∧
      e.payload = .partCreate part w share attr spanId n iova r ∧
      let d := s.dev.claimed
      (d.part part).state = .free ∧ bit attr 1 = true ∧ d.freeSpindles.take w = l ∧ l.length = w ∧ d.links.hostUp = true ∧
      list = (List.range n).map (fun i => leAt (getBytes d.mem.host iova (2 * n)) (2 * i) 2) ∧ d.links.devNum ∈ list) ∧
    (∃ s c e part w r l, ReadyPart s c e ∧ e.payload = .partRegrow part w r ∧
      let d := s.dev.claimed
      (d.part part).state = .reclaimed ∧ d.freeSpindles.take w = l ∧ l.length = w) ∧
    (∃ s c e p share r, ReadyPart s c e ∧ e.payload = .partShares 0 p share r) ∧
    (∃ s c e q share r, ReadyPart s c e ∧ e.payload = .partShares 1 q share r ∧ 2 ≤ q ∧ s.dev.claimed.hasQueue q = true) :=
  ⟨⟨on base (pk 0x10 (.partCreate 13 12 1 0 0 0 0 true)), one, _, 13, 12, 1, 0, 0, 0, 0, true, _, part_on _ _ rfl rfl, rfl, rfl,
      by decide, rfl, by decide⟩,
    ⟨on { base with links := { base.links with hostUp := true } } (pk 0x10 (.partCreate 1 1 1 2 7 1 0 true)), one, _, 1, 1, 1, 2, 7,
      1, 0, true, _, _, part_on _ _ rfl rfl, rfl, rfl, by decide, rfl, by decide, rfl, rfl, by decide⟩,
    ⟨on (withPart1 { Partition.off with state := .reclaimed }) (pk 0x10 (.partRegrow 1 2 true)), one, _, 1, 2, true, _,
      part_on _ _ rfl rfl, rfl, rfl, rfl, by decide⟩,
    ⟨on base (pk 0x12 (.partShares 0 0 255 true)), one, _, 0, 255, true, part_on _ _ rfl rfl, rfl⟩,
    ⟨on base (pk 0x12 (.partShares 1 2 1 true)), one, _, 2, 1, true, part_on _ _ rfl rfl, rfl, by decide, by decide⟩⟩

/-- The target of a KILL: one command, a queue or a partition. -/
def killTargetIs (s : State) (scope queue part seq : Nat) : Prop :=
  match scope with
  | 0 => (s.dev.entry ⟨queue, seq⟩).isSome = true
  | 1 => s.dev.hasQueue queue = true
  | _ => (s.dev.part part).state ≠ .free

/-- A KILL of a command, of queue 2, which it halts, and of partition 0. -/
theorem witness_KillCompletes :
    (∃ s c e queue part halt seq r, ReadyPart s c e ∧ e.payload = .kill 0 queue part halt seq r ∧ killTargetIs s 0 queue part seq) ∧
    (∃ s c e queue part halt seq r, ReadyPart s c e ∧ e.payload = .kill 1 queue part halt seq r ∧ killTargetIs s 1 queue part seq) ∧
    (∃ s c e queue part halt seq r, ReadyPart s c e ∧ e.payload = .kill 2 queue part halt seq r ∧ killTargetIs s 2 queue part seq) :=
  ⟨⟨on base (pk 0x15 (.kill 0 2 0 0 1 true)), one, _, 2, 0, 0, 1, true, part_on _ _ rfl rfl, rfl, rfl⟩,
    ⟨on base (pk 0x15 (.kill 1 2 0 1 0 true)), one, _, 2, 0, 1, 0, true, part_on _ _ rfl rfl, rfl, rfl⟩,
    ⟨on base (pk 0x15 (.kill 2 0 0 0 0 true)), one, _, 0, 0, 0, 0, true, part_on _ _ rfl rfl, rfl,
      show (_ : PartState) ≠ .free from by decide⟩⟩

/-- CTX_SAVE after its first visit, its save area taken. -/
def savingAt (area : List Nat) : Phase := .running (.stage 1 { Result.fresh with effects := [.ctxSaved 0 ⟨area, [], [], []⟩] })

theorem witness_ContextCommandsComplete :
    (∃ s c e part r, ReadyPart s c e ∧ e.payload = .ctxSave part r ∧ (s.dev.part part).state = .active ∧
      (s.dev.claimed.mem.freePages .hbm (fun _ => true) (s.dev.part part).areaPages).length = (s.dev.part part).areaPages) ∧
    (∃ s c e part r area, AtStage s c e 1 { Result.fresh with effects := [.ctxSaved part ⟨area, [], [], []⟩] } ∧
      s.dev.errDue = [] ∧ e.payload = .ctxSave part r ∧
      s.dev.live.any (fun x => x.2.hdr.part == part && x.2.ref != c && x.2.isRan) = false ∧ (s.dev.part part).forerunner = true) ∧
    (∃ s c e part r area pages x, AtStage s c e 1 { Result.fresh with effects := [.ctxSaved part ⟨area, [], [], []⟩] } ∧
      s.dev.errDue = [] ∧ e.payload = .ctxSave part r ∧
      s.dev.live.any (fun x => x.2.hdr.part == part && x.2.ref != c && x.2.isRan) = false ∧
      (s.dev.part part).forerunner = false ∧
      ((s.dev.part part).skeinData.mapM (fun kv => do return (kv.1, ← readPage kv.2.pa)) : Run (List (Nat × List Host.Cell)))
        (.start s.dev c e) = .ok pages x) ∧
    (∃ s c e part va r l, ReadyPart s c e ∧ e.payload = .ctxRestore part 0 va r ∧
      let d := s.dev.claimed
      let x := d.part part
      x.state = .saved ∧ d.freeSpindles.take x.saved.acc.length = l ∧ l.length = x.saved.acc.length ∧
      d.skeinSum - x.wickUsed + x.quotaSkein ≤ 376 ∧
      (d.mem.freePages .skein (fun _ => true) x.saved.pages.length).length = x.saved.pages.length) :=
  ⟨⟨on base (pk 0x13 (.ctxSave 0 true)), one, _, 0, true, part_on _ _ rfl rfl, rfl, rfl, by decide⟩,
    ⟨on (withPart1 { Partition.off with state := .active, forerunner := true })
      (pkAt 0x13 (.ctxSave 1 true) (.running (.stage 1 { Result.fresh with effects := [.ctxSaved 1 ⟨[], [], [], []⟩] }))), one, _, 1,
      true, [], ⟨rfl, rfl⟩, rfl, rfl, by decide, rfl⟩,
    ⟨on base (pkAt 0x13 (.ctxSave 0 true) (savingAt [515, 516])), one, _, 0, true, [515, 516], _, _, ⟨rfl, rfl⟩, rfl, rfl,
      by decide, rfl, rfl⟩,
    ⟨on { base with parts := { base.parts with p := [(1, savedPart)] } } (pk 0x14 (.ctxRestore 1 0 0 true)), one, _, 1, 0, true, _,
      part_on _ _ rfl rfl, rfl, rfl, rfl, by decide, by decide, by decide⟩⟩

/-- A block whose partition 1 keeps a snapshot set with one generation, of an earlier step than the one applied. -/
def withSnap : Dev :=
  { base with
    parts := { base.parts with p := [(0, part0), (1, { Partition.off with state := .active })] }
    train := { Training.reset with p := [(1, { Train.reset with
      step := 1
      snap := some ⟨⟨0, 0, 0, 2, 3, 0, 0, 0, 0xFFFF, true⟩, 0, [], [], [⟨1, 0, 0, 0⟩], [], none, none⟩ })] } }

theorem witness_ReclaimCompletes :
    (∃ s c e part snap r, ReadyPart s c e ∧ e.payload = .reclaim part snap r ∧
      ((s.dev.part part).state = .active ∨ (s.dev.part part).state = .saved)) ∧
    (∃ s c e part snap r res, AtStage s c e 1 res ∧ e.payload = .reclaim part snap r ∧ s.dev.partQuiet c part = true ∧
      s.dev.reclaimTakes part snap = none) ∧
    (∃ s c e part snap r res n, AtStage s c e 1 res ∧ e.payload = .reclaim part snap r ∧ s.dev.partQuiet c part = true ∧
      s.dev.reclaimTakes part snap = some n) ∧
    (∃ s : State, ∃ c e part snap r sent own res, s.dev.entry c = some e ∧ e.phase = .running (.coll sent own res) ∧
      e.payload = .reclaim part snap r ∧ s.dev.awaits c = false) ∧
    (∃ s c e part snap r res, AtStage s c e 3 res ∧ e.payload = .reclaim part snap r) ∧
    (∃ s c e part snap r res, AtStage s c e 4 res ∧ e.payload = .reclaim part snap r ∧ s.dev.stillZeroing part = false) :=
  ⟨⟨on (withPart1 savedPart) (pk 0x16 (.reclaim 1 1 true)), one, _, 1, 1, true, part_on _ _ rfl rfl, rfl, .inr rfl⟩,
    ⟨on base (pkAt 0x16 (.reclaim 0 1 true) (.running (.stage 1 Result.fresh))), one, _, 0, 1, true, _, ⟨rfl, rfl⟩, rfl, by decide,
      rfl⟩,
    ⟨on withSnap (pkAt 0x16 (.reclaim 1 1 true) (.running (.stage 1 Result.fresh))), one, _, 1, 1, true, _, _, ⟨rfl, rfl⟩, rfl,
      by decide, rfl⟩,
    ⟨on withSnap (pkAt 0x16 (.reclaim 1 1 true) (.running (.coll true (leBytes 4 0) Result.fresh))), one, _, 1, 1, true, _, _, _, rfl,
      rfl, rfl, by decide⟩,
    ⟨on base (pkAt 0x16 (.reclaim 0 0 true) (.running (.stage 3 Result.fresh))), one, _, 0, 0, true, _, ⟨rfl, rfl⟩, rfl⟩,
    ⟨on base (pkAt 0x16 (.reclaim 0 0 true) (.running (.stage 4 Result.fresh))), one, _, 0, 0, true, _, ⟨rfl, rfl⟩, rfl, by decide⟩⟩

theorem witness_PartReleaseCompletes :
    (∃ s c e part r, ReadyPart s c e ∧ e.payload = .partRelease part r ∧ (s.dev.part part).state ≠ .free) ∧
    (∃ s c e part r res, AtStage s c e 1 res ∧ e.payload = .partRelease part r ∧ s.dev.partQuiet c part = true) ∧
    (∃ s c e part r res, AtStage s c e 4 res ∧ e.payload = .partRelease part r ∧ s.dev.stillZeroing part = false) :=
  ⟨⟨on base (pk 0x11 (.partRelease 0 true)), one, _, 0, true, part_on _ _ rfl rfl, rfl, by decide⟩,
    ⟨on base (pkAt 0x11 (.partRelease 0 true) (.running (.stage 1 Result.fresh))), one, _, 0, true, _, ⟨rfl, rfl⟩, rfl, by decide⟩,
    ⟨on base (pkAt 0x11 (.partRelease 0 true) (.running (.stage 4 Result.fresh))), one, _, 0, true, _, ⟨rfl, rfl⟩, rfl, by decide⟩⟩
/-! ### Hypotheses that are met: the array -/

/-- One row of FP16 at the first page, of one element; and a row of any length whose every row is the first (stride 0). -/
def fp16Desc : Desc := ⟨0x200000, 0, 64, 0, 1, 0, 0, 0⟩
def noDesc : Desc := ⟨0, 0, 0, 0, 0, 0, 0, 0⟩
def flatDesc : Desc := ⟨0x400000, 0, 0, 0, 0, 0, 0, 0⟩

/-- A 1 × 1 product of one FP16 pair, into tile 0, kept there; its drain goes to the second page where `drain` is 1. -/
def tiny (drain : Nat) : Matmul := ⟨fp16Desc, fp16Desc, 1, 1, 1, 0, 0, 0, drain, 0, 0, 0, if drain = 1 then flatDesc else noDesc⟩

def tinyGeom : ConvGeom := ⟨1, 1, 1, 1, 1, 1, 1, 1, 1, 1, 0, 0, 0, 0, 0, 1, 0, 1⟩

def tinyQuad : QuadBlock := ⟨fp16Desc, fp16Desc, 1, 1, 1, 0, 15, 0⟩

theorem witness_ArrayProductsComplete :
    (∃ s c e sp d e' p, ReadyArray s c e sp d e' ∧ e.payload = .arrMatmul p ∧
      let j := matmulJob p false
      ∃ a b u x y z, p.a.readMat accFeeder p.m p.k (.start d c e') = .ok a x ∧ p.b.readMat accFeeder p.n p.k x = .ok b y ∧
        j.drainRows e' (j.compute (j.found d sp j.named) j.half a b) y = .ok u z) ∧
    (∃ s c e sp d e' p, ReadyArray s c e sp d e' ∧ e.payload = .arrStream p ∧
      let j := matmulJob p true
      ∃ a b u x y z, p.a.readMat accFeeder p.m p.k (.start d c e') = .ok a x ∧ p.b.readMat accFeeder p.n p.k x = .ok b y ∧
        j.drainRows e' (j.compute (j.found d sp j.named) j.half a b) y = .ok u z) ∧
    (∃ s c e sp d e' p, ReadyArray s c e sp d e' ∧ e.payload = .arrShallow p ∧
      let j := shallowJob p
      ∃ a b u x y z, p.a.readMat accFeeder p.m p.k (.start d c e') = .ok a x ∧ p.b.readMat accFeeder p.n p.k x = .ok b y ∧
        j.drainRows e' (j.compute (j.found d sp j.named) j.half a b) y = .ok u z) ∧
    (∃ s c e sp d e' m f g ctl ab fo dr seed wid o r, ReadyArray s c e sp d e' ∧
      e.payload = .arrConv m f g ctl ab fo dr seed wid o r ∧
      let j := convJob g ctl ab fo dr seed wid o
      ∃ a b u x y z, ((List.range g.mCount).mapM (convRowAt m g)) (.start d c e') = .ok a x ∧
        f.readMat accFeeder g.n j.k x = .ok b y ∧
        j.drainRows e' (j.compute (j.found d sp j.named) j.half a b) y = .ok u z) :=
  ⟨⟨on base (pk 0x20 (.arrMatmul (tiny 0))), one, _, 0, _, _, tiny 0,
      array_on _ _ rfl rfl rfl (by decide +kernel) (by decide +kernel), rfl, three_ok (by decide +kernel)⟩,
    ⟨on base (pk 0x21 (.arrStream (tiny 1))), one, _, 0, _, _, tiny 1,
      array_on _ _ rfl rfl rfl (by decide +kernel) (by decide +kernel), rfl, three_ok (by decide +kernel)⟩,
    ⟨on base (pk 0x23 (.arrShallow (tiny 1))), one, _, 0, _, _, tiny 1,
      array_on _ _ rfl rfl rfl (by decide +kernel) (by decide +kernel), rfl, three_ok (by decide +kernel)⟩,
    ⟨on base (pk 0x22 (.arrConv fp16Desc fp16Desc tinyGeom 0 0 0 0 0 0 noDesc true)), one, _, 0, _, _, fp16Desc, fp16Desc, tinyGeom,
      0, 0, 0, 0, 0, 0, noDesc, true, array_on _ _ rfl rfl rfl (by decide +kernel) (by decide +kernel), rfl,
      three_ok (by decide +kernel)⟩⟩

theorem witness_QuadCompletes :
    (∃ s c e sp d e' mode mask seed blocks r, ReadyArray s c e sp d e' ∧ e.payload = .arrQuad mode mask seed blocks r ∧
      ∃ k x, runQuad sp mode mask seed blocks (.start d c e') = .ok k x) ∧
    (∃ s c e sp d e' mode mask seed blocks r b j, ReadyArray s c e sp d e' ∧ e.payload = .arrQuad mode mask seed blocks r ∧
      quadJobs mode mask seed blocks = [(b, j)] ∧
      ∃ av bv x y, b.a.readMat accFeeder b.m b.k (.start d c e') = .ok av x ∧ b.b.readMat accFeeder b.n b.k x = .ok bv y) :=
  ⟨⟨on base (pk 0x24 (.arrQuad 0 8 0 [tinyQuad, tinyQuad, tinyQuad, tinyQuad] true)), one, _, 0, _, _, 0, 8, 0, _, true,
      array_on _ _ rfl rfl rfl (by decide +kernel) (by decide +kernel), rfl, ranOk_ok (by decide +kernel)⟩,
    ⟨on base (pk 0x24 (.arrQuad 0 8 0 [tinyQuad, tinyQuad, tinyQuad, tinyQuad] true)), one, _, 0, _, _, 0, 8, 0, _, true, _, _,
      array_on _ _ rfl rfl rfl (by decide +kernel) (by decide +kernel), rfl, rfl, two_ok (by decide +kernel)⟩⟩

/-- ARR_ACC of the FP32 image of tile 15, whose rows all stand at one address. -/
def accPk (op : Nat) : Entry := pk 0x25 (.arrAcc op 15 1 0 flatDesc true)

theorem acc_on (op : Nat) (h : (on base (accPk op)).dev.accIssue 0 (accPk op) = some []) :
    ReadyArray (on base (accPk op)) one (accPk op) 0 (on base (accPk op)).dev (accPk op) :=
  array_on _ _ rfl rfl rfl h rfl

def accStart (op : Nat) : Ctx := .start (on base (accPk op)).dev one (accPk op)

theorem load_row (i : Nat) : ∃ cs, flatDesc.readAs { accDrain with write := false } i 256 (accFmt 0) (accStart 1) =
    .ok cs (accStart 1) := by
  have h : flatDesc.readAs { accDrain with write := false } i 256 (accFmt 0) =
      (do return rowCodes 0 256 (← readVa { accDrain with write := false } 0x400000 1024)) := by
    simp [Desc.readAs, Desc.readRow, flatDesc, Desc.xpose, bit, Desc.readAt, Desc.host, isMx, rowBytes, elemBits,
      ceilDiv, accFmt]
  obtain ⟨b, hb⟩ := stays_ok (x := accStart 1) (r := readVa { accDrain with write := false } 0x400000 1024 (accStart 1))
    (by decide +kernel)
  rw [h]
  exact ⟨_, run_bind_ok hb⟩

/-- A row of 256 codes of FP32 is written at the one address from any context of the block. -/
theorem store_row (i : Nat) (cs : List Nat) (hn : cs.length = 256) (x : Ctx)
    (hx : x.dev = (accStart 2).dev ∧ x.entry = (accStart 2).entry) :
    ∃ y, flatDesc.writeFrom accDrain i (accFmt 0) cs x = .ok ⟨⟩ y ∧ y.dev = (accStart 2).dev ∧ y.entry = (accStart 2).entry := by
  have hl : (codeBytes 0 cs).length = 1024 := by
    have : ∀ c : List Nat, (c.flatMap (leBytes 4)).length = 4 * c.length := by
      intro c
      induction c with
      | nil => rfl
      | cons a t ih => rw [List.flatMap_cons, List.length_append, ih]; simp [leBytes]; omega
    simpa [codeBytes, elemBits, hn] using this cs
  have ht : (accStart 2).dev.translate { accDrain with write := true } 0 0x400000 = .ok (⟨paOf .skein 9, .data⟩, paOf .skein 9) :=
    rfl
  have hs : flatDesc.writeFrom accDrain i (accFmt 0) cs x = writeIn accDrain x.entry.hdr.part 0x400000 (codeBytes 0 cs)
      { x with inf := x.inf || (cs.map (decodeFp (elemFmt (accFmt 0)))).any FVal.isInf
               nan := x.nan || (cs.map (decodeFp (elemFmt (accFmt 0)))).any FVal.isNan } := by
    simp [Desc.writeFrom, flatDesc, Desc.writeCodes, Desc.host, bit, writeVa, accFmt]
  have hx2 : x.entry.hdr.part = 0 := by rw [hx.2]; rfl
  rw [hs, hx2]
  simp [writeIn, hl, piecesOf, pieces, xlate, hx.1, ht, List.foldlM]
  exact hx.2

theorem store_rows (g : Nat → Nat → Nat) : ∃ y, ((List.range 256).forM (fun r =>
    flatDesc.writeFrom accDrain (256 * 0 + r) (accFmt 0) ((List.range 256).map (g r)))) (accStart 2) = .ok ⟨⟩ y := by
  obtain ⟨y, hy, _⟩ := forM_ok (P := fun x => x.dev = (accStart 2).dev ∧ x.entry = (accStart 2).entry) (List.range 256)
    (f := fun r => flatDesc.writeFrom accDrain (256 * 0 + r) (accFmt 0) ((List.range 256).map (g r)))
    (fun r _ x hx => store_row _ _ (by simp) x hx) (accStart 2) ⟨rfl, rfl⟩
  exact ⟨y, hy⟩

theorem load_rows : ∃ rows, ((List.range 256).mapM (fun i =>
    flatDesc.readAs { accDrain with write := false } (256 * 0 + i) 256 (accFmt 0))) (accStart 1) = .ok rows (accStart 1) :=
  mapM_stays (List.range 256) (f := fun i => flatDesc.readAs { accDrain with write := false } (256 * 0 + i) 256 (accFmt 0))
    (fun i _ => load_row (256 * 0 + i))

/-- ARR_ACC LOAD of one image ends where its rows are readable. -/
theorem load_ends {sp tile count half h : Nat} {m : Desc} {x y : Ctx} {rows : List (List Nat)} (hl : accHalves tile count half = [h])
    (hr : ((List.range 256).mapM (fun i => m.readAs { accDrain with write := false } (256 * 0 + i) 256 (accFmt half))) x = .ok rows y) :
    ∃ k z, runAccLoad sp tile count half m x = .ok k z := by
  unfold runAccLoad
  rw [hl]
  simp only [withIdx, List.length_singleton, List.range'_one, List.zip_cons_cons, List.zip_nil_right, List.mapM_cons, List.mapM_nil,
    bind_assoc, pure_bind]
  rw [run_bind_ok hr]
  simp only [run_noteVals_bind, run_hold_bind]
  exact ⟨_, _, rfl⟩

/-- ARR_ACC STORE of one image in its form ends where its rows can be written. -/
theorem store_ends {sp tile count half h : Nat} {m : Desc} {x y : Ctx} (hl : accHalves tile count half = [h])
    (hok : accForm x.dev sp h half = true)
    (hr : ((List.range 256).forM (fun i => m.writeFrom accDrain (256 * 0 + i) (accFmt half) ((List.range 256).map (fun col =>
      tget 0 (x.dev.workingHalf sp h).img (256 * i + col))))) x = .ok ⟨⟩ y) :
    ∃ k z, runAccStore sp tile count half m x = .ok k z := by
  unfold runAccStore
  rw [run_getDev_bind, hl]
  simp only [withIdx, List.length_singleton, List.range'_one, List.zip_cons_cons, List.zip_nil_right, List.mapM_cons, List.mapM_nil,
    bind_assoc, pure_bind, accRow, hok, if_true]
  rw [run_bind_ok hr]
  exact ⟨_, _, rfl⟩

theorem witness_AccumulatorCommandsComplete :
    (∃ s c e sp d e' tile count half m r, ReadyArray s c e sp d e' ∧ e.payload = .arrAcc 0 tile count half m r) ∧
    (∃ s c e sp d e' tile count half m r k x, ReadyArray s c e sp d e' ∧ e.payload = .arrAcc 1 tile count half m r ∧
      runAccLoad sp tile count half m (.start d c e') = .ok k x) ∧
    (∃ s c e sp d e' tile count half m r h rows x, ReadyArray s c e sp d e' ∧ e.payload = .arrAcc 1 tile count half m r ∧
      accHalves tile count half = [h] ∧
      ((List.range 256).mapM (fun i => m.readAs { accDrain with write := false } (256 * 0 + i) 256 (accFmt half))) (.start d c e') =
        .ok rows x) ∧
    (∃ s c e sp d e' tile count half m r k x, ReadyArray s c e sp d e' ∧ e.payload = .arrAcc 2 tile count half m r ∧
      runAccStore sp tile count half m (.start d c e') = .ok k x) ∧
    (∃ s c e sp d e' tile count half h m r x, ReadyArray s c e sp d e' ∧ e.payload = .arrAcc 2 tile count half m r ∧
      accHalves tile count half = [h] ∧ accForm d sp h half = true ∧
      ((List.range 256).forM (fun i => m.writeFrom accDrain (256 * 0 + i) (accFmt half) ((List.range 256).map (fun col =>
        tget 0 (d.workingHalf sp h).img (256 * i + col))))) (.start d c e') = .ok ⟨⟩ x) ∧
    (∃ s c e sp d e' tile count half m r, ReadyArray s c e sp d e' ∧ e.payload = .arrAcc 3 tile count half m r) := by
  obtain ⟨rows, hr⟩ := load_rows
  obtain ⟨z, hz⟩ := store_rows (fun i col => tget 0 ((accStart 2).dev.workingHalf 0 30).img (256 * i + col))
  obtain ⟨k, x, hl⟩ := load_ends (sp := 0) (tile := 15) (count := 1) (half := 0) (h := 30) rfl hr
  obtain ⟨k', x', hs⟩ := store_ends (sp := 0) (tile := 15) (count := 1) (half := 0) (h := 30) rfl (by decide +kernel) hz
  exact ⟨⟨_, one, _, 0, _, _, 15, 1, 0, flatDesc, true, acc_on 0 (by decide +kernel), rfl⟩,
    ⟨_, one, _, 0, _, _, 15, 1, 0, flatDesc, true, k, x, acc_on 1 (by decide +kernel), rfl, hl⟩,
    ⟨_, one, _, 0, _, _, 15, 1, 0, flatDesc, true, 30, rows, accStart 1, acc_on 1 (by decide +kernel), rfl, rfl, hr⟩,
    ⟨_, one, _, 0, _, _, 15, 1, 0, flatDesc, true, k', x', acc_on 2 (by decide +kernel), rfl, hs⟩,
    ⟨_, one, _, 0, _, _, 15, 1, 0, 30, flatDesc, true, z, acc_on 2 (by decide +kernel), rfl, rfl, by decide +kernel, hz⟩,
    ⟨_, one, _, 0, _, _, 15, 1, 0, flatDesc, true, acc_on 3 (by decide +kernel), rfl⟩⟩
/-! ### Hypotheses that are met: memory -/

def fp32Desc (va : Nat) : Desc := ⟨va, 0, 64, 0, 0, 0, 0, 0⟩

theorem witness_CopyAndFillComplete :
    (∃ s c e src dst rows cols r, Ready s c e ∧ e.payload = .memCopy src dst rows cols r ∧ src.fmt = dst.fmt ∧
      ∃ data u x y, ((List.range rows).mapM (fun i => src.readRow accMover i cols)) (.start s.dev c e) = .ok data x ∧
        ((withIdx 0 data).mapM (fun (q : (List Nat × List Byte) × Nat) => do
          noteVals (rowVals src.fmt q.1.2 q.1.1)
          dst.writeCodes accMover q.2 q.1)) x = .ok u y) ∧
    (∃ s c e src dst rows cols r, Ready s c e ∧ e.payload = .memCopy src dst rows cols r ∧ src.fmt ≠ dst.fmt ∧
      ∃ data u x y, ((List.range rows).mapM (fun i => src.readRow accMover i cols)) (.start s.dev c e) = .ok data x ∧
        ((withIdx 0 data).mapM (fun (q : (List Nat × List Byte) × Nat) => dst.writeVals accMover q.2 (rowVals src.fmt q.1.2 q.1.1))) x
          = .ok u y) ∧
    (∃ s c e dst rows rowB pattern r, Ready s c e ∧ e.payload = .memFill dst rows rowB pattern r ∧ dst.host = true) ∧
    (∃ s c e dst rows rowB pattern r, Ready s c e ∧ e.payload = .memFill dst rows rowB pattern r ∧ dst.host = false ∧
      ∃ u x, ((List.range rows).forM (fun i =>
        writeVa accMover (dst.va + i * dst.rowStride) (List.replicate (rowB / 4) (leBytes 4 pattern)).flatten))
          (.start s.dev c e) = .ok u x) :=
  ⟨⟨on base (pk 0x30 (.memCopy (fp32Desc 0x200000) (fp32Desc 0x600000) 2 3 true)), one, _, _, _, 2, 3, true, ready_on _ _ rfl rfl, rfl,
      rfl, two_ok (by decide +kernel)⟩,
    ⟨on base (pk 0x30 (.memCopy (fp32Desc 0x200000) fp16Desc 2 3 true)), one, _, _, _, 2, 3, true, ready_on _ _ rfl rfl, rfl,
      by decide, two_ok (by decide +kernel)⟩,
    ⟨on base (pk 0x31 (.memFill ⟨0, 0, 64, 0, 0, 0, 2, 0⟩ 2 64 7 true)), one, _, _, 2, 64, 7, true, ready_on _ _ rfl rfl, rfl, rfl⟩,
    ⟨on base (pk 0x31 (.memFill (fp32Desc 0x200000) 2 4 7 true)), one, _, _, 2, 4, 7, true, ready_on _ _ rfl rfl, rfl, rfl,
      ranOk_ok (by decide +kernel)⟩⟩

theorem witness_MappingCommandsComplete :
    (∃ s c e va pages tier flags r, Ready s c e ∧ e.payload = .memAlloc va pages tier flags r ∧
      let d := s.dev.claimed
      let p := d.part e.hdr.part
      let kv := flagKv flags
      let keys := rangeKeys va pages kv
      d.skeinZeroing = false ∧ keys.all (fun k => p.unmappedAt k kv) = true ∧ d.level2Room e.hdr.part keys = true ∧
        ∃ x, placeAll (if kv then placeKv d e.hdr.part else placeAuto d p tier (flagDie flags) (flagWick flags)) keys
          ⟨[], [], [], [], []⟩ = some x) ∧
    (∃ s c e va pages tier flags r, Ready s c e ∧ e.payload = .memFree va pages tier flags r ∧
      let d := s.dev.claimed
      let p := d.part e.hdr.part
      let want := if flagKv flags then PageKind.kv else if flagWick flags then .wick else .data
      let keys := rangeKeys va pages (flagKv flags)
      let es := keys.filterMap (fun k => (p.pteAt k).map (fun x => (k, x)))
      es.length = keys.length ∧ (∀ ke ∈ es, ke.2.kind = want) ∧
        (∀ ke ∈ es, (want = .kv → d.inPool e.hdr.part ke.2.pa = false) ∧
          (want = .wick → d.wickCovers e.hdr.part (ke.1 * 65536) = false)) ∧
        d.ringIn e.hdr.part va (pages * flagPage flags) = false) ∧
    (∃ s c e va pages tier flags r, Ready s c e ∧ e.payload = .memMigrate va pages tier flags r ∧
      let d := s.dev.claimed
      let p := d.part e.hdr.part
      let keys := rangeKeys va pages false
      let es := keys.filterMap (fun k => (p.pteAt k).map (fun x => (k, x)))
      es.length = keys.length ∧ (∀ ke ∈ es, ke.2.kind = .data) ∧ d.ringIn e.hdr.part va (pages * pageBytes) = false ∧
        ∃ x, placeAll (placeAuto d p tier (flagDie flags) false) keys ⟨[], [], [], [], []⟩ = some x ∧
          ∃ u y, ((es.zip x.maps).mapM (fun (em : (Nat × Pte) × (Nat × Pte)) => do
            let cells ← readPage em.1.2.pa
            hold (.block em.2.2.pa pageBytes cells)
            holdAll (releasePage e.hdr.part em.1.1 em.1.2 true)
            hold (.map e.hdr.part em.1.1 em.2.2)
            match tierOf em.2.2.pa with
            | some (t, n) => hold (.pageUse t n (.mapped e.hdr.part))
            | none => pure ())) (.start s.dev c e) = .ok u y) :=
  ⟨⟨on base (pk 0x32 (.memAlloc 0x4000000 2 4 4 true)), one, _, 0x4000000, 2, 4, 4, true, ready_on _ _ rfl rfl, rfl, by decide +kernel,
      by decide +kernel, by decide +kernel, _, rfl⟩,
    ⟨on base (pk 0x33 (.memFree 0x1000000 2 0 1 true)), one, _, 0x1000000, 2, 0, 1, true, ready_on _ _ rfl rfl, rfl, by decide +kernel,
      by decide +kernel, by decide +kernel, by decide +kernel⟩,
    ⟨on base (pk 0x34 (.memMigrate 0x200000 2 3 0 true)), one, _, 0x200000, 2, 3, 0, true, ready_on _ _ rfl rfl, rfl,
      by decide +kernel, by decide +kernel, by decide +kernel, _, rfl, ranOk_ok (by decide +kernel)⟩⟩

/-- The block with sealed region 15 of HBM pages 600 and 601, mapped in partition 0 at 0x4000000 where asked. -/
def withRegion (zeroing mapped : Bool) (items : List ZeroItem) : Dev :=
  { base with
    mem := { base.mem with regions := [(15, ⟨[600, 601], [], false, zeroing⟩)], zeroQ := items,
                           hbm := base.mem.hbm ++ [(600, .sealed 15), (601, .sealed 15)] }
    parts := { base.parts with p := [(0, { part0 with maps := if mapped then [(15, 0x4000000)] else [] })] } }

theorem witness_SealedCommandsComplete :
    (∃ s c e region q pages va r, Ready s c e ∧ e.payload = .memSealed 0 region q pages va r ∧
      let d := s.dev.claimed
      let p := d.part e.hdr.part
      let keys := rangeKeys va pages false
      let es := keys.filterMap (fun k => (p.pteAt k).map (fun x => (k, x)))
      let nums := es.filterMap (fun ke => match tierOf ke.2.pa with
        | some (.hbm, n) => some n
        | _ => none)
      e.hdr.part < 14 ∧ es.length = keys.length ∧ (∀ ke ∈ es, ke.2.kind = .data) ∧ nums.length = keys.length ∧
        d.ringIn e.hdr.part va (pages * pageBytes) = false ∧ thas d.mem.regions region = false ∧
        ∃ u x, (nums.mapM (fun n => readPage (paOf .hbm n))) (.start s.dev c e) = .ok u x) ∧
    (∃ s c e region p n va r g, Ready s c e ∧ e.payload = .memSealed 1 region p n va r ∧
      let d := s.dev.claimed
      tfind d.mem.regions region = some g ∧ (d.part p).state ≠ .free ∧ g.zeroing = false ∧
      va + g.pages.length * pageBytes ≤ 2 ^ 48 ∧
      (rangeKeys va g.pages.length false).all (fun k => (d.part p).unmappedAt k false) = true ∧
      d.level2Room p (rangeKeys va g.pages.length false) = true) ∧
    (∃ s c e region p n va r g, Ready s c e ∧ e.payload = .memSealed 2 region p n va r ∧
      let d := s.dev.claimed
      tfind d.mem.regions region = some g ∧ (region, va) ∈ (d.part p).maps) ∧
    (∃ s c e region p n va r g, Ready s c e ∧ e.payload = .memSealed 3 region p n va r ∧
      let d := s.dev.claimed
      tfind d.mem.regions region = some g ∧ d.mapsOf region = 0 ∧ g.zeroing = false) :=
  ⟨⟨on base (pk 0x35 (.memSealed 0 0 0 2 0x600000 true)), one, _, 0, 0, 2, 0x600000, true, ready_on _ _ rfl rfl, rfl,
      by decide +kernel, by decide +kernel, by decide +kernel, by decide +kernel, by decide +kernel, by decide +kernel,
      ranOk_ok (by decide +kernel)⟩,
    ⟨on (withRegion false false []) (pk 0x35 (.memSealed 1 15 0 0 0xFFFFFFC00000 true)), one, _, 15, 0, 0, 0xFFFFFFC00000, true, _,
      ready_on _ _ rfl rfl, rfl, rfl, by decide, rfl, by decide, by decide +kernel, by decide +kernel⟩,
    ⟨on (withRegion false true []) (pk 0x35 (.memSealed 2 15 0 0 0x4000000 true)), one, _, 15, 0, 0, 0x4000000, true, _,
      ready_on _ _ rfl rfl, rfl, rfl, by decide +kernel⟩,
    ⟨on (withRegion false false []) (pk 0x35 (.memSealed 3 15 0 0 0 true)), one, _, 15, 0, 0, 0, true, _, ready_on _ _ rfl rfl, rfl,
      rfl, by decide +kernel, rfl⟩⟩

theorem witness_ZeroingCompletes :
    (∃ s : State, ∃ t i, s.dev.zeroItem t = some i ∧ i.region = none) ∧
    (∃ s : State, ∃ t i r, s.dev.zeroItem t = some i ∧ i.region = some r ∧ 2 ≤ (s.dev.regionItems r).length) ∧
    (∃ s : State, ∃ r g i, tfind s.dev.mem.regions r = some g ∧ s.dev.regionItems r = [i] ∧ g.zeroing = true ∧
      s.dev.zeroItem i.target ≠ none) ∧
    (∃ s : State, ∃ part pa g, tfind (s.dev.pool part) (pa / 65536) = some g ∧ g.zeroing = true) :=
  ⟨⟨⟨withRegion false false [⟨.skeinPage 20, none, true⟩], []⟩, .skeinPage 20, _, rfl, rfl⟩,
    ⟨⟨withRegion true false [⟨.hbmPage 600, some 15, true⟩, ⟨.hbmPage 601, some 15, true⟩], []⟩, .hbmPage 600, _, 15, rfl, rfl,
      by decide⟩,
    ⟨⟨withRegion true false [⟨.hbmPage 601, some 15, true⟩], []⟩, 15, _, _, rfl, rfl, rfl, by decide⟩,
    ⟨⟨{ base with reqs := { base.reqs with pools := [(0, [(paOf .hbm 514 / 65536, ⟨0x1000000, none, true⟩)])] } }, []⟩, 0,
      paOf .hbm 514, _, rfl, rfl⟩⟩
/-! ### Hypotheses that are met: vector engines, pilots and the Wick -/

/-- A program of one vector instruction. -/
def progOf (op : Nat) : VecRun := ⟨1, 0, 0, 0, true, [noDesc, noDesc, noDesc, noDesc], [⟨op, 0, 0, 0, 0, 0, 0, 0⟩]⟩

/-- A tile queue with a taken and an untaken entry on Spindle 0. -/
def withTq : Dev := { base with sp := [(0, { Spindle.reset with tq := [⟨1, false, 0, true⟩, ⟨2, false, 1, false⟩] })] }

theorem witness_VectorCommandsComplete :
    (∃ s c e p w x, Ready s c e ∧ e.payload = .vecRun p ∧ vecBusy s.dev e = false ∧
      vecGo p p.instrs vecStart (.start s.dev c e) = .ok w x ∧ p.instrs.length ≤ w.pc) ∧
    (∃ s c e p w x, Ready s c e ∧ e.payload = .vecRun p ∧ vecBusy s.dev e = false ∧
      vecGo p p.instrs vecStart (.start s.dev c e) = .ok w x ∧ w.pc < p.instrs.length) ∧
    (∃ s : State, ∃ c e p v r i t k, s.dev.entry c = some e ∧ e.phase = .running (.vec v r) ∧ e.payload = .vecRun p ∧
      p.instrs[v.pc]? = some i ∧ untaken (s.dev.spin (s.dev.spindleOf e)).tq = some (t, k)) ∧
    (∃ s : State, ∃ c e v r, s.dev.entry c = some e ∧ e.phase = .running (.vec v r) ∧
      untaken (s.dev.spin (s.dev.spindleOf e)).tq = none) ∧
    (∃ s c e count r, Ready s c e ∧ e.payload = .vecTqFlush count r ∧ vecBusy s.dev e = false) :=
  ⟨⟨on base (pk 0x40 (.vecRun (progOf 0x18))), one, _, progOf 0x18, _, _, ready_on _ _ rfl rfl, rfl, by decide +kernel, rfl,
      by decide +kernel⟩,
    ⟨on base (pk 0x40 (.vecRun (progOf 0x3A))), one, _, progOf 0x3A, _, _, ready_on _ _ rfl rfl, rfl, by decide +kernel, rfl,
      by decide +kernel⟩,
    ⟨on withTq (pkAt 0x40 (.vecRun (progOf 0x3A)) (.running (.vec vecStart Result.fresh))), one, _, progOf 0x3A, _, _, _, _, _, rfl, rfl,
      rfl, rfl, rfl⟩,
    ⟨on base (pkAt 0x40 (.vecRun (progOf 0x3A)) (.running (.vec vecStart Result.fresh))), one, _, _, _, rfl, rfl, rfl⟩,
    ⟨on withTq (pk 0x41 (.vecTqFlush 1 true)), one, _, 1, true, ready_on _ _ rfl rfl, rfl, by decide +kernel⟩⟩

/-- Spindle 13, which no partition holds, with its pilot as given. -/
def withPilot (v : Spindle) : State := ⟨{ base with sp := [(13, v)] }, []⟩

/-- A full window, the last window of the band, the first window past it, and the first ramp step of the deepest ramp. -/
theorem witness_PilotEventsComplete :
    (∃ s : State, ∃ sp slots, s.dev.errDue = [] ∧ 0 < slots ∧ slots ≤ 16 ∧ (s.dev.spin sp).pilot.en = true) ∧
    (∃ s : State, ∃ sp bubble, s.dev.errDue = [] ∧ (s.dev.spin sp).pilot.en = true ∧
      (bubble = true ∨ (s.dev.spin sp).gap + 1 - (s.dev.spin sp).bubbles ≤ (s.dev.spin sp).pilot.gapWindows)) ∧
    (∃ s : State, ∃ sp, s.dev.errDue = [] ∧ (s.dev.spin sp).pilot.en = true ∧
      (s.dev.spin sp).pilot.gapWindows < (s.dev.spin sp).gap + 1 - (s.dev.spin sp).bubbles) ∧
    (∃ s : State, ∃ sp, s.dev.errDue = [] ∧ (s.dev.spin sp).pilot.en = true ∧
      (s.dev.spin sp).pilot.gapWindows < (s.dev.spin sp).gap - (s.dev.spin sp).bubbles ∧
      2 ^ (s.dev.spin sp).pilot.ramp ≤ (s.dev.spin sp).ramp) :=
  ⟨⟨withPilot .reset, 13, 16, rfl, by decide, by decide, rfl⟩,
    ⟨withPilot { Spindle.reset with gap := 127 }, 13, false, rfl, rfl, .inr (by decide)⟩,
    ⟨withPilot { Spindle.reset with gap := 128 }, 13, rfl, rfl, by decide⟩,
    ⟨withPilot { Spindle.reset with gap := 129, ramp := 2 }, 13, rfl, rfl, by decide, by decide⟩⟩

/-- A descriptor of one frame of one row and 256 columns, for two ranks, on the device alone. -/
def wickX (topk : Bool) : WickDesc :=
  ⟨0, false, 0, topk, false, false, 0, 1, 2, 0, 0, 0, 63, if topk then 1 else 0, 1, 256, 256, 0x3F800000, 0x3F800000, 0, 0xFFFF, 1,
    0xE00000, 0, 0x200000, true⟩

def wickL (topk : Bool) (phase : Nat) : WickLive := ⟨wickX topk, 1, 1, 0, 0, 1, 0, [⟨phase, 0, [], [0], [0], false, false⟩]⟩

/-- A block with that descriptor in partition 0, its frame in a phase. -/
def withWick (topk : Bool) (phase : Nat) : Dev := { base with wick := ⟨[(0, wickL topk phase)], [], 0⟩ }

theorem witness_WickTablesComplete :
    (∃ s c e x g pos, Ready s c e ∧ e.payload = .wickDesc x ∧ x.remove = false ∧
      let d := s.dev.claimed
      WickDescFits d e.hdr.part x g pos ∧ d.wickLive e.hdr.part x.index = none) ∧
    (∃ s c e x g pos w, Ready s c e ∧ e.payload = .wickDesc x ∧ x.remove = true ∧
      let d := s.dev.claimed
      WickDescFits d e.hdr.part x g pos ∧ d.wickLive e.hdr.part x.index = some w ∧ ∀ f ∈ w.frames, f.phase = 0) ∧
    (∃ s c e slot n src r b x, Ready s c e ∧ e.payload = .wickTokmap slot n src r ∧
      let d := s.dev.claimed
      d.wick.descs.any (fun kv => kv.1 / 16 == e.hdr.part && kv.2.desc.map && kv.2.desc.mapSlot == slot) = false ∧
      readVa accPlain src.va (4 * n) (.start d c e) = .ok b x ∧ ∀ i ∈ rowCodes 0 n b, i = noId ∨ i < 262144) :=
  ⟨⟨on base (pk 0x50 (.wickDesc (wickX true))), one, _, wickX true, 1, 0, ready_on _ _ rfl rfl, rfl, rfl,
      ⟨rfl, rfl, rfl, by decide +kernel, by decide +kernel, by decide +kernel, by decide +kernel, by decide +kernel⟩, by decide +kernel⟩,
    ⟨on (withWick true 0) (pk 0x50 (.wickDesc { wickX true with remove := true })), one, _, _, 1, 0, wickL true 0, ready_on _ _ rfl rfl, rfl, rfl,
      ⟨rfl, rfl, rfl, by decide +kernel, by decide +kernel, by decide +kernel, by decide +kernel, by decide +kernel⟩, by decide +kernel,
      by decide +kernel⟩,
    ⟨on base (pk 0x53 (.wickTokmap 3 2 (fp32Desc 0x200000) true)), one, _, 3, 2, _, true, List.replicate 8 0, _, ready_on _ _ rfl rfl, rfl,
      by decide +kernel, rfl, by decide +kernel⟩⟩

/-- A step on rank 1, whose share of the one column block is empty (R323). -/
def stepPk (op : Nat) : Entry := { pk 0x51 (.wickStep 0 op 0 true) with hdr := { hdr 0x51 with unit := 1 } }

theorem step_on (d : Dev) (op : Nat) (h : d.errDue = []) (hl : d.live = []) : Ready (on d (stepPk op)) one (stepPk op) :=
  ⟨rfl, rfl, by simp [Dev.rootHolds, live_on _ hl, stepPk, pk, pkAt], h⟩

theorem witness_WickStepsComplete :
    (∃ s c e idx mb r w f, Ready s c e ∧ vecBusy s.dev e = false ∧ e.payload = .wickStep idx 0 mb r ∧
      InFrame s.dev e.hdr.part idx mb 1 w f ∧ w.desc.topk = false ∧ e.hdr.unit < w.desc.spindles ∧
      (∀ b ∈ shareBlocks w.vT w.desc.spindles e.hdr.unit, b ∈ f.tBlocks ∧ b ∈ f.sBlocks) ∧
      ∃ labels rs x y, wickLabels w mb (.start s.dev c e) = .ok labels x ∧
        (withIdx 0 labels).mapM (statsRow w mb e.hdr.unit) x = .ok rs y) ∧
    (∃ s c e idx mb r w f, Ready s c e ∧ vecBusy s.dev e = false ∧ e.payload = .wickStep idx 1 mb r ∧
      InFrame s.dev e.hdr.part idx mb 1 w f ∧ w.desc.topk = true ∧ e.hdr.unit < w.desc.spindles ∧
      (∀ b ∈ shareBlocks w.vT w.desc.spindles e.hdr.unit, b ∈ f.tBlocks) ∧
      ∃ rs y, (List.range w.desc.rows).mapM (statsTRow w mb e.hdr.unit) (.start s.dev c e) = .ok rs y) ∧
    (∃ s c e idx mb r w f, Ready s c e ∧ vecBusy s.dev e = false ∧ e.payload = .wickStep idx 2 mb r ∧
      InFrame s.dev e.hdr.part idx mb 3 w f ∧ w.desc.topk = true ∧ e.hdr.unit < w.desc.spindles ∧
      (∀ b ∈ shareBlocks w.vS w.desc.spindles e.hdr.unit, b ∈ f.sBlocks) ∧
      ∃ labels rs x y, wickLabels w mb (.start s.dev c e) = .ok labels x ∧
        (withIdx 0 labels).mapM (statsSRow w mb e.hdr.unit) x = .ok rs y) ∧
    (∃ s c e idx mb r w f, Ready s c e ∧ vecBusy s.dev e = false ∧ e.payload = .wickStep idx 3 mb r ∧
      InFrame s.dev e.hdr.part idx mb 5 w f ∧ e.hdr.unit < w.desc.spindles ∧
      (∀ b ∈ shareBlocks w.vS w.desc.spindles e.hdr.unit, b ∈ f.sBlocks ∧ (w.desc.topk = false → b ∈ f.tBlocks)) ∧
      ∃ labels rs x y, wickLabels w mb (.start s.dev c e) = .ok labels x ∧
        (withIdx 0 labels).mapM (gradRow w mb e.hdr.unit) x = .ok rs y) ∧
    (∃ s c e idx mb r w, Ready s c e ∧ vecBusy s.dev e = false ∧ e.payload = .wickStep idx 4 mb r ∧
      s.dev.wickLive e.hdr.part idx = some w ∧ mb = w.r % 4096) ∧
    (∃ s : State, ∃ e : Entry, ∃ idx mb w f phase, s.dev.wickLive e.hdr.part idx = some w ∧ w.frames[mb % w.desc.depth]? = some f ∧
      (f.phase ≠ phase ∨ f.mb ≠ mb)) :=
  ⟨⟨on (withWick false 1) (stepPk 0), one, _, 0, 0, true, _, _, step_on _ _ rfl rfl, by decide +kernel, rfl, ⟨rfl, rfl, by decide, rfl, rfl⟩,
      rfl, by decide, by decide, two_ok (by decide +kernel)⟩,
    ⟨on (withWick true 1) (stepPk 1), one, _, 0, 0, true, _, _, step_on _ _ rfl rfl, by decide +kernel, rfl, ⟨rfl, rfl, by decide, rfl, rfl⟩,
      rfl, by decide, by decide, ranOk_ok (by decide +kernel)⟩,
    ⟨on (withWick true 3) (stepPk 2), one, _, 0, 0, true, _, _, step_on _ _ rfl rfl, by decide +kernel, rfl, ⟨rfl, rfl, by decide, rfl, rfl⟩,
      rfl, by decide, by decide, two_ok (by decide +kernel)⟩,
    ⟨on (withWick true 5) (stepPk 3), one, _, 0, 0, true, _, _, step_on _ _ rfl rfl, by decide +kernel, rfl, ⟨rfl, rfl, by decide, rfl, rfl⟩,
      by decide, by decide, two_ok (by decide +kernel)⟩,
    ⟨on (withWick true 6) (pk 0x51 (.wickStep 0 4 0 true)), one, _, 0, 0, true, _, ready_on _ _ rfl rfl, by decide +kernel, rfl, rfl, rfl⟩,
    ⟨on (withWick true 1) (pk 0x51 (.wickStep 0 2 0 true)), pk 0x51 .nop, 0, 0, _, _, 3, rfl, rfl, by decide⟩⟩

def mergePk : Entry := pk 0x52 (.wickMerge 0 0 0 true)

theorem merge_joins : Joins (on (withWick false 4) mergePk).dev mergePk 0xFFFF (.wick 0 0 0) (on (withWick false 4) mergePk).dev :=
  ⟨rfl, by decide +kernel, by decide +kernel, fun _ => by decide +kernel⟩

theorem witness_MergeCompletes :
    (∃ s c e idx op mb r own x g d, Ready s c e ∧ vecBusy s.dev e = false ∧ e.payload = .wickMerge idx op mb r ∧
      Joins s.dev e g (.wick idx mb op) d ∧ wickLocal e.hdr.part idx op mb (.start d c e) = .ok own x) ∧
    (∃ s c e idx op mb r own x g d e' m, Ready s c e ∧ vecBusy s.dev e = false ∧ e.payload = .wickMerge idx op mb r ∧
      Joins s.dev e g (.wick idx mb op) d ∧ wickLocal e.hdr.part idx op mb (.start d c e) = .ok own x ∧
      let d' := d.started c e own x
      d'.collWaiting e.hdr.part g (.wick idx mb op) = [e'] ∧ d'.groupOf e.hdr.part g = some ([m], 0) ∧
      e'.payload = e.payload ∧ e'.hdr = e.hdr ∧ e'.coll = some (false, own)) := by
  obtain ⟨own, x, h⟩ := ranOk_ok (r := wickLocal 0 0 0 0 (.start (on (withWick false 4) mergePk).dev one mergePk)) (by decide +kernel)
  exact ⟨⟨on (withWick false 4) mergePk, one, _, 0, 0, 0, true, own, x, _, _, ready_on _ _ rfl rfl, by decide +kernel, rfl, merge_joins, h⟩,
    ⟨on (withWick false 4) mergePk, one, _, 0, 0, 0, true, own, x, _, _, _, _, ready_on _ _ rfl rfl, by decide +kernel, rfl, merge_joins, h,
      rfl, rfl, rfl, rfl, rfl⟩⟩
/-! ### Hypotheses that are met: requests and streams -/

def adm0 : Admission :=
  { tenant := 0, priority := 0, promptLen := 1, maxLen := 100, eosId := 0xFFFFFFFF, deadline := 2 ^ 64 - 1, pageListVa := 0x400000,
    kvStreams := 1, ppp := 16, slotBytes := 64, seed := 0, temperature := 0, topK := 0, topP := 0x3F800000, rep := 0x3F800000, freq := 0,
    presence := 0, countsVa := 0x410000, ringIova := 0, ringLog2 := 12, restZero := true }

/-- A live request whose prompt is done, with one KV page. -/
def req0 : Request :=
  { state := 1, part := 0, inPeriod := false, period := 0, promptDone := true, adm := adm0, draftCtl := 1, zeroRun := 0, probeCtr := 0,
    committed := 1, tentative := 1, nextToken := 0, held := [], emitted := 1, countUsed := 0, streamSeq := 0, reserveLeft := 98,
    accepted := 0, cons := 0, consRead := 0, periodSeq := 0, overdrawn := false, pages := [(0, 0)] }

/-- The key of the first KV page of partition 0. -/
def kvKey : Nat := paOf .hbm 514 / 65536

/-- A block with request 0 as given, a pool of partition 0 with one free page, and the periods given. -/
def withReq (r : Request) (ps : Tbl Period) : Dev :=
  { base with
    mem := { base.mem with bytes := [(paOf .skein 8 + 3, 0xFF)] }
    links := { base.links with hostUp := true }
    reqs := { Reqs.reset with
      r := [(0, r)], pools := [(0, [(kvKey + 1, ⟨0x1010000, none, false⟩)])], periods := ps, gens := [(0, 7)], maxReq := [(0, 2)] } }

theorem witness_RequestTableComplete :
    (∃ s c e a id x, ReadyRequest s c e ∧ e.payload = .reqAdmit a ∧
      let d := s.dev.claimed
      d.liveIn e.hdr.part < tget 0 d.reqs.maxReq e.hdr.part ∧ lowest (fun i => !thas d.reqs.r i) 0 16384 = some id ∧
      readEntry id (.start d c e) = .ok () x) ∧
    (∃ s c e va pages r, ReadyRequest s c e ∧ e.payload = .poolAdd va pages r ∧
      let d := s.dev.claimed
      let es := (rangeKeys va pages true).filterMap (fun k => match (d.part e.hdr.part).pteAt k with
        | some x => if x.kind = .kv then some (x.pa / 65536, 65536 * k) else none
        | none => none)
      let pool := d.pool e.hdr.part
      es.length = pages ∧ (∀ x ∈ es, thas pool x.1 = false) ∧ pool.length + pages ≤ 65535) ∧
    (∃ s c e va pages r, ReadyRequest s c e ∧ e.payload = .poolRemove va pages r ∧
      let d := s.dev.claimed
      let pool := d.pool e.hdr.part
      let ks := (rangeKeys va pages true).filterMap (fun k => match (d.part e.hdr.part).pteAt k with
        | some x => if thas pool (x.pa / 65536) then some (x.pa / 65536) else none
        | none => none)
      ks.length = pages ∧ ∀ k ∈ ks, ∃ g, tfind pool k = some g ∧ g.holder = none ∧ g.zeroing = false) ∧
    (∃ s c e id gen r q x u y, ReadyRequest s c e ∧ e.payload = .reqRelease id gen r ∧
      let d := s.dev.claimed
      readEntry id (.start d c e) = .ok () x ∧ d.request id = some q ∧ q.part = e.hdr.part ∧ d.genOf id = gen ∧
      q.inPeriod = false ∧ clearList q.adm (q.pages.map (·.1)) x = .ok u y) ∧
    (∃ s c e ctl id gen r q x, ReadyRequest s c e ∧ e.payload = .draftConfig ctl id gen r ∧
      let d := s.dev.claimed
      readEntry id (.start d c e) = .ok () x ∧ d.request id = some q ∧ q.part = e.hdr.part ∧ d.genOf id = gen ∧
      q.inPeriod = false) := by
  have hr : ∀ op p id, stays (readEntry id (.start (on (withReq req0 []) (pk op p)).dev.claimed one (pk op p)))
      (.start (on (withReq req0 []) (pk op p)).dev.claimed one (pk op p)) = true →
      readEntry id (.start (on (withReq req0 []) (pk op p)).dev.claimed one (pk op p)) =
        .ok () (.start (on (withReq req0 []) (pk op p)).dev.claimed one (pk op p)) :=
    fun _ _ _ h => (stays_ok h).elim (fun _ h => h)
  obtain ⟨u, y, hc⟩ := ranOk_ok (r := clearList req0.adm (req0.pages.map (·.1))
    (.start (on (withReq req0 []) (pk 0x61 (.reqRelease 0 7 true))).dev.claimed one (pk 0x61 (.reqRelease 0 7 true))))
    (by decide +kernel)
  refine ⟨⟨on (withReq req0 []) (pk 0x60 (.reqAdmit adm0)), one, _, adm0, 1, _, request_on _ _ rfl rfl, rfl, by decide +kernel,
      by decide +kernel, hr _ _ 1 (by decide +kernel)⟩,
    ⟨on (withReq req0 []) (pk 0x60 (.poolAdd 0x1000000 1 true)), one, _, 0x1000000, 1, true, request_on _ _ rfl rfl, rfl,
      by decide +kernel, by decide +kernel, by decide +kernel⟩,
    ⟨on (withReq req0 []) (pk 0x60 (.poolRemove 0x1010000 1 true)), one, _, 0x1010000, 1, true, request_on _ _ rfl rfl, rfl,
      by decide +kernel, ?_⟩,
    ⟨on (withReq req0 []) (pk 0x61 (.reqRelease 0 7 true)), one, _, 0, 7, true, req0, _, u, y, request_on _ _ rfl rfl, rfl,
      hr _ _ 0 (by decide +kernel), rfl, rfl, rfl, rfl, hc⟩,
    ⟨on (withReq req0 []) (pk 0x68 (.draftConfig 8 0 7 true)), one, _, 8, 0, 7, true, req0, _, request_on _ _ rfl rfl, rfl,
      hr _ _ 0 (by decide +kernel), rfl, rfl, rfl, rfl⟩⟩
  have hk : (rangeKeys 0x1010000 1 true).filterMap (fun k => match ((on (withReq req0 [])
      (pk 0x60 (.poolRemove 0x1010000 1 true))).dev.claimed.part 0).pteAt k with
    | some x => if thas [(kvKey + 1, (⟨0x1010000, none, false⟩ : PoolPage))] (x.pa / 65536) then some (x.pa / 65536) else none
    | none => none) = [kvKey + 1] := by decide +kernel
  intro k hm
  have hm : k ∈ [kvKey + 1] := hk ▸ hm
  obtain rfl := List.mem_singleton.1 hm
  exact ⟨_, rfl, rfl, rfl⟩

/-- Period 3 open with one decode row of request 0, of the root and one node. -/
def openPeriod : Tbl Period := [(3, ⟨0x62, [⟨0, 0, 0, 1, 2, 0, 7, []⟩]⟩)]

/-- What an opener does before it answers. -/
def openSteps (v : Dev) (e : Entry) (prefill : Bool) (slot n b st : Nat) : Run Unit := do
  let items ← readBatch prefill b n
  notDdr e.hdr.part b ((if prefill then 8 else 2) * n)
  notDdr e.hdr.part st (32 * n)
  let reqs ← items.mapM (fun (i : Nat × Nat) => do return (i, ← reqOf e.hdr.part i.1))
  let rows := placeRows (freePool (v.pool e.hdr.part))
    (reqs.map (fun (q : (Nat × Nat) × Request) => openRow (v.tickAt (v.spindleOf e)) prefill q.1.1 q.1.2 q.2))
  require (decide (nodupNat (items.map (·.1)) = items.map (·.1)) && decide (v.period e.hdr.part slot = none) &&
    reqs.all (fun q => !q.2.inPeriod) && decide ((rows.map (·.count)).sum ≤ 1048576)) 0
  (rows.zip (withIdx 0 (rowBases 0 rows))).forM (openOne v e.hdr.part prefill st)
  (lateWith v e.hdr.part (v.tickAt (v.spindleOf e)) rows).forM (expire v)

theorem require_ok {α : Type} {b : Bool} {n : Nat} {f : Unit → Run α} {x : Ctx} (h : ranOk ((require b n >>= f) x) = true) :
    b = true ∧ ranOk (f () x) = true := by
  cases b with
  | true => exact ⟨rfl, h⟩
  | false => cases h

theorem opens {v : Dev} {e : Entry} {prefill : Bool} {slot n b st : Nat} {x : Ctx}
    (h : ranOk (openSteps v e prefill slot n b st x) = true) :
    ∃ items reqs u x1 x2 x3 x4 x5 x6,
      let rows := placeRows (freePool (v.pool e.hdr.part))
        (reqs.map (fun (q : (Nat × Nat) × Request) => openRow (v.tickAt (v.spindleOf e)) prefill q.1.1 q.1.2 q.2))
      readBatch prefill b n x = .ok items x1 ∧ notDdr e.hdr.part b ((if prefill then 8 else 2) * n) x1 = .ok ⟨⟩ x2 ∧
      notDdr e.hdr.part st (32 * n) x2 = .ok ⟨⟩ x3 ∧
      (items.mapM (fun (i : Nat × Nat) => do return (i, ← reqOf e.hdr.part i.1))) x3 = .ok reqs x4 ∧
      nodupNat (items.map (·.1)) = items.map (·.1) ∧ v.period e.hdr.part slot = none ∧ (∀ q ∈ reqs, q.2.inPeriod = false) ∧
      (rows.map (·.count)).sum ≤ 1048576 ∧
      (rows.zip (withIdx 0 (rowBases 0 rows))).forM (openOne v e.hdr.part prefill st) x4 = .ok u x5 ∧
      (lateWith v e.hdr.part (v.tickAt (v.spindleOf e)) rows).forM (expire v) x5 = .ok ⟨⟩ x6 := by
  unfold openSteps at h
  obtain ⟨items, x1, h1, h⟩ := ranOk_bind h
  obtain ⟨_, x2, h2, h⟩ := ranOk_bind h
  obtain ⟨_, x3, h3, h⟩ := ranOk_bind h
  obtain ⟨reqs, x4, h4, h⟩ := ranOk_bind h
  obtain ⟨hb, h⟩ := require_ok h
  obtain ⟨u, x5, h5, h⟩ := ranOk_bind h
  obtain ⟨_, x6, h6⟩ := ranOk_ok h
  simp only [Bool.and_eq_true, decide_eq_true_eq, List.all_eq_true, Bool.not_eq_true'] at hb
  exact ⟨items, reqs, u, x1, x2, x3, x4, x5, x6, h1, h2, h3, h4, hb.1.1.1, hb.1.1.2, hb.1.2, hb.2, h5, h6⟩

/-- The block with request 0 and its packet. -/
def inPeriod : Dev := withReq { req0 with inPeriod := true, period := 3, tentative := 3 } openPeriod

theorem witness_PeriodsComplete :
    (∃ s c e slot n b st r, ReadyRequest s c e ∧ e.payload = .decodeOpen slot n b st r ∧
      let v := s.dev.claimed.seenBy e
      ∃ items reqs u x1 x2 x3 x4 x5 x6,
        let rows := placeRows (freePool (v.pool e.hdr.part))
          (reqs.map (fun (q : (Nat × Nat) × Request) => openRow (v.tickAt (v.spindleOf e)) false q.1.1 q.1.2 q.2))
        readBatch false b n (.start s.dev.claimed c e) = .ok items x1 ∧ notDdr e.hdr.part b (2 * n) x1 = .ok ⟨⟩ x2 ∧
        notDdr e.hdr.part st (32 * n) x2 = .ok ⟨⟩ x3 ∧
        (items.mapM (fun (i : Nat × Nat) => do return (i, ← reqOf e.hdr.part i.1))) x3 = .ok reqs x4 ∧
        nodupNat (items.map (·.1)) = items.map (·.1) ∧ v.period e.hdr.part slot = none ∧ (∀ q ∈ reqs, q.2.inPeriod = false) ∧
        (rows.map (·.count)).sum ≤ 1048576 ∧
        (rows.zip (withIdx 0 (rowBases 0 rows))).forM (openOne v e.hdr.part false st) x4 = .ok u x5 ∧
        (lateWith v e.hdr.part (v.tickAt (v.spindleOf e)) rows).forM (expire v) x5 = .ok ⟨⟩ x6) ∧
    (∃ s c e slot n b st r, ReadyRequest s c e ∧ e.payload = .prefill slot n b st r ∧
      let v := s.dev.claimed.seenBy e
      ∃ items reqs u x1 x2 x3 x4 x5 x6,
        let rows := placeRows (freePool (v.pool e.hdr.part))
          (reqs.map (fun (q : (Nat × Nat) × Request) => openRow (v.tickAt (v.spindleOf e)) true q.1.1 q.1.2 q.2))
        readBatch true b n (.start s.dev.claimed c e) = .ok items x1 ∧ notDdr e.hdr.part b (8 * n) x1 = .ok ⟨⟩ x2 ∧
        notDdr e.hdr.part st (32 * n) x2 = .ok ⟨⟩ x3 ∧
        (items.mapM (fun (i : Nat × Nat) => do return (i, ← reqOf e.hdr.part i.1))) x3 = .ok reqs x4 ∧
        nodupNat (items.map (·.1)) = items.map (·.1) ∧ v.period e.hdr.part slot = none ∧ (∀ q ∈ reqs, q.2.inPeriod = false) ∧
        (rows.map (·.count)).sum ≤ 1048576 ∧
        (rows.zip (withIdx 0 (rowBases 0 rows))).forM (openOne v e.hdr.part true st) x4 = .ok u x5 ∧
        (lateWith v e.hdr.part (v.tickAt (v.spindleOf e)) rows).forM (expire v) x5 = .ok ⟨⟩ x6) ∧
    (∃ s c e slot u vocab draft r p, ReadyRequest s c e ∧ e.payload = .decodeClose slot u vocab draft r ∧
      let v := s.dev.claimed.seenBy e
      let rows := (withIdx 0 p.rows).filter (fun (rk : PeriodRow × Nat) => rk.1.status == 0)
      v.period e.hdr.part slot = some p ∧ (draft = 0 → ∀ rk ∈ rows, rk.1.kind = 0 → rk.1.count ≤ 1) ∧
      ∃ cs y, rows.mapM (closeOne v u vocab draft) (.start s.dev.claimed c e) = .ok cs y) ∧
    (∃ s c e slot r p, ReadyRequest s c e ∧ e.payload = .decodeAbort slot r ∧
      let v := s.dev.claimed.seenBy e
      v.period e.hdr.part slot = some p ∧
      ∃ ns y, (p.rows.filter (fun q => q.status == 0)).mapM (abortOne v) (.start s.dev.claimed c e) = .ok ns y) ∧
    (∃ s c e slot n vocab items draft u r p, ReadyRequest s c e ∧ e.payload = .draftDraw slot n vocab items draft u r ∧
      let v := s.dev.claimed.seenBy e
      v.period e.hdr.part slot = some p ∧ ∃ b nodes x y, readOrd items (16 * n) (.start s.dev.claimed c e) = .ok b x ∧
      ((List.range n).map (parseItem b)).foldlM (drawOne v p u vocab draft) [] x = .ok nodes y) ∧
    (∃ s : State, ∃ e : Entry, ∃ slot, s.dev.period e.hdr.part slot = none) :=
  ⟨⟨on (withReq req0 []) (pk 0x62 (.decodeOpen 3 1 0x400000 0x420000 true)), one, _, 3, 1, 0x400000, 0x420000, true,
      request_on _ _ rfl rfl, rfl, opens (by decide +kernel)⟩,
    ⟨on (withReq { req0 with promptDone := false, committed := 0, tentative := 0 } []) (pk 0x63 (.prefill 3 1 0x400000 0x420000 true)), one,
      _, 3, 1, 0x400000, 0x420000, true, request_on _ _ rfl rfl, rfl, opens (by decide +kernel)⟩,
    ⟨on inPeriod (pk 0x62 (.decodeClose 3 (fp32Desc 0x600000) 1 0x800000 true)), one, _, 3, fp32Desc 0x600000, 1, 0x800000, true, _,
      request_on _ _ rfl rfl, rfl, rfl, by decide, ranOk_ok (by decide +kernel)⟩,
    ⟨on inPeriod (pk 0x62 (.decodeAbort 3 true)), one, _, 3, true, _,
      request_on _ _ rfl rfl, rfl, rfl, ranOk_ok (by decide +kernel)⟩,
    ⟨on inPeriod (pk 0x68 (.draftDraw 3 1 1 0x200000 0x800000 (fp32Desc 0x600000) true)), one, _, 3, 1, 1, 0x200000, 0x800000,
      fp32Desc 0x600000, true, _, request_on _ _ rfl rfl, rfl, rfl, two_ok (by decide +kernel)⟩,
    ⟨on base (pk 0 .nop), pk 0 .nop, 0, rfl⟩⟩

theorem witness_TenantCommandsComplete :
    (∃ s c e t p m v r, Ready s c e ∧ e.payload = .tenantSet t 0 p m v r) ∧
    (∃ s c e t p m v r, Ready s c e ∧ e.payload = .tenantSet t 1 p m v r) ∧
    (∃ s c e t p m v r, Ready s c e ∧ e.payload = .tenantSet t 2 p m v r) :=
  ⟨⟨on base (pk 0x64 (.tenantSet 4095 0 0 0 (2 ^ 64 - 1) true)), one, _, _, _, _, _, true, ready_on _ _ rfl rfl, rfl⟩,
    ⟨on base (pk 0x64 (.tenantSet 0 1 0 0 5 true)), one, _, _, _, _, _, true, ready_on _ _ rfl rfl, rfl⟩,
    ⟨on base (pk 0x64 (.tenantSet 0 2 13 16384 0 true)), one, _, _, _, _, _, true, ready_on _ _ rfl rfl, rfl⟩⟩

/-- The last place of the smallest ring, on a device with a bridge and on one without; a request that holds nothing; a full ring
whose count in host memory is zero. -/
theorem witness_StreamEventsComplete :
    (∃ s : State, ∃ id r tok last rest, s.dev.errDue = [] ∧ s.dev.request id = some r ∧ r.held = (tok, last) :: rest ∧
      s.dev.links.hostUp = true ∧ s.dev.links.bridge = true ∧ r.unread < ringCap r.adm) ∧
    (∃ s : State, ∃ id r tok last rest, s.dev.request id = some r ∧ r.held = (tok, last) :: rest ∧
      s.dev.links.hostUp = true ∧ s.dev.links.bridge = false ∧ r.unread < ringCap r.adm) ∧
    (∃ s : State, ∃ id r, s.dev.errDue = [] ∧ s.dev.request id = some r ∧
      (r.held = [] ∨ s.dev.links.hostUp = false ∨ ringCap r.adm ≤ r.unread)) ∧
    (∃ s : State, ∃ id r, s.dev.errDue = [] ∧ s.dev.request id = some r ∧ s.dev.links.hostUp = true ∧ r.held ≠ [] ∧
      ringCap r.adm ≤ r.unread ∧ r.consRead ≤ s.dev.clk.tick ∧
      (∀ q ∈ s.dev.reqs.r, q.1 < id → q.2.held = [] ∨ q.2.unread < ringCap q.2.adm ∨ s.dev.clk.tick < q.2.consRead)) :=
  ⟨⟨⟨{ withReq { req0 with held := [(5, false)], streamSeq := 251 } [] with
        links := { base.links with hostUp := true, bridge := true } }, []⟩, 0, _, 5, false, [], rfl, rfl, rfl, rfl, rfl, by decide +kernel⟩,
    ⟨⟨withReq { req0 with held := [(5, false)], streamSeq := 251 } [], []⟩, 0, _, 5, false, [], rfl, rfl, rfl, rfl, by decide +kernel⟩,
    ⟨⟨withReq req0 [], []⟩, 0, _, rfl, rfl, .inl rfl⟩,
    ⟨⟨withReq { req0 with held := [(5, false)], streamSeq := 252 } [], []⟩, 0, _, rfl, rfl, rfl, by decide +kernel, by decide +kernel,
      by decide +kernel, by decide +kernel⟩⟩
/-! ### Hypotheses that are met: the exchange, the Treadle, ROOT -/

/-- Uncompressed blocks of FP32, one to a shard, context 15 in group 5. -/
def xchCfg : XchConfig := ⟨15, 2, 0, 1, 0, 5, 1, 0, 2, 0x200000, 0, 0x600000, 0x800000, 0, true⟩

/-- Group 5 of partition 0: this device, then device 1. -/
def group5 : Group := ⟨0, [⟨0, 0, 0⟩, ⟨1, 0, 0⟩], 0, 77⟩

def xch0 : Xch :=
  { cfg := xchCfg, part := 0, members := 2, pos := 0, step := 0, epoch := 0, stored := [], held := [], ownTick := none,
    issueTick := none, decision := none, replay := false, lastPresent := 0, dropped := 0, heldCount := 0, shadows := [], waiters := [] }

/-- A block in group 5 whose context 15 is as given; device 1 is reached through port 0, which is up. -/
def withXch (xs : Tbl Xch) : Dev :=
  { base with
    xch := xs
    links := { base.links with groups := [(5, group5)], hostUp := true, routes := [(1, 0x8000)],
                               ports := [(0, { Port.reset with state := .up, enable := true })] } }

def sendPk : Entry := pk 0x70 (.xchSend 15 0 true)
def sendStart : Ctx := .start (on (withXch [(15, xch0)]) sendPk).dev one sendPk

/-- What a run of the SEND keeps. -/
def sendKeeps (c : Ctx) : Prop := c.dev = sendStart.dev ∧ c.entry = sendStart.entry ∧ c.eff = []

/-- A gradient block reads from any context of the SEND. -/
theorem send_read (i : Nat) (hi : i = 0 ∨ i = 1) (c : Ctx) (hc : sendKeeps c) :
    ∃ b y, readVa accPlain (0x200000 + 4096 * i) 4096 c = .ok b y ∧ sendKeeps y := by
  have ht : ∀ n, n = 0x200000 ∨ n = 0x201000 → sendStart.dev.translate accPlain 0 n =
      .ok (⟨paOf .skein 8, .data⟩, paOf .skein 8 + (n - 0x200000)) := by
    rintro n (rfl | rfl) <;> rfl
  have hp : c.entry.hdr.part = 0 := by rw [hc.2.1]; rfl
  have hu : sendStart.dev.mem.ue = [] := rfl
  have hn : 0x200000 + 4096 * i = 0x200000 ∨ 0x200000 + 4096 * i = 0x201000 := by omega
  have hq : piecesOf (0x200000 + 4096 * i) 4096 = [(0x200000 + 4096 * i, 4096)] := by
    rcases hi with rfl | rfl <;> rfl
  simp [readVa, readIn, hq, xlate, hc.1, ht _ hn, hp, readPhys, hu, sendKeeps]
  exact ⟨_, _, rfl, rfl, hc.2.1, hc.2.2⟩

/-- R423: an uncompressed block is the gradient in FP32. -/
theorem plain_block (x : Xch) (shard blk : Nat) (hx : x.cfg.comp = 2) : sendBlock x shard blk = (do
    let b ← readVa accPlain (x.cfg.gradVa + (shard * x.cfg.shardBlocks + blk) * 1024 * x.cfg.gradLen) (1024 * x.cfg.gradLen)
    let a := (rowVals x.cfg.gfmt [] (rowCodes x.cfg.gfmt 1024 b)).map rne32
    noteVals ((decodeBlock x.cfg (encodeBlock x.cfg a)).map v32)
    return (encodeBlock x.cfg a, (a.filter (fun w => !isFinite32 w)).length)) := by
  simp [sendBlock, hx]

theorem send_block (i : Nat) (hi : i = 0 ∨ i = 1) (c : Ctx) (hc : sendKeeps c) : ∃ v y, sendBlock xch0 i 0 c = .ok v y ∧ sendKeeps y := by
  obtain ⟨b, y, h, hy⟩ := send_read i hi c hc
  have ha : xch0.cfg.gradVa + (i * xch0.cfg.shardBlocks + 0) * 1024 * xch0.cfg.gradLen = 0x200000 + 4096 * i := by
    simp [xch0, xchCfg, XchConfig.gradLen]; omega
  have hl : 1024 * xch0.cfg.gradLen = 4096 := rfl
  rw [plain_block xch0 i 0 rfl, ha, hl, run_bind_ok h]
  exact ⟨_, _, rfl, hy⟩

/-- Both shards of the SEND can be formed. -/
theorem send_shards : ∃ shards y, (List.range xch0.members).mapM (sendShard xch0) sendStart = .ok shards y := by
  obtain ⟨v, y, h, hy⟩ := send_block 0 (.inl rfl) sendStart ⟨rfl, rfl, rfl⟩
  obtain ⟨w, z, h', _⟩ := send_block 1 (.inr rfl) y hy
  have e : ∀ i, sendShard xch0 i = (do let b ← sendBlock xch0 i 0; return ([b].flatMap (·.1), ([b].map (·.2)).sum)) := fun i => by
    simp [sendShard, xch0, xchCfg, List.range_succ]
  have r : List.range xch0.members = [0, 1] := rfl
  rw [r, List.mapM_cons, e, bind_assoc, run_bind_ok h]
  simp only [List.mapM_cons, List.mapM_nil, e, bind_assoc, pure_bind]
  rw [run_bind_ok h']
  exact ⟨_, _, rfl⟩

theorem witness_ExchangeCommandsComplete :
    (∃ s c e x ms pos, ReadyDie s c e ∧ e.payload = .xchConfig x ∧
      let d := s.dev.claimed
      d.xchOf x.ctx = none ∧ d.groupOf e.hdr.part x.group = some (ms, pos) ∧ ms.length ≤ 4096 ∧ x.minPresent ≤ ms.length ∧
      d.inDataPages e.hdr.part x.gradVa (ms.length * x.shardBlocks * 1024 * x.gradLen) = true ∧
      (x.comp = 2 ∨ d.inDataPages e.hdr.part x.residVa (8 * (ms.length * x.shardBlocks * 1024)) = true) ∧
      d.inDataPages e.hdr.part x.inboxVa (3 * ms.length * x.cs) = true ∧
      d.inDataPages e.hdr.part x.sumVa (4096 * x.shardBlocks) = true) ∧
    (∃ s c e ctx r x, ReadyDie s c e ∧ e.payload = .xchRemove ctx r ∧
      let d := s.dev.claimed
      d.xchOf ctx = some x ∧ x.part = e.hdr.part ∧ d.xchBusy ctx = false) ∧
    (∃ s c e ctx r x ms pos, ReadyDie s c e ∧ e.payload = .xchSend ctx x.step r ∧ s.dev.xchOf ctx = some x ∧ x.part = e.hdr.part ∧
      s.dev.groupOf e.hdr.part x.cfg.group = some (ms, pos) ∧ (∀ p < x.members, p = x.pos ∨ s.dev.routeOk (memberAt ms p) = true) ∧
      ∃ shards y, (List.range x.members).mapM (sendShard x) (.start s.dev c e) = .ok shards y) ∧
    (∃ s : State, ∃ m : Message, ∃ group ctx step p data x, m.body = .contrib group ctx step p data ∧ s.dev.xchOf ctx = some x ∧
      x.cfg.group = group ∧ p < x.members ∧ data.length = x.cfg.cs ∧ x.fate step p ≠ .waits) ∧
    (∃ s : State, ∃ m : Message, ∃ group ctx step p data x, m.body = .contrib group ctx step p data ∧ s.dev.xchOf ctx = some x ∧
      x.cfg.group = group ∧ p < x.members ∧ data.length = x.cfg.cs ∧ x.fate step p = .waits) ∧
    (∃ s : State, ∃ m : Message, ∃ group ctx step p x y, m.body = .contribCommit group ctx step p ∧ s.dev.xchOf ctx = some x ∧
      x.cfg.group = group ∧ x.shadows.find? (fun y => y.1 == (step, p)) = some y ∧ x.fate step p ≠ .waits) :=
  ⟨⟨on (withXch []) (pk 0x70 (.xchConfig xchCfg)), one, _, xchCfg, _, _, die_on _ _ rfl rfl, rfl, rfl,
      rfl, by decide, by decide, by decide +kernel, .inl rfl, by decide +kernel, by decide +kernel⟩,
    ⟨on (withXch [(15, xch0)]) (pk 0x70 (.xchRemove 15 true)), one, _, 15, true, xch0, die_on _ _ rfl rfl,
      rfl, rfl, rfl, by decide +kernel⟩,
    ⟨on (withXch [(15, xch0)]) sendPk, one, _, 15, true, xch0, _, _, die_on _ _ rfl rfl, rfl, rfl, rfl, rfl,
      by decide +kernel, send_shards⟩,
    ⟨⟨withXch [(15, xch0)], []⟩, ⟨0, 1, 0, 2, .contrib 5 15 1 1 (zeros 4096)⟩, 5, 15, 1, 1, _, xch0, rfl, rfl, rfl, by decide,
      by decide +kernel, by decide +kernel⟩,
    ⟨⟨withXch [(15, xch0)], []⟩, ⟨0, 1, 0, 2, .contrib 5 15 2 1 (zeros 4096)⟩, 5, 15, 2, 1, _, xch0, rfl, rfl, rfl, by decide,
      by decide +kernel, by decide +kernel⟩,
    ⟨⟨withXch [(15, { xch0 with shadows := [((0, 1), zeros 4096)] })], []⟩, ⟨0, 1, 0, 2, .contribCommit 5 15 0 1⟩, 5, 15, 0, 1, _,
      ((0, 1), zeros 4096), rfl, rfl, rfl, rfl, by decide +kernel⟩⟩

/-- The context with its step decided or waiting, as a STEP_WAIT at work finds it. -/
def waiting0 (z : Option XchDecision) (stored : List (Nat × Nat)) : Xch :=
  { xch0 with decision := z, stored := stored, ownTick := some 0, issueTick := some 0 }

def waitPk (ph : Phase) : Entry := pkAt 0x71 (.stepWait 15 0 0 0 true) ph

/-- The decision with every contribution present, one with the other member's absent after the window, and a replayed one. -/
theorem witness_StepWaitCompletes :
    (∃ s c e ctx replay step maskVa r x, Ready s c e ∧ e.payload = .stepWait ctx replay step maskVa r ∧ s.dev.xchOf ctx = some x ∧
      x.part = e.hdr.part ∧ x.step = step) ∧
    (∃ s : State, ∃ c e ctx replay step maskVa r p x z, s.dev.entry c = some e ∧ e.payload = .stepWait ctx replay step maskVa r ∧
      e.phase = .running p ∧ s.dev.errDue = [] ∧ s.dev.xchOf ctx = some x ∧ x.decision = some z ∧ s.dev.dieFree e = true ∧
      ∃ u y, (List.range x.cfg.shardBlocks).forM (sumBlock x z) (.start s.dev c e) = .ok u y) ∧
    (∃ s : State, ∃ c e ctx step maskVa r p x, s.dev.entry c = some e ∧ e.payload = .stepWait ctx 0 step maskVa r ∧
      e.phase = .running p ∧ s.dev.xchOf ctx = some x ∧ x.decision = none ∧ x.replay = false ∧
      ((List.range x.members).filter (fun q => x.has x.step q)).length = x.members) ∧
    (∃ s : State, ∃ c e ctx step maskVa r p x, s.dev.entry c = some e ∧ e.payload = .stepWait ctx 0 step maskVa r ∧
      e.phase = .running p ∧ s.dev.xchOf ctx = some x ∧ x.decision = none ∧ x.replay = false ∧
      ∃ i o, x.issueTick = some i ∧ x.ownTick = some o ∧ max i o + x.cfg.window < s.dev.tickAt 14) ∧
    (∃ s : State, ∃ c e ctx step maskVa r p x b y, s.dev.entry c = some e ∧ e.payload = .stepWait ctx 1 step maskVa r ∧
      e.phase = .running p ∧ s.dev.xchOf ctx = some x ∧ x.decision = none ∧ x.replay = true ∧
      readVa accPlain maskVa (ceilDiv x.members 4) (.start s.dev c e) = .ok b y ∧
      (∀ q ∈ (maskFlags x.members b).held, x.has (prevStep x.step) q = true) ∧
      (∀ q ∈ (maskFlags x.members b).present, x.has x.step q = true)) :=
  ⟨⟨on (withXch [(15, xch0)]) (waitPk .dispatched), one, _, 15, 0, 0, 0, true, xch0,
      ⟨rfl, rfl, by decide +kernel, rfl⟩, rfl, rfl, rfl, rfl⟩,
    ⟨on (withXch [(15, waiting0 (some ⟨[0], []⟩) [(0, 0)])]) (waitPk (.running (.stage 0 Result.fresh))), one, _, 15, 0, 0, 0, true, _, _, _,
      rfl, rfl, rfl, rfl, rfl, rfl, by decide +kernel, ranOk_ok (by decide +kernel)⟩,
    ⟨on (withXch [(15, waiting0 none [(0, 0), (0, 1)])]) (waitPk (.running (.stage 0 Result.fresh))), one, _, 15, 0, 0, true, _, _, rfl,
      rfl, rfl, rfl, rfl, rfl, by decide +kernel⟩,
    ⟨on { withXch [(15, waiting0 none [(0, 0)])] with clk := { base.clk with tick := 1, copies := List.replicate 55 1 } }
      (waitPk (.running (.stage 0 Result.fresh))), one, _, 15, 0, 0, true, _, _, rfl, rfl, rfl, rfl, rfl, rfl, 0, 0, rfl, rfl,
      by decide +kernel⟩,
    ⟨on { withXch [(15, { waiting0 none [(0, 0), (0, 1)] with replay := true })] with
        mem := { base.mem with bytes := [(paOf .skein 8, 0x05)] } }
      (pkAt 0x71 (.stepWait 15 1 0 0x200000 true) (.running (.stage 0 Result.fresh))), one, _, 15, 0, 0x200000, true, _, _, [0x05], _, rfl, rfl,
      rfl, rfl, rfl, rfl, rfl, by decide +kernel, by decide +kernel⟩⟩

theorem witness_ActivationCopiesComplete :
    (∃ s c e src dst n w r, Ready s c e ∧ e.payload = .actOffload src dst n w r ∧
      ∃ u x, (List.range n).forM (actPage true e.hdr.part src dst) (.start s.dev c e) = .ok u x) ∧
    (∃ s c e src dst n w r, Ready s c e ∧ e.payload = .actPrefetch src dst n w r ∧
      ∃ u x, (List.range n).forM (actPage false e.hdr.part src dst) (.start s.dev c e) = .ok u x) :=
  ⟨⟨on base (pk 0x72 (.actOffload 0x600000 0xA00000 2 0 true)), one, _, 0x600000, 0xA00000, 2, 0, true, ready_on _ _ rfl rfl, rfl,
      ranOk_ok (by decide +kernel)⟩,
    ⟨on base (pk 0x73 (.actPrefetch 0xA00000 0x600000 2 14 true)), one, _, 0xA00000, 0x600000, 2, 14, true, ready_on _ _ rfl rfl, rfl,
      ranOk_ok (by decide +kernel)⟩⟩

/-- A descriptor of one block of 32 elements: gradients in HBM, weights and state of both parities in DDR5 of die 0. -/
def trdDescBytes : List Byte :=
  leBytes 4 32 ++ leBytes 2 0 ++ leBytes 1 0 ++ leBytes 1 0 ++ zeros 4 ++ leBytes 2 0x3C00 ++ leBytes 2 0 ++ leBytes 2 0 ++ leBytes 2 0x3C00 ++
    leBytes 2 0 ++ leBytes 2 0x3C00 ++ zeros 8 ++ leBytes 8 0x800000 ++
    leBytes 8 0xA00000 ++ leBytes 8 0xA01000 ++ leBytes 8 0xA02000 ++ leBytes 8 0xA03000

/-- A block with that descriptor at 0x600000, and at 0x601000 the norm record of a step 0 that skips. -/
def withTrd : Dev :=
  { withXch [] with mem := { base.mem with
      bytes := cellsOf (paOf .hbm 512) trdDescBytes ++ [(paOf .hbm 512 + 0x100C, 8)] } }

def trdUpd (norm : Nat) : TrdUpdate := ⟨0, 0x3C00, 0x3C00, 0, 0x3F800000, 1, 1, 0x600000, norm, 0x610000, 0, true, 0⟩

def verifyPk : Entry := pk 0x82 (.trdVerify (trdUpd 0x601000) 0 1 0x620000 true)

def verified (b : List Byte) (x : Ctx) : Verified × Option Fail × Ctx :=
  verifyGo 0 0 (trdUpd 0x601000) ((List.range 1).map (fun i => (leAt b (8 * i) 4, leAt b (8 * i + 4) 4))) ⟨0, 0, max32⟩ x

def verifyStart : Ctx := .start (on withTrd verifyPk).dev one verifyPk

/-- One sample of the block, read back with equal parities. -/
theorem verify_runs : ∃ b x v y, readIn accPlain 0 0x620000 (8 * 1) verifyStart = .ok b x ∧ verified b x = (v, none, y) ∧ v.bad = 0 := by
  have h : (match readIn accPlain 0 0x620000 (8 * 1) verifyStart with
      | .ok b x => (verified b x).2.1.isNone && (verified b x).1.bad == 0
      | .error _ _ => false) = true := by decide +kernel
  revert h
  cases hr : readIn accPlain 0 0x620000 (8 * 1) verifyStart with
  | error _ _ => intro h; cases h
  | ok b x =>
    intro h
    rw [Bool.and_eq_true, Option.isNone_iff_eq_none, beq_iff_eq] at h
    exact ⟨b, x, (verified b x).1, (verified b x).2.2, rfl, by rw [← h.1], h.2⟩

theorem witness_TreadleCommandsComplete :
    (∃ s c e step pair group maxNorm nDesc table norm r d', ReadyDie s c e ∧
      e.payload = .trdNorm step pair group maxNorm nDesc table norm r ∧ s.dev.groupKnown e.hdr.part group = true ∧
      Joins s.dev e group (.norm step) d' ∧
      ∃ own x, runNormLocal e.hdr.part e.hdr.unit step nDesc table (.start d' c e) = .ok own x) ∧
    (∃ s c e p, ReadyDie s c e ∧ e.payload = .trdUpdate p ∧
      ∃ norm l evs x1 x2 x3, readNorm e.hdr.part p (.start s.dev c e) = .ok norm x1 ∧
        (List.range p.nDesc).foldlM (updateRow e.hdr.part e.hdr.unit p norm) [] x1 = .ok l x2 ∧
        (List.range p.nLayers).mapM (layerRow e.hdr.part p (skipOf norm) l) x2 = .ok evs x3) ∧
    (∃ s c e p part n va r b x v y, ReadyDie s c e ∧ e.payload = .trdVerify p part n va r ∧
      readIn accPlain part va (8 * n) (.start s.dev c e) = .ok b x ∧
      verifyGo part e.hdr.unit p ((List.range n).map (fun i => (leAt b (8 * i) 4, leAt b (8 * i + 4) 4))) ⟨0, 0, max32⟩ x = (v, none, y) ∧
      v.bad = 0) := by
  obtain ⟨b, x, v, y, hb, hv, h0⟩ := verify_runs
  have hu : ranOk ((readNorm 0 (trdUpd 0x602000) >>= fun norm =>
      (List.range 1).foldlM (updateRow 0 0 (trdUpd 0x602000) norm) [] >>= fun l =>
      (List.range 1).mapM (layerRow 0 (trdUpd 0x602000) (skipOf norm) l))
      (.start (on withTrd (pk 0x81 (.trdUpdate (trdUpd 0x602000)))).dev one (pk 0x81 (.trdUpdate (trdUpd 0x602000))))) = true := by
    decide +kernel
  obtain ⟨norm, x1, h1, hu⟩ := ranOk_bind hu
  obtain ⟨l, x2, h2, hu⟩ := ranOk_bind hu
  obtain ⟨evs, x3, h3⟩ := ranOk_ok hu
  exact ⟨⟨on withTrd (pk 0x80 (.trdNorm 0 0 5 0x3F800000 1 0x600000 0x610000 true)), one, _, 0, 0, 5, _, 1, 0x600000, 0x610000, true, _,
      die_on _ _ rfl rfl, rfl, by decide +kernel, ⟨rfl, by decide +kernel, rfl, fun _ => by decide +kernel⟩, ranOk_ok (by decide +kernel)⟩,
    ⟨on withTrd (pk 0x81 (.trdUpdate (trdUpd 0x602000))), one, _, _, die_on _ _ rfl rfl, rfl, norm, l, evs, x1, x2, x3, h1, h2, h3⟩,
    ⟨on withTrd verifyPk, one, _, _, 0, 1, 0x620000, true, b, x, v, y, die_on _ _ rfl rfl, rfl, hb, hv, h0⟩⟩

/-- The 1 × 1 matrix of 1, whose inverse first root one step finds. -/
def withOne : Dev := { base with mem := { base.mem with bytes := cellsOf (paOf .skein 8) (leBytes 4 0x3F800000) } }

def rootPk : Entry := pk 0x83 (.root (fp32Desc 0x200000) (fp32Desc 0x400000) 0x600000 1 1 1 0 0 true)

theorem witness_RootCompletes : ∃ s c e a z workVa n p itMax tol eps r m x scratch y sc q k g u w, Ready s c e ∧
    e.payload = .root a z workVa n p itMax tol eps r ∧ rootBlocked s.dev e = false ∧
    ((List.range n).mapM (fun i => do return (← a.readVals accMover i n).map rne32)) (.start s.dev c e) = .ok m x ∧
    rootScratch workVa (24 * n * n) x = .ok scratch y ∧
    let m' := mapMat m (fun i j v => if i = j then add32 v eps else v)
    finiteMat m' = true ∧ isFinite32 (treeSum (m'.flatten.map (fun v => mul32 v v))) = true ∧
    rootScale p (treeSum (m'.flatten.map (fun v => mul32 v v))) = some sc ∧
    rootIter n p tol itMax 0 ((List.range n).map (fun i => (List.range n).map (fun j => if i = j then ldexp32 one32 (-(sc / (p : Int))) else 0)))
      (mapMat m' (fun _ _ v => ldexp32 v (-sc))) = some (q, k, g) ∧
    ((withIdx 0 q).forM (fun row => z.writeVals accMover row.2 (row.1.map v32)))
      { y with eff := (scratch.map (fun t => Effect.mem t.1 (scratchBytes s.dev.free t.1 t.2))).reverse ++ y.eff } = .ok u w := by
  have hm : ((List.range 1).mapM (fun i => do return (← (fp32Desc 0x200000).readVals accMover i 1).map rne32))
      (.start (on withOne rootPk).dev one rootPk) = .ok [[0x3F800000#32]] (.start (on withOne rootPk).dev one rootPk) := by
    obtain ⟨m, h⟩ := stays_ok (r := ((List.range 1).mapM (fun i => do return (← (fp32Desc 0x200000).readVals accMover i 1).map rne32))
      (.start (on withOne rootPk).dev one rootPk)) (x := .start (on withOne rootPk).dev one rootPk) (by decide +kernel)
    have hv : (match ((List.range 1).mapM (fun i => do return (← (fp32Desc 0x200000).readVals accMover i 1).map rne32))
      (.start (on withOne rootPk).dev one rootPk) with
      | .ok v _ => decide (v = [[0x3F800000#32]])
      | .error _ _ => false) = true := by decide +kernel
    rw [h] at hv ⊢
    rw [of_decide_eq_true hv]
  have hr : ranOk ((rootScratch 0x600000 (24 * 1 * 1) >>= fun scratch =>
      modify (fun y => { y with eff := (scratch.map (fun t => Effect.mem t.1 (scratchBytes 0 t.1 t.2))).reverse ++ y.eff }) >>= fun _ =>
      (withIdx 0 [[one32]]).forM (fun row => (fp32Desc 0x400000).writeVals accMover row.2 (row.1.map v32)))
      (.start (on withOne rootPk).dev one rootPk)) = true := by decide +kernel
  obtain ⟨scratch, y, hs, hw⟩ := ranOk_bind hr
  obtain ⟨u, w, hw⟩ := ranOk_ok hw
  have hi : rootIter 1 1 0 1 0 [[one32]] [[one32]] = some ([[one32]], 1, 0) := by decide +kernel
  exact ⟨on withOne rootPk, one, rootPk, fp32Desc 0x200000, fp32Desc 0x400000, 0x600000, 1, 1, 1, 0, 0, true, _, _, scratch, y, 0,
    [[one32]], 1, 0, u, w, ready_on _ _ rfl rfl, rfl, by decide +kernel, hm, hs, by decide +kernel, by decide +kernel, by decide +kernel,
    by decide +kernel, hw⟩
/-! ### Hypotheses that are met: snapshots, the log, recovery, the step commit -/

/-- A set of one granule in HBM, buddies 1 and 2, group 5; its dirty bits as given. -/
def snapCfg : SnapConfig := ⟨0, 1, 0xFF, 1, 2, 9, 0x600000, 1, 5, true⟩

def region0 : SnapRegion := ⟨0x800000, 0, 1, 0, 0, 0, true⟩

def snapSet (dirty : Nat) : SnapSet := ⟨snapCfg, 0, [], [region0], [], if dirty = 15 then [] else [(0, dirty)], none, none⟩

/-- A log of one page to each share, with a MARK of step 1. -/
def log0 : TrainLog := ⟨0xA00000, 0xC00000, 1, 1, 0, 0, false, [], some (1, 0)⟩

/-- A block in group 5 whose job of partition 0 stands at step 0, with its set as given. -/
def withJob (log : Option TrainLog) (snap : Option SnapSet) : Dev :=
  { withXch [] with
    mem := { base.mem with bytes := cellsOf (paOf .hbm 512) (leBytes 8 0x800000 ++ leBytes 8 0 ++ leBytes 4 1) }
    train := { Training.reset with p := [(0, ⟨0, 0, 0, log, snap⟩)] } }

/-- A manifest of generation 0 of that set, of step 0, position 0, job 9, cursor 7, with its digests. -/
def manifestHead : List Byte :=
  leBytes 4 0x5A42534D ++ leBytes 2 1 ++ [0, 1] ++ leBytes 8 9 ++ leBytes 8 0 ++ leBytes 4 0 ++ leBytes 4 1 ++ leBytes 8 7 ++ zeros 16 ++
    leBytes 2 0 ++ leBytes 2 5 ++ zeros 52

def manifestBody : List Byte := manifestHead ++ (shake256 32 [] ++ zeros 80)
def manifest0 : List Byte := manifestBody ++ shake256 32 manifestBody

theorem shake_length : (shake256 32 []).length = 32 := by decide +kernel

theorem manifest_ok : manifestStatus (some (snapSet 15)) 0 0 9 1 7 manifest0 = stOk := by
  have hh : manifestHead.length = 112 := by decide +kernel
  have hl : manifestBody.length = 224 := by
    simp only [manifestBody, List.length_append, hh, shake_length]; rfl
  have h1 : slice manifest0 224 32 = shake256 32 (slice manifest0 0 224) := by
    have ha : slice manifest0 0 224 = manifestBody := by simp [slice, manifest0, ← hl]
    have hb : slice manifest0 224 32 = shake256 32 manifestBody := by
      have ht : (shake256 32 manifestBody).take 32 = shake256 32 manifestBody := by simp [shake256, List.take_take]
      simp only [slice, manifest0]
      rw [List.drop_left' hl, ht]
    rw [ha, hb]
  have h2 : slice manifest0 112 32 = shake256 32 [] := by
    simp only [slice, manifest0, manifestBody, List.append_assoc]
    rw [List.drop_left' hh, List.take_left' shake_length]
  unfold manifestStatus
  rw [decide_eq_true h1, Option.any_some,
    show decide (slice manifest0 112 32 = shake256 32 (snapSet 15).table) = true from decide_eq_true h2]
  decide +kernel

def takePk : Entry := pk 0x90 (.snapTake 0 true)
/-- The block with a packet that waits for the answer of device 1 to its message 7, with what it keeps. -/
def asked (d : Dev) (op : Nat) (p : Payload) (body : MsgBody) (own : List Byte) : State :=
  on { d with links := { d.links with sent := [⟨⟨7, 0, 1, 1, body⟩, some one, 0, false⟩] } } (pkAt op p (.running (.coll true own Result.fresh)))

theorem answered_on {d : Dev} (op : Nat) (p : Payload) (body : MsgBody) (own : List Byte) (m : Message) (hd : d.errDue = []) (hs : m.src = 1)
    (hr : readOf m.body = some 7) :
    Answered (asked d op p body own) one (pkAt op p (.running (.coll true own Result.fresh))) m own ((asked d op p body own).dev.settled 7) :=
  ⟨rfl, ⟨_, rfl⟩, ⟨7, _, hr, rfl, rfl, hs.symm, rfl⟩, hd⟩

/-- A RESTORE STATE that gets its slot. -/
def imageAsked : State := asked (withJob none (some (snapSet 15))) 0x92 (.restoreState 9 1 0 0 9 1 7 true) (.snapRead 9 0) []
def imagePk : Entry := pkAt 0x92 (.restoreState 9 1 0 0 9 1 7 true) (.running (.coll true [] Result.fresh))
def imageStart : Ctx := .start (imageAsked.dev.settled 7) one imagePk

theorem image_write (g : List Byte) (hg : g.length = granuleBytes) : ∃ y, writeIn accPlain imagePk.hdr.part 0x800000 g imageStart = .ok ⟨⟩ y := by
  have ht : imageStart.dev.translate { accPlain with write := true } 0 0x800000 = .ok (⟨paOf .hbm 513, .data⟩, paOf .hbm 513) := rfl
  have hp : imagePk.hdr.part = 0 := rfl
  simp only [granuleBytes] at hg
  simp [writeIn, hg, hp, piecesOf, pieces, xlate, ht, List.foldlM]

/-- A read of one piece of memory without errors ends. -/
theorem read_one {a : Access} {part va n pa : Nat} {e : Pte} {x : Ctx} (hp : piecesOf va n = [(va, n)])
    (ht : x.dev.translate a part va = .ok (e, pa)) (hu : x.dev.mem.ue = []) (hc : x.dev.mem.ces = []) :
    ∃ b, readIn a part va n x = .ok b x := by
  refine ⟨overlay x.eff pa (getBytes x.dev.mem.bytes pa n), ?_⟩
  have hr : readPhys pa n x = .ok (overlay x.eff pa (getBytes x.dev.mem.bytes pa n)) x := by rw [readPhys_eq]; simp [hu, hc]
  unfold readIn
  rw [hp]
  simp [xlate, ht, hr]

def takeStart : Ctx := .start ((on (withJob (some log0) (some (snapSet 15))) takePk).dev.modSnap 0 SnapSet.untake) one takePk

theorem take_granule : ∃ m y, takeGranule 0 0 0 (on (withJob (some log0) (some (snapSet 15))) takePk).dev.epochOf
    (snapSet 15).untake 0 takeStart = .ok m y := by
  obtain ⟨b, hb⟩ := read_one (a := accPlain) (part := 0) (va := 0x800000) (n := granuleBytes) (x := takeStart) (pa := paOf .hbm 513)
    (e := ⟨paOf .hbm 513, .data⟩) (by decide +kernel) rfl rfl rfl
  have hg : granuleAt (snapSet 15).untake.regions 0 = some (region0, 0) := by decide +kernel
  have hv : region0.pick 0 (on (withJob (some log0) (some (snapSet 15))) takePk).dev.epochOf + granuleBytes * 0 = 0x800000 := by
    decide +kernel
  unfold takeGranule
  rw [hg]
  simp only [hv]
  rw [run_bind_ok hb]
  exact ⟨_, _, rfl⟩

theorem take_granules : ∃ msgs y, ((snapSet 15).untake.dirtyFor (0 % 4)).mapM (takeGranule 0 0 0
    (on (withJob (some log0) (some (snapSet 15))) takePk).dev.epochOf (snapSet 15).untake) takeStart = .ok msgs y := by
  obtain ⟨m, y, h⟩ := take_granule
  have hd : (snapSet 15).untake.dirtyFor (0 % 4) = [0] := by decide +kernel
  rw [hd, List.mapM_cons, run_bind_ok h]
  exact ⟨_, _, rfl⟩

theorem forM_single {α : Type} {f : α → Run PUnit} {a : α} {x y : Ctx} (h : f a x = .ok ⟨⟩ y) : [a].forM f x = .ok ⟨⟩ y := by
  change (f a >>= fun _ => pure PUnit.unit) x = _
  rw [run_bind_ok h]; rfl

/-- The slot with that manifest and a granule of zeros. -/
def slot0 : List Byte := manifest0 ++ (zeros (granuleBytes - 256) ++ zeros granuleBytes)

theorem manifest_length : manifest0.length = 256 := by
  have hh : manifestHead.length = 112 := by decide +kernel
  have h2 : (shake256 32 manifestBody).length = 32 := by decide +kernel
  have hz : (zeros 80).length = 80 := by simp [zeros]
  rw [manifest0, List.length_append, h2]
  simp only [manifestBody, List.length_append, hh, shake_length, hz]

theorem slot_manifest : slot0.take 256 = manifest0 := by
  rw [slot0, List.take_left' manifest_length]

theorem slot_length : slot0.length = granuleBytes * 2 := by
  simp only [slot0, List.length_append, manifest_length, zeros, List.length_replicate, granuleBytes]

theorem slot_restores : ∃ y, (List.range 1).forM (restoreGranule 0 [region0] (leAt manifest0 24 4) (leAt manifest0 62 2) slot0)
    imageStart = .ok ⟨⟩ y := by
  have hl : (slice slot0 (granuleBytes * (0 + 1)) granuleBytes).length = granuleBytes := by
    simp only [slice, List.length_take, List.length_drop, slot_length, granuleBytes]; rfl
  obtain ⟨y, hy⟩ := image_write _ hl
  have hg : granuleAt [region0] 0 = some (region0, 0) := by decide +kernel
  have hv : ∀ k f, region0.pick k f + granuleBytes * 0 = 0x800000 := fun _ _ => rfl
  refine ⟨y, ?_⟩
  rw [List.range_one]
  exact forM_single (by simp only [restoreGranule, hg, hv]; exact hy)

/-- The block with a route to both buddies. -/
def toBoth (d : Dev) : Dev := { d with links := { d.links with routes := [(1, 0x8000), (2, 0x8000)] } }

/-- The block whose CONFIG has the answer of one buddy and gets the other's. -/
def configAsked : State := asked (withJob none none) 0x91 (.snapConfig snapCfg) (.storeRead 9) (leBytes 8 0x20000)

theorem config_reads : ∃ b y, readIn accPlain 0 0x600000 (32 * 1) (.start (configAsked.dev.settled 7).claimed one
    (pkAt 0x91 (.snapConfig snapCfg) (.running (.coll true (leBytes 8 0x20000) Result.fresh)))) = .ok b y ∧
    (List.range 1).map (parseRegion b) = [region0] := ⟨_, _, rfl, by decide +kernel⟩

theorem witness_SnapshotCommandsComplete :
    (∃ s c e i source srcPart hostPart slotBytes a b r x, Ready s c e ∧
      e.payload = .snapStore i source srcPart hostPart slotBytes a b r ∧
      let d := s.dev.claimed
      let host := if hostPart = 0xFF then (s.dev.queue e.hdr.queue).part else hostPart
      let n := 2 * (slotBytes / pageBytes) + a + b
      host < 14 ∧ (d.part host).state ≠ .free ∧ d.store i = none ∧
      storePages (d.seenBy e) (d.part host) n ⟨[], [], [], [], []⟩ = some x) ∧
    (∃ s c e, ∃ x : SnapConfig, Ready s c e ∧ e.payload = .snapConfig x ∧ x.buddy0 ≠ x.buddy1 ∧
      x.buddy0 ≠ s.dev.links.devNum ∧ x.buddy1 ≠ s.dev.links.devNum ∧ s.dev.routeOk x.buddy0 = true ∧ s.dev.routeOk x.buddy1 = true) ∧
    (∃ s c e m d', ∃ x : SnapConfig, ∃ k n, Answered s c e m [] d' ∧ e.payload = .snapConfig x ∧ m.body = .storeData k n) ∧
    (∃ s c e m own d', ∃ x : SnapConfig, ∃ k n ms pos b y, Answered s c e m own d' ∧ own ≠ [] ∧ e.payload = .snapConfig x ∧
      m.body = .storeData k n ∧ d'.claimed.takeRuns e.hdr.part c = false ∧ d'.claimed.groupOf e.hdr.part x.group = some (ms, pos) ∧
      readIn accPlain e.hdr.part x.tableVa (32 * x.nRegions) (.start d'.claimed c e) = .ok b y ∧
      let rs := (List.range x.nRegions).map (parseRegion b)
      let g := totalGranules rs
      (∀ r ∈ rs, d'.claimed.regionOk e.hdr.part r = true) ∧ granuleBytes * (g + 1) ≤ n ∧ granuleBytes * (g + 1) ≤ leAt own 0 8) ∧
    (∃ s c e n r set msgs y, Ready s c e ∧ e.payload = .snapTake n r ∧ s.dev.takeRuns e.hdr.part c = false ∧
      (s.dev.trainOf e.hdr.part).snap = some set ∧ n = set.untake.nextGen ∧ (s.dev.trainOf e.hdr.part).marked = true ∧
      s.dev.routeOk (set.untake.buddyOf (n % 4)).1 = true ∧
      (set.untake.dirtyFor (n % 4)).mapM (takeGranule e.hdr.part n (s.dev.trainOf e.hdr.part).step s.dev.epochOf set.untake)
        (.start (s.dev.modSnap e.hdr.part SnapSet.untake) c e) = .ok msgs y) ∧
    (∃ s c e store buddy position gen job epoch cursor r, Ready s c e ∧
      e.payload = .restoreState store buddy position gen job epoch cursor r ∧ s.dev.routeOk buddy = true) ∧
    (∃ s c e m own d' store buddy position gen job epoch cursor r k slot set u x, Answered s c e m own d' ∧
      e.payload = .restoreState store buddy position gen job epoch cursor r ∧ m.body = .snapData k slot ∧
      (d'.trainOf e.hdr.part).snap = some set ∧
      let n := totalGranules set.regions
      let b := slot.take 256
      granuleBytes * (n + 1) ≤ slot.length ∧ manifestStatus (some set) position gen job epoch cursor b = stOk ∧
      (List.range n).forM (restoreGranule e.hdr.part set.regions (leAt b 24 4) (leAt b 62 2) slot) (.start d' c e) = .ok u x) ∧
    (∃ s c e store buddy p1 p2 r, Ready s c e ∧ e.payload = .restoreLog store buddy p1 p2 r ∧ s.dev.routeOk buddy = true) ∧
    (∃ s c e m own d' p1 p2 p3 p4 r l k a b na nb x y, Answered s c e m own d' ∧ e.payload = .restoreLog p1 p2 p3 p4 r ∧
      m.body = .logData k a b ∧ (d'.trainOf e.hdr.part).log = some l ∧
      restoreShare e.hdr.part l 0 (mirrorEntries a) (.start d' c e) = .ok na x ∧
      restoreShare e.hdr.part l 1 (mirrorEntries b) x = .ok nb y) := by
  obtain ⟨msgs, y, ht⟩ := take_granules
  obtain ⟨b, z, hc, hr⟩ := config_reads
  obtain ⟨w, hw⟩ := slot_restores
  refine ⟨⟨on base (pk 0x93 (.snapStore 0 1 0 0xFF 65536 1 1 true)), one, _, 0, 1, 0, 0xFF, 65536, 1, 1, true, _,
      ready_on _ _ rfl rfl, rfl, by decide +kernel, by decide +kernel, rfl, rfl⟩,
    ⟨on (toBoth (withJob none none)) (pk 0x91 (.snapConfig snapCfg)), one, _, snapCfg, ready_on _ _ rfl rfl, rfl, by decide, by decide, by decide,
      by decide +kernel, by decide +kernel⟩,
    ⟨asked (withJob none none) 0x91 (.snapConfig snapCfg) (.storeRead 1) [], one, _, ⟨9, 1, 0, 1, .storeData 7 0x20000⟩, _, snapCfg, 7, 0x20000,
      answered_on _ _ _ _ _ rfl rfl rfl, rfl, rfl⟩,
    ⟨configAsked, one, _, ⟨9, 1, 0, 1, .storeData 7 0x20000⟩, leBytes 8 0x20000, _, snapCfg, 7, 0x20000, _, _, b, z,
      answered_on _ _ _ _ _ rfl rfl rfl, by decide, rfl, rfl, by decide +kernel, rfl, hc, ?_, ?_, ?_⟩,
    ⟨on (withJob (some log0) (some (snapSet 15))) takePk, one, _, 0, true, _, msgs, y, ready_on _ _ rfl rfl, rfl, by decide +kernel, rfl,
      by decide +kernel, by decide +kernel, by decide +kernel, ht⟩,
    ⟨on (withJob none (some (snapSet 15))) (pk 0x92 (.restoreState 9 1 0 0 9 1 7 true)), one, _, 9, 1, 0, 0, 9, 1, 7, true,
      ready_on _ _ rfl rfl, rfl, by decide +kernel⟩,
    ⟨imageAsked, one, imagePk,
      ⟨9, 1, 0, 1, .snapData 7 slot0⟩, [], _, 9, 1, 0, 0, 9, 1, 7, true, 7, slot0, snapSet 15, ⟨⟩, w,
      answered_on _ _ _ _ _ rfl rfl rfl, rfl, rfl, rfl, by rw [slot_length]; decide, by rw [slot_manifest]; exact manifest_ok,
      by rw [slot_manifest]; exact hw⟩,
    ⟨on (withJob (some log0) none) (pk 0x94 (.restoreLog 9 1 0 0 true)), one, _, 9, 1, 0, 0, true, ready_on _ _ rfl rfl, rfl,
      by decide +kernel⟩,
    ⟨asked (withJob (some log0) none) 0x94 (.restoreLog 9 1 0 0 true) (.logRead 9) [], one, _, ⟨9, 1, 0, 1, .logData 7 [] []⟩, [], _, 9, 1, 0, 0,
      true, log0, 7, [], [], 0, 0, _, _, answered_on _ _ _ _ _ rfl rfl rfl, rfl, rfl, rfl, rfl, rfl⟩⟩
  · intro r hm
    change r ∈ (List.range 1).map (parseRegion b) at hm
    rw [hr, List.mem_singleton] at hm
    rw [hm]; decide +kernel
  · change granuleBytes * (totalGranules ((List.range 1).map (parseRegion b)) + 1) ≤ 0x20000
    rw [hr]; decide +kernel
  · change granuleBytes * (totalGranules ((List.range 1).map (parseRegion b)) + 1) ≤ leAt (leBytes 8 0x20000) 0 8
    rw [hr]; decide +kernel

def store0 : Store := ⟨1, 0, 0, 65536, 1, 1, []⟩
def withStore : Dev := { withXch [] with train := { Training.reset with stores := [(3, store0)] } }
def recovery0 : Recovery := ⟨0, 0, 5, true, true, some (zeros 32)⟩
def withRecovery : Dev := { withJob none (some (snapSet 15)) with train := { (withJob none (some (snapSet 15))).train with recovery := some recovery0 } }

theorem witness_LogAndRecoveryComplete :
    (∃ s c e a b pa pb r, Ready s c e ∧ e.payload = .logConfig a b pa pb r ∧
      let d := s.dev.claimed
      (d.trainOf e.hdr.part).log = none ∧ d.ringOk e.hdr.part 0 a pa = true ∧ d.ringOk e.hdr.part 1 b pb = true) ∧
    (∃ s c e step cursor digest r l, Ready s c e ∧ e.payload = .logMark step cursor digest r ∧ (s.dev.trainOf e.hdr.part).log = some l) ∧
    (∃ s c e p pos gen r, Ready s c e ∧ e.payload = .spareBegin p pos gen r ∧ s.dev.claimed.train.recovery = none) ∧
    (∃ s c e p pos r x, Ready s c e ∧ e.payload = .spareEnd p pos r ∧
      let d := s.dev.claimed
      d.train.recovery = some x ∧ x.part = p ∧ x.position = pos ∧ x.stateDone = true ∧ x.logDone = true ∧ d.teacherOk x = true) ∧
    (∃ s c e p pos r, Ready s c e ∧ e.payload = .spareAbandon p pos r) ∧
    (∃ s : State, ∃ m : Message, ∃ i share lsn data st, m.body = .logEntry i share lsn data ∧ s.dev.store i = some st ∧ st.source = m.src ∧
      share ≤ 1 ∧ 0 < st.mirrorPages share ∧ data.length = 64) ∧
    (∃ s : State, ∃ m : Message, ∃ i st slot off data, m.body = .snapWrite i slot off data ∧ s.dev.store i = some st ∧ st.source = m.src ∧
      slot < 4 ∧ off + data.length ≤ st.slotBytes) ∧
    (∃ s : State, ∃ m : Message, ∃ i st slot off data, s.dev.errDue = [] ∧ m.body = .snapWrite i slot off data ∧ s.dev.store i = some st ∧
      st.source ≠ m.src) ∧
    (∃ s : State, ∃ m : Message, ∃ i st slot, m.body = .snapRead i slot ∧ s.dev.store i = some st ∧ slot < 4) ∧
    (∃ s : State, ∃ m : Message, ∃ i st, m.body = .logRead i ∧ s.dev.store i = some st) ∧
    (∃ s : State, ∃ m : Message, ∃ i st, m.body = .storeRead i ∧ s.dev.store i = some st) ∧
    (∃ s : State, ∀ x ∈ s.dev.live, s.dev.voteOf x.2.ref = none) :=
  ⟨⟨on (withJob none none) (pk 0x95 (.logConfig 0xA00000 0xC00000 1 1 true)), one, _, 0xA00000, 0xC00000, 1, 1, true, ready_on _ _ rfl rfl,
      rfl, rfl, by decide +kernel, by decide +kernel⟩,
    ⟨on (withJob (some log0) none) (pk 0x96 (.logMark 2 8 [9] true)), one, _, 2, 8, [9], true, log0, ready_on _ _ rfl rfl, rfl, rfl⟩,
    ⟨on base (pk 0x97 (.spareBegin 0 0 5 true)), one, _, 0, 0, 5, true, ready_on _ _ rfl rfl, rfl, rfl⟩,
    ⟨on withRecovery (pk 0x98 (.spareEnd 0 0 true)), one, _, 0, 0, true, recovery0, ready_on _ _ rfl rfl, rfl, rfl, rfl, rfl, rfl, rfl,
      by decide +kernel⟩,
    ⟨on withRecovery (pk 0x99 (.spareAbandon 0 0 true)), one, _, 0, 0, true, ready_on _ _ rfl rfl, rfl⟩,
    ⟨⟨withStore, []⟩, ⟨0, 1, 0, 2, .logEntry 3 1 8 (zeros 64)⟩, 3, 1, 8, _, store0, rfl, rfl, rfl, by decide, by decide, by decide⟩,
    ⟨⟨withStore, []⟩, ⟨0, 1, 0, 2, .snapWrite 3 3 65535 [7]⟩, 3, store0, 3, 65535, [7], rfl, rfl, rfl, by decide, by decide⟩,
    ⟨⟨withStore, []⟩, ⟨0, 2, 0, 2, .snapWrite 3 3 65535 [7]⟩, 3, store0, 3, 65535, [7], rfl, rfl, rfl, by decide⟩,
    ⟨⟨withStore, []⟩, ⟨0, 2, 0, 2, .snapRead 3 3⟩, 3, store0, 3, rfl, rfl, by decide⟩,
    ⟨⟨withStore, []⟩, ⟨0, 2, 0, 2, .logRead 3⟩, 3, store0, rfl, rfl⟩,
    ⟨⟨withStore, []⟩, ⟨0, 2, 0, 2, .storeRead 3⟩, 3, store0, rfl, rfl⟩,
    ⟨⟨withStore, []⟩, fun _ h => by cases h⟩⟩

def votePay : Payload := .stepVote 0 0 1 5 10 true

/-- A VOTE that waits. -/
def votePk (v : VoteWait) : Entry := pkAt 0xA0 votePay (.running (.coll true v.bytes Result.fresh))

/-- Tick 100 everywhere. -/
def later (d : Dev) : Dev := { d with clk := { base.clk with tick := 100, copies := List.replicate 55 100 } }

/-- Group 5 seen from device 1. -/
def fromLeaf : Dev := { withJob none none with links := { (withJob none none).links with groups := [(5, { group5 with pos := 1 })], routes := [(0, 0x8000)], devNum := 1 } }

theorem witness_StepCommitCompletes :
    (∃ s c e attempt dieMask step group window r ms pos, Ready s c e ∧ e.payload = .stepVote attempt dieMask step group window r ∧
      s.dev.groupOf e.hdr.part group = some (ms, pos) ∧ step = nextStep (s.dev.trainOf e.hdr.part).step ∧
      (pos = 0 ∨ s.dev.routeOk (memberAt ms (treeParent pos)) = true) ∧
      (tget [] s.dev.train.table (groupSlot e.hdr.part group)).find? (fun x => x.standsFor step attempt) = none) ∧
    (∃ s : State, ∃ c e v, s.dev.voteOf c = some (e, v) ∧ v.ready = true ∧ v.stage = 1 ∧ v.code = 2) ∧
    (∃ s : State, ∃ c e v attempt dieMask step group window r, s.dev.voteOf c = some (e, v) ∧ v.ready = true ∧ v.stage = 1 ∧ v.code ≠ 2 ∧
      e.payload = .stepVote attempt dieMask step group window r) ∧
    (∃ s : State, ∃ c e v attempt dieMask step group window r ms, s.dev.voteOf c = some (e, v) ∧
      e.payload = .stepVote attempt dieMask step group window r ∧ s.dev.groupOf e.hdr.part group = some (ms, 0) ∧ v.stage ≤ 1 ∧
      v.ready = false ∧ v.tick + window < s.dev.tickAt 16) ∧
    (∃ s : State, ∃ c e v attempt dieMask step group window r, s.dev.voteOf c = some (e, v) ∧
      e.payload = .stepVote attempt dieMask step group window r ∧ v.tick + window < s.dev.tickAt 16 ∧ v.stage = 0) ∧
    (∃ s : State, ∃ c e v attempt dieMask step group window r, s.dev.voteOf c = some (e, v) ∧
      e.payload = .stepVote attempt dieMask step group window r ∧ v.tick + window < s.dev.tickAt 16 ∧ 2 ≤ v.stage) ∧
    (∃ s : State, ∃ e attempt dieMask step group window r ms pos code q before after, s.dev.live = before ++ (q, e) :: after ∧
      (∀ x ∈ before ++ after, x.2.coll = none) ∧ e.payload = .stepVote attempt dieMask step group window r ∧ e.coll.isSome = true ∧
      s.dev.groupOf e.hdr.part group = some (ms, pos) ∧ pos ≠ 0 ∧ code ≤ 2) ∧
    (∃ s c e p step group p2 r ms, Ready s c e ∧ e.payload = .stepQuery p step group p2 r ∧
      s.dev.groupOf e.hdr.part group = some (ms, 0)) ∧
    (∃ s c e p step group p2 r ms pos, Ready s c e ∧ e.payload = .stepQuery p step group p2 r ∧
      s.dev.groupOf e.hdr.part group = some (ms, pos) ∧ pos ≠ 0 ∧ s.dev.routeOk (memberAt ms 0) = true) ∧
    (∃ s : State, ∃ src group g, tfind s.dev.links.groups group = some g ∧ g.pos = 0 ∧ (∃ m ∈ g.members, m.device = src)) :=
  ⟨⟨on (withJob (some log0) none) (pk 0xA0 votePay), one, _, 0, 0, 1, 5, 10, true, _, _, ready_on _ _ rfl rfl, rfl, rfl, rfl, .inl rfl, rfl⟩,
    ⟨on (withJob (some log0) none) (votePk ⟨2, 0, 1, 0, 0, 0, true⟩), one, _, ⟨2, 0, 1, 0, 0, 0, true⟩, rfl, rfl, rfl, rfl⟩,
    ⟨on (withJob (some log0) none) (votePk ⟨0, 0, 1, 0, 0, 0, true⟩), one, _, ⟨0, 0, 1, 0, 0, 0, true⟩, 0, 0, 1, 5, 10, true, rfl, rfl, rfl,
      by decide, rfl⟩,
    ⟨on (later (withJob (some log0) none)) (votePk ⟨0, 0, 1, 89, 0, 0, false⟩), one, _, ⟨0, 0, 1, 89, 0, 0, false⟩, 0, 0, 1, 5, 10, true, _,
      rfl, rfl, rfl, by decide, rfl, by decide +kernel⟩,
    ⟨on (later (withJob (some log0) none)) (votePk ⟨0, 0, 0, 89, 0, 0, false⟩), one, _, ⟨0, 0, 0, 89, 0, 0, false⟩, 0, 0, 1, 5, 10, true,
      rfl, rfl, by decide +kernel, rfl⟩,
    ⟨on (later (withJob (some log0) none)) (votePk ⟨0, 0, 2, 89, 0, 0, true⟩), one, _, ⟨0, 0, 2, 89, 0, 0, true⟩, 0, 0, 1, 5, 10, true,
      rfl, rfl, by decide +kernel, by decide⟩,
    ⟨on fromLeaf (votePk ⟨0, 0, 1, 0, 0, 0, false⟩), _, 0, 0, 1, 5, 10, true, _, 1, 2, 2, [], [], live_on _ rfl, fun _ h => (by cases h), rfl, rfl,
      rfl, by decide, by decide⟩,
    ⟨on (withJob (some log0) none) (pk 0xA1 (.stepQuery 0 1 5 0 true)), one, _, 0, 1, 5, 0, true, _, ready_on _ _ rfl rfl, rfl, rfl⟩,
    ⟨on fromLeaf (pk 0xA1 (.stepQuery 0 1 5 0 true)), one, _, 0, 1, 5, 0, true, _, 1, ready_on _ _ rfl rfl, rfl, rfl, by decide, by decide +kernel⟩,
    ⟨⟨withXch [], []⟩, 1, 5, group5, rfl, rfl, ⟨1, 0, 0⟩, by decide, rfl⟩⟩
/-! ### Hypotheses that are met: the links -/

/-- Device 0 of group 5, whose port 0, at which device 1 lies, is as given. -/
def withPort (p : Port) : Dev := { withXch [] with links := { (withXch []).links with ports := [(0, p)] } }
def portIn (st : PortState) : Port := { Port.reset with state := st }
def upDev : Dev := withPort (portIn .up)

/-- The list of the members of group 5 at 0x600000. -/
def withList : Dev :=
  { upDev with mem := { base.mem with bytes := cellsOf (paOf .hbm 512) (leBytes 8 0 ++ leBytes 8 1) } }

def declPk (g : Nat) : Entry := pk 0xB1 (.groupDeclare g 2 0x600000 true)
def linkPk : Entry := pk 0xB3 (.linkWrite 5 1 16 0x800000 fp16Desc true)
def chainPk : Entry := pk 0xB5 (.chainReduce 5 0 1 1 3 0 0x600000 64 0 0x800000 true)

def listBytes : List Byte := leBytes 8 0 ++ leBytes 8 1

theorem decl_reads (g : Nat) : ∃ b x, readIn accPlain 0 0x600000 (8 * 2) (.start (on withList (declPk g)).dev.claimed one (declPk g)) = .ok b x ∧
    b = listBytes := by
  obtain ⟨b, hb⟩ := read_one (a := accPlain) (part := 0) (va := 0x600000) (n := 8 * 2) (x := .start (on withList (declPk g)).dev.claimed one (declPk g))
    (pa := paOf .hbm 512) (e := ⟨paOf .hbm 512, .data⟩) (by decide +kernel) rfl rfl rfl
  refine ⟨_, _, hb, ?_⟩
  have h : readIn accPlain 0 0x600000 (8 * 2) (.start (on withList (declPk g)).dev.claimed one (declPk g)) =
      .ok (getBytes withList.mem.bytes (paOf .hbm 512) 16 ++ []) (.start (on withList (declPk g)).dev.claimed one (declPk g)) := rfl
  rw [hb] at h
  injection h with h _

theorem list_members : ∀ m ∈ (List.range 2).map (parseMember listBytes), m.2 = true ∧ m.1.part < 14 ∧ m.1.device < 16384 := by
  decide +kernel

theorem witness_LinkCommandsComplete :
    (∃ s c e runs r, Ready s c e ∧ e.payload = .routeSet runs r) ∧
    (∃ s c e g n va r b x, Ready s c e ∧ e.payload = .groupDeclare g n va r ∧
      let d := s.dev.claimed
      readIn accPlain e.hdr.part va (8 * n) (.start d c e) = .ok b x ∧
      let ms := (List.range n).map (parseMember b)
      let devs := ms.map (·.1.device)
      (∀ m ∈ ms, m.2 = true ∧ m.1.part < 14 ∧ m.1.device < 16384) ∧ nodupNat devs = devs ∧ d.links.devNum ∈ devs ∧
      tfind d.links.groups g = none ∧ d.links.groups.length < 256) ∧
    (∃ s c e g n va r b x old, Ready s c e ∧ e.payload = .groupDeclare g n va r ∧
      let d := s.dev.claimed
      readIn accPlain e.hdr.part va (8 * n) (.start d c e) = .ok b x ∧
      let ms := (List.range n).map (parseMember b)
      let devs := ms.map (·.1.device)
      (∀ m ∈ ms, m.2 = true ∧ m.1.part < 14 ∧ m.1.device < 16384) ∧ nodupNat devs = devs ∧ d.links.devNum ∈ devs ∧
      tfind d.links.groups g = some old ∧ old.part = e.hdr.part ∧ d.groupInUse c g = false) ∧
    (∃ s c e g r old, Ready s c e ∧ e.payload = .groupRemove g r ∧
      let d := s.dev.claimed
      tfind d.links.groups g = some old ∧ old.part = e.hdr.part ∧ d.groupInUse c g = false) ∧
    (∃ s c e g p n va, ∃ src : Desc, ∃ r ms pos, ∃ m : GroupMember, ∃ data x, Ready s c e ∧ e.payload = .linkWrite g p n va src r ∧
      s.dev.groupOf e.hdr.part g = some (ms, pos) ∧ ms[p]? = some m ∧ s.dev.routeOk m.device = true ∧
      readVa accMover src.va n (.start s.dev c e) = .ok data x) ∧
    (∃ s c e g p tok val r ms pos, ∃ m : GroupMember, Ready s c e ∧ e.payload = .linkSignal g p tok val r ∧
      s.dev.groupOf e.hdr.part g = some (ms, pos) ∧ ms[p]? = some m ∧ s.dev.routeOk m.device = true) ∧
    (∃ s c e g op w n tag outFmt inVa inStride inFmt outVa r ms pos own d' x, Ready s c e ∧
      e.payload = .chainReduce g op w n tag outFmt inVa inStride inFmt outVa r ∧ s.dev.groupOf e.hdr.part g = some (ms, pos) ∧
      Joins s.dev e g (.chain tag) d' ∧
      chainLocal op w n outFmt inVa inStride inFmt (((ms[pos]?).map (·.idxOffset)).getD 0) (.start d' c e) = .ok own x) := by
  obtain ⟨b, x, hb, rfl⟩ := decl_reads 6
  obtain ⟨b', x', hb', rfl⟩ := decl_reads 5
  obtain ⟨d, y, hd⟩ := ranOk_ok (r := readVa accMover fp16Desc.va 16 (.start (on withList linkPk).dev one linkPk)) (by decide +kernel)
  obtain ⟨o, z, ho⟩ := ranOk_ok (r := chainLocal 0 1 1 0 0x600000 64 0 0 (.start (on withList chainPk).dev one chainPk)) (by decide +kernel)
  exact ⟨⟨on base (pk 0xB0 (.routeSet [(1, 1, 0x8001)] true)), one, _, _, true, ready_on _ _ rfl rfl, rfl⟩,
    ⟨_, one, _, 6, 2, 0x600000, true, _, x, ready_on _ _ rfl rfl, rfl, hb, list_members, by decide +kernel, by decide +kernel, rfl, by decide⟩,
    ⟨_, one, _, 5, 2, 0x600000, true, _, x', group5, ready_on _ _ rfl rfl, rfl, hb', list_members, by decide +kernel, by decide +kernel, rfl, rfl,
      by decide +kernel⟩,
    ⟨on upDev (pk 0xB2 (.groupRemove 5 true)), one, _, 5, true, group5, ready_on _ _ rfl rfl, rfl, rfl, rfl, by decide +kernel⟩,
    ⟨on withList linkPk, one, linkPk, 5, 1, 16, 0x800000, fp16Desc, true, _, _, _, d, y, ready_on _ _ rfl rfl, rfl, rfl, rfl, by decide +kernel, hd⟩,
    ⟨on upDev (pk 0xB4 (.linkSignal 5 1 2 3 true)), one, _, 5, 1, 2, 3, true, _, _, _, ready_on _ _ rfl rfl, rfl, rfl, rfl, by decide +kernel⟩,
    ⟨on withList chainPk, one, chainPk, 5, 0, 1, 1, 3, 0, 0x600000, 64, 0, 0x800000, true, _, _, o, _, z, ready_on _ _ rfl rfl, rfl, rfl,
      ⟨rfl, by decide +kernel, rfl, fun h => by cases h⟩, ho⟩⟩

def withLinks (f : Links → Links) : Dev := { upDev with links := f upDev.links }
def message (b : MsgBody) : Message := ⟨9, 1, 0, 3, b⟩
def sentPk (p : Payload) : Entry := pkAt 0xB3 p (.running (.coll true [] Result.fresh))

/-- The block with a message on its way for the packet of queue 2. -/
def withSent (b : MsgBody) (tick : Nat) : Dev :=
  later (withLinks (fun l => { l with sent := [⟨⟨9, 0, 1, 3, b⟩, some one, tick, false⟩] }))

theorem witness_MessagesComplete :
    (∃ m : Message, ∃ g digest key pos data, m.body = .groupVal g digest key pos true data ∧ ∀ step attempt, key ≠ .vote step attempt) ∧
    (∃ s : State, ∃ m : Message, ∃ g p va xfer data l, m.body = .linkData g p va xfer data ∧ s.dev.groupLists g m.src p = true ∧
      s.dev.linkPieces p va data = .ok l) ∧
    (∃ s : State, ∃ m : Message, ∃ g p va xfer data, m.body = .linkData g p va xfer data ∧ s.dev.groupLists g m.src p = false) ∧
    (∃ s : State, ∃ m : Message, ∃ g p xfer l, m.body = .commitMsg g p xfer ∧
      s.dev.landing (s.dev.links.shadow.filter (fun x => x.src == m.src && x.xfer == xfer)) = .ok l) ∧
    (∃ s : State, ∃ m : Message, ∃ g p tok val, m.body = .signal g p tok val ∧ s.dev.groupLists g m.src p = true) ∧
    (∃ s : State, ∃ m : Message, ∃ g p tok val, m.body = .signal g p tok val ∧ s.dev.groupLists g m.src p = false) ∧
    (∃ s : State, ∃ id x c e sent own res g p va xfer data, s.dev.sentMsg id = some x ∧ x.cmd = some c ∧
      (s.dev.settled id).entry c = some e ∧ e.phase = .running (.coll sent own res) ∧ x.msg.body = .linkData g p va xfer data) ∧
    (∃ s : State, ∃ id x c e, s.dev.sentMsg id = some x ∧ x.cmd = some c ∧ (s.dev.settled id).entry c = some e ∧ e.inFlight = true ∧
      isHostBound x.msg.body = false ∧ (∀ p m r, e.payload ≠ .reclaim p m r) ∧ (∀ g d step a pos up v, x.msg.body ≠ .groupVal g d (.vote step a) pos up v) ∧
      x.held = false ∧ x.tick + 10000 < s.dev.clk.tick) ∧
    (∃ s : State, ∃ dst ids, tfind s.dev.links.holds dst = some ids ∧ ∀ x ∈ s.dev.links.sent, x.msg.id ∉ ids) ∧
    (∃ s : State, ∃ m : Message, m.dst ≠ s.dev.links.devNum ∧ s.dev.routeOk m.dst = true) ∧
    (∃ s : State, ∃ m : Message, m.dst ≠ s.dev.links.devNum ∧ s.dev.routeOk m.dst = false) ∧
    (∃ s : State, ∃ m : Message, ∃ iova data, m.dst = s.dev.links.devNum ∧ m.body = .hostWrite iova data ∧ s.dev.links.bridge = true ∧
      s.dev.links.hostUp = true) ∧
    (∃ s : State, ∃ id p x, s.dev.parts.p.filter (fun kv => kv.2.span && kv.2.spanId == id) = [(p, x)]) :=
  ⟨⟨message (.groupVal 5 77 (.chain 3) 1 true []), 5, 77, .chain 3, 1, [], rfl, fun _ _ => by simp⟩,
    ⟨⟨upDev, []⟩, message (.linkData 5 0 0x600000 4 [1, 2]), 5, 0, 0x600000, 4, [1, 2], _, rfl, by decide +kernel, rfl⟩,
    ⟨⟨upDev, []⟩, message (.linkData 6 0 0x600000 4 [1, 2]), 6, 0, 0x600000, 4, [1, 2], rfl, by decide +kernel⟩,
    ⟨⟨withLinks (fun l => { l with shadow := [⟨1, 4, 0, 0x600000, [1]⟩] }), []⟩, message (.commitMsg 5 0 4), 5, 0, 4, [(paOf .hbm 512, [1])], rfl, rfl⟩,
    ⟨⟨upDev, []⟩, message (.signal 5 0 2 3), 5, 0, 2, 3, rfl, by decide +kernel⟩,
    ⟨⟨upDev, []⟩, message (.signal 5 1 2 3), 5, 1, 2, 3, rfl, by decide +kernel⟩,
    ⟨on (withSent (.linkData 5 0 0x800000 4 [1]) 0) (sentPk (.linkWrite 5 1 1 0x800000 fp16Desc true)), 9, _, one, _, _, _, _, 5, 0, _, 4, _,
      rfl, rfl, rfl, rfl, rfl⟩,
    ⟨on { withSent (.signal 5 0 2 3) 0 with clk := { base.clk with tick := 10001 } } (sentPk (.linkSignal 5 1 2 3 true)), 9, _, one, _, rfl,
      rfl, rfl, rfl, rfl, fun _ _ _ => by simp [sentPk, pkAt], fun _ _ _ _ _ _ _ => by simp, rfl, by decide +kernel⟩,
    ⟨⟨withLinks (fun l => { l with holds := [(1, [4])] }), []⟩, 1, [4], rfl, fun _ h => by cases h⟩,
    ⟨⟨upDev, []⟩, ⟨9, 2, 1, 3, .ack 1⟩, by decide, by decide +kernel⟩,
    ⟨⟨upDev, []⟩, ⟨9, 1, 2, 3, .ack 1⟩, by decide, by decide +kernel⟩,
    ⟨⟨withLinks (fun l => { l with bridge := true }), []⟩, message (.hostWrite 64 [1]), 64, [1], rfl, rfl, rfl, rfl⟩,
    ⟨⟨{ base with parts := { base.parts with p := [(0, { part0 with span := true, spanId := 7 })] } }, []⟩, 7, 0, _, rfl⟩⟩

def flit (num : Nat) (crc : Bool) : FlitIn := ⟨num, 3, 0, crc, false, false, 0, 3, 0, 0⟩

theorem witness_PortsComplete :
    (∃ s : State, ∃ j, ∃ f : FlitIn, s.dev.errDue = [] ∧ (s.dev.port j).carries = true ∧ f.crcOk = false) ∧
    (∃ s : State, ∃ j, ∃ f : FlitIn, s.dev.errDue = [] ∧ (s.dev.port j).carries = true ∧ f.crcOk = true ∧ f.idle = false ∧
      f.num ≠ (s.dev.port j).rxNext) ∧
    (∃ s : State, ∃ j, ∃ f : FlitIn, s.dev.errDue = [] ∧ (s.dev.port j).carries = true ∧ f.crcOk = true ∧ f.idle = false ∧
      f.num = (s.dev.port j).rxNext ∧ f.transit = false) ∧
    (∃ s : State, ∃ j, ∃ cause : RetrainCause, s.dev.errDue = [] ∧ (s.dev.port j).state = .up ∧ cause ≠ .thirdReplay ∧
      recentRetrains s.dev.clk.tick (s.dev.port j).retrains = []) ∧
    (∃ s : State, ∃ j, s.dev.errDue = [] ∧ (s.dev.port j).state = .retrain) ∧
    (∃ s : State, ∃ j, (s.dev.port j).state = .retrain ∧ (s.dev.port j).since + 10000 < s.dev.clk.tick) ∧
    (∃ s : State, ∃ j, s.dev.errDue = [] ∧ (s.dev.port j).state = .training) :=
  ⟨⟨⟨upDev, []⟩, 0, flit 0 false, rfl, rfl, rfl⟩,
    ⟨⟨upDev, []⟩, 0, flit 1 true, rfl, rfl, rfl, rfl, by decide⟩,
    ⟨⟨upDev, []⟩, 0, flit 0 true, rfl, rfl, rfl, rfl, rfl, rfl⟩,
    ⟨⟨upDev, []⟩, 0, .lockLoss, rfl, rfl, by decide, rfl⟩,
    ⟨⟨withPort (portIn .retrain), []⟩, 0, rfl, rfl⟩,
    ⟨⟨{ withPort (portIn .retrain) with clk := { base.clk with tick := 10001 } }, []⟩, 0, rfl, by decide⟩,
    ⟨⟨withPort (portIn .training), []⟩, 0, rfl, rfl⟩⟩

/-- The Lamplighter at its post, with the C/D die up. -/
def withLamp (f : Lamp → Lamp) : Dev := { upDev with lamp := f { Lamp.off with on := true, stage := 8, cdUp := true } }
def withHost (f : Links → Links) : Dev := { withLamp id with links := f { upDev.links with bridge := true } }

theorem witness_HostPathComplete :
    (∃ s : State, s.dev.lamp.stage = 8 ∧ (s.dev.links.bridge = true → s.dev.lamp.perst.holds = false) ∧ s.dev.bridgeRoute = true ∧
      ∃ ws : List (Nat × List Byte), s.dev.errDue = [] ∧ s.dev.links.bridge = true ∧
        s.dev.links.hostHeld = ws.map (fun w => .hostWrite w.1 w.2)) ∧
    (∃ s : State, s.dev.errDue = []) ∧
    (∃ s : State, ∃ v, s.dev.errDue = [] ∧ v ∈ s.dev.links.msixAgain ∧ v ∉ s.dev.links.msixSent ∧ s.dev.links.hostUp = true ∧
      tget true s.dev.links.msixMask v = false) ∧
    (∃ s : State, ∃ ns, s.dev.errDue = [] ∧ s.dev.lamp.on = true ∧ filterNs ≤ ns) ∧
    (∃ s : State, ∃ ns, s.dev.lamp.on = true ∧ filterNs ≤ ns ∧ s.dev.beforeStage1 = false) ∧
    (∃ s : State, ∃ q off n, s.dev.lamp.cdUp = true ∧ q < 256 ∧ s.dev.hitsUe q (sectorPieces off n) = none) ∧
    (∃ s : State, ∃ q off, ∃ data : List Byte, s.dev.lamp.cdUp = true ∧ q < 256 ∧
      s.dev.hitsUe q ((sectorPieces off data.length).filter (fun p => decide (p.2 < 64))) = none) ∧
    (∃ s : State, ∃ o, s.dev.links.bridge = true ∧ s.dev.lamp.cdUp = true ∧ o < 0x2000000) ∧
    (∃ s : State, ∃ slot o, s.dev.links.bridge = true ∧ s.dev.lamp.cdUp = true ∧ 0 < slot ∧ slot < 8 ∧ o < 0x200000000 ∧
      s.dev.pathOpen slot = true) ∧
    (∃ s : State, ∃ slot o, s.dev.links.bridge = true ∧ s.dev.lamp.cdUp = true ∧ 0 < slot ∧ slot < 8 ∧ o < 0x200000000 ∧
      s.dev.pathOpen slot = false) :=
  ⟨⟨⟨withHost (fun l => { l with hostHeld := [.hostWrite 64 [1]] }), []⟩, rfl, fun _ => by decide +kernel, by decide +kernel,
      [(64, [1])], rfl, rfl, rfl⟩, ⟨⟨base, []⟩, rfl⟩,
    ⟨⟨withHost (fun l => { l with msixAgain := [3], msixMask := [(3, false)] }), []⟩, 3, rfl, by decide, by decide, rfl, by decide +kernel⟩,
    ⟨⟨withHost id, []⟩, stuckNs, rfl, rfl, by decide⟩,
    ⟨⟨withHost id, []⟩, filterNs, rfl, by decide, by decide +kernel⟩,
    ⟨on (withHost id) (pk 0 .nop), 2, 60, 8, rfl, by decide, by decide +kernel⟩,
    ⟨on (withHost id) (pk 0 .nop), 2, 60, zeros 8, rfl, by decide, by decide +kernel⟩,
    ⟨⟨withHost id, []⟩, 0x1FFFFFC, rfl, rfl, by decide⟩,
    ⟨⟨withHost (fun l => { l with slotPath := [(1, 2 ^ 31 + 2 ^ 27)] }), []⟩, 1, 0, rfl, rfl, by decide, by decide, by decide, by decide +kernel⟩,
    ⟨⟨withHost id, []⟩, 7, 0x1FFFFFFFC, rfl, rfl, by decide, by decide, by decide, by decide +kernel⟩⟩
/-! ### Hypotheses that are met: queues -/

theorem any_some {α : Type} {o : Option α} {P : α → Bool} (h : o.any P = true) : ∃ f, o = some f ∧ P f = true := by
  cases o with
  | none => cases h
  | some f => exact ⟨f, rfl, h⟩

/-- Queue 2 with 16 packet slots and records in HBM, as `f` leaves it. -/
def ringed (f : Queue → Queue) : State :=
  ⟨{ base with qs := { base.qs with q := [(2, f { Queue.off with
      state := .running, sqLog2 := 4, cqLog2 := 4, sqPages := [paOf .hbm 512], cqPages := [paOf .hbm 513] })] } }, []⟩

def nopBytes : List Byte := [0, 0, 0, 0, 0, 2] ++ zeros 10 ++ [0xFF, 0xFF, 0xFF] ++ zeros 45

/-- The queue with one packet in its ring: its bytes. -/
def packetIn (b : List Byte) : State :=
  ⟨{ (ringed (fun k => { k with tail := 1 })).dev with mem := { base.mem with bytes := cellsOf (paOf .hbm 512) b } }, []⟩

/-- The upper word of a doorbell message of a kind and a queue. -/
def bell (kind q : Nat) : Word := BitVec.ofNat 32 (256 * kind + q)

theorem witness_SubmissionDoorbellRule :
    (∃ s : State, ∃ hi : Word, s.dev.errDue = [] ∧ hi.toNat / 256 % 256 ≠ 0) ∧
    (∃ s : State, ∃ hi lo : Word, s.dev.errDue = [] ∧ hi.toNat / 256 % 256 = 0 ∧
      let k := s.dev.queue (hi.toNat % 256)
      let d := (lo.toNat + (2 ^ 32 - k.tail % 2 ^ 32)) % 2 ^ 32
      k.state = .disabled ∨ d = 0 ∨ 2 ^ 31 ≤ d) ∧
    (∃ s : State, ∃ hi lo : Word, s.dev.errDue = [] ∧ hi.toNat / 256 % 256 = 0 ∧
      let v := lo.toNat
      let k := s.dev.queue (hi.toNat % 256)
      let d := (v + (2 ^ 32 - k.tail % 2 ^ 32)) % 2 ^ 32
      ¬(k.state = .disabled ∨ d = 0 ∨ 2 ^ 31 ≤ d) ∧ 2 ^ k.sqLog2 < (v + (2 ^ 32 - k.head % 2 ^ 32)) % 2 ^ 32) ∧
    (∃ s : State, ∃ hi lo : Word, s.dev.errDue = [] ∧ hi.toNat / 256 % 256 = 0 ∧
      let v := lo.toNat
      let k := s.dev.queue (hi.toNat % 256)
      let d := (v + (2 ^ 32 - k.tail % 2 ^ 32)) % 2 ^ 32
      ¬(k.state = .disabled ∨ d = 0 ∨ 2 ^ 31 ≤ d) ∧ (v + (2 ^ 32 - k.head % 2 ^ 32)) % 2 ^ 32 ≤ 2 ^ k.sqLog2) :=
  ⟨⟨ringed id, bell 1 2, rfl, by decide +kernel⟩,
    ⟨ringed id, bell 0 2, 2 ^ 31, rfl, by decide +kernel, .inr (.inr (by decide +kernel))⟩,
    ⟨ringed id, bell 0 2, 17, rfl, by decide +kernel, by decide +kernel⟩,
    ⟨ringed id, bell 0 2, 16, rfl, by decide +kernel, by decide +kernel⟩⟩

theorem witness_CompletionDoorbellRule :
    (∃ s : State, ∃ hi : Word, s.dev.errDue = [] ∧ hi.toNat / 256 % 256 ≠ 1) ∧
    (∃ s : State, ∃ hi lo : Word, s.dev.errDue = [] ∧ hi.toNat / 256 % 256 = 1 ∧
      let k := s.dev.queue (hi.toNat % 256)
      let d := (lo.toNat + (2 ^ 32 - k.cqHead % 2 ^ 32)) % 2 ^ 32
      k.state = .disabled ∨ d = 0 ∨ 2 ^ 31 ≤ d) ∧
    (∃ s : State, ∃ hi lo : Word, s.dev.errDue = [] ∧ hi.toNat / 256 % 256 = 1 ∧
      let v := lo.toNat
      let k := s.dev.queue (hi.toNat % 256)
      let d := (v + (2 ^ 32 - k.cqHead % 2 ^ 32)) % 2 ^ 32
      let past := (v + (2 ^ 32 - k.written % 2 ^ 32)) % 2 ^ 32
      ¬(k.state = .disabled ∨ d = 0 ∨ 2 ^ 31 ≤ d) ∧ past ≠ 0 ∧ past < 2 ^ 31) ∧
    (∃ s : State, ∃ hi lo : Word, s.dev.errDue = [] ∧ hi.toNat / 256 % 256 = 1 ∧
      let v := lo.toNat
      let k := s.dev.queue (hi.toNat % 256)
      let d := (v + (2 ^ 32 - k.cqHead % 2 ^ 32)) % 2 ^ 32
      let past := (v + (2 ^ 32 - k.written % 2 ^ 32)) % 2 ^ 32
      ¬(k.state = .disabled ∨ d = 0 ∨ 2 ^ 31 ≤ d) ∧ (past = 0 ∨ 2 ^ 31 ≤ past)) :=
  ⟨⟨ringed id, bell 2 2, rfl, by decide +kernel⟩,
    ⟨ringed id, bell 1 2, 0, rfl, by decide +kernel, .inr (.inl (by decide +kernel))⟩,
    ⟨ringed (fun k => { k with written := 3 }), bell 1 2, 4, rfl, by decide +kernel, by decide +kernel⟩,
    ⟨ringed (fun k => { k with written := 3 }), bell 1 2, 3, rfl, by decide +kernel, by decide +kernel⟩⟩

def waitingPk : Entry := { pkAt 0 .nop .waiting with headSince := some 89 }

/-- A NOP whose limit of waiting has passed unmet. -/
def limited : Entry := { waitingPk with lapsed := true }

/-- A QUEUE_DESTROY of queue 3, which has run; a doorbell has brought that queue a packet since. -/
def destroyPk : Entry := pkAt 3 (.queueDestroy 3 1 true) (.ran Result.fresh)
def destroying : State :=
  ⟨{ base with qs := { base.qs with q := [(2, queueOf [destroyPk]), (3, { Queue.off with state := .running, tail := 1 })] } }, []⟩

def uePage : Dev := { base with mem := { base.mem with ue := [paOf .hbm 512 / 64] } }

theorem witness_QueueMachineryCompletes :
    (∃ s : State, ∃ q f, s.dev.reads q = true ∧ s.dev.fetch q = some f ∧ f.isBad = false ∧ s.dev.submitStatus q f.entry f.ue.isSome = stOk) ∧
    (∃ s : State, ∃ q f, s.dev.reads q = true ∧ s.dev.fetch q = some f ∧ f.isBad = false ∧ s.dev.submitStatus q f.entry f.ue.isSome ≠ stOk) ∧
    (∃ s : State, ∃ q f, s.dev.reads q = true ∧ s.dev.fetch q = some f ∧ f.isBad = true) ∧
    (∃ s : State, ∃ q e, s.dev.readyHead q = some e ∧ s.dev.goesNext q e = true ∧ s.dev.engineOf e = none) ∧
    (∃ s : State, ∃ q e g, s.dev.readyHead q = some e ∧ s.dev.goesNext q e = true ∧ s.dev.engineOf e = some g) ∧
    (∃ s : State, ∃ q e, s.dev.errDue = [] ∧ (s.dev.queue q).headEntry = some e ∧ e.lapsed = true) ∧
    (∃ s : State, ∃ c e, s.dev.errDue = [] ∧ s.dev.entry c = some e ∧ e.phase = .rerun ∧
      ((s.dev.queue e.hdr.queue).entries.find? Entry.isHeld).map (·.ref) = some e.ref ∧
      (14 ≤ e.hdr.part ∨ (s.dev.part e.hdr.part).state = .active) ∧ (∀ u, e.heldBy = some u → s.dev.recoveringOf u = none) ∧
      s.dev.saving e.hdr.part = false) ∧
    (∃ s : State, ∃ c e, s.dev.errDue = [] ∧ s.dev.entry c = some e ∧ s.dev.moreToFlush e = true) ∧
    (∃ s : State, ∃ c e r, s.dev.entry c = some e ∧ e.phase = .ran r ∧ e.chain = none ∧ s.dev.moreToFlush e = false ∧
      s.dev.commitFail r = none) ∧
    (∃ s : State, ∃ c e r f, s.dev.entry c = some e ∧ e.phase = .ran r ∧ e.chain = none ∧ s.dev.moreToFlush e = false ∧
      s.dev.commitFail r = some f) ∧
    (∃ s : State, ∃ sp n, s.dev.chainMembers sp n ≠ [] ∧
      ∀ e ∈ s.dev.chainMembers sp n, ∃ r, e.phase = .ran r ∧ s.dev.commitFail r = none) ∧
    (∃ s : State, ∃ q e rest r, (s.dev.queue q).entries = e :: rest ∧ e.phase = .done r ∧ (s.dev.queue q).state ≠ .saved ∧
      s.dev.chainOwes e = false) := by
  obtain ⟨f1, h1, p1⟩ := any_some (o := (packetIn nopBytes).dev.fetch 2)
    (P := fun f => !f.isBad && (packetIn nopBytes).dev.submitStatus 2 f.entry f.ue.isSome == stOk) (by decide +kernel)
  obtain ⟨f2, h2, p2⟩ := any_some (o := (packetIn (5 :: nopBytes.drop 1)).dev.fetch 2)
    (P := fun f => !f.isBad && (packetIn (5 :: nopBytes.drop 1)).dev.submitStatus 2 f.entry f.ue.isSome != stOk) (by decide +kernel)
  obtain ⟨f3, h3, p3⟩ := any_some (o := (packetIn []).dev.fetch 2) (P := Fetched.isBad) (by decide +kernel)
  obtain ⟨h4, h4'⟩ := any_some (o := (on base waitingPk).dev.readyHead 2)
    (P := fun e => (on base waitingPk).dev.goesNext 2 e && ((on base waitingPk).dev.engineOf e).isNone) (by decide +kernel)
  obtain ⟨h5, h5'⟩ := any_some (o := (on base (pkAt 0x21 (.arrStream (tiny 1)) .waiting)).dev.readyHead 2)
    (P := fun e => (on base (pkAt 0x21 (.arrStream (tiny 1)) .waiting)).dev.goesNext 2 e &&
      ((on base (pkAt 0x21 (.arrStream (tiny 1)) .waiting)).dev.engineOf e).any (fun g => g == 6)) (by decide +kernel)
  simp only [Bool.and_eq_true, Bool.not_eq_true', beq_iff_eq, bne_iff_ne, Option.isNone_iff_eq_none] at p1 p2 h4' h5'
  obtain ⟨g, hg, _⟩ := any_some h5'.2.2
  refine ⟨⟨_, 2, f1, by decide +kernel, h1, p1.1, p1.2⟩, ⟨_, 2, f2, by decide +kernel, h2, p2.1, p2.2⟩,
    ⟨_, 2, f3, by decide +kernel, h3, p3⟩, ⟨_, 2, _, h4'.1, h4'.2.1, h4'.2.2⟩, ⟨_, 2, _, g, h5'.1, h5'.2.1, hg⟩,
    ⟨on base limited, 2, _, rfl, rfl, rfl⟩,
    ⟨on base (pkAt 0 .nop .rerun), one, _, rfl, rfl, rfl, rfl, .inr rfl, (fun _ h => by cases h), by decide +kernel⟩,
    ⟨destroying, one, _, rfl, rfl, by decide +kernel⟩,
    ⟨on base (pkAt 0 .nop (.ran Result.fresh)), one, _, _, rfl, rfl, rfl, rfl, by decide +kernel⟩,
    ⟨on uePage (pkAt 0 .nop (.ran { Result.fresh with effects := [.mem (paOf .hbm 512) [1]] })), one, _, _, _, rfl, rfl, rfl, rfl, rfl⟩,
    ⟨on base { pkAt 0x20 (.arrMatmul (tiny 0)) (.ran Result.fresh) with chain := some 3 }, 0, 3, by decide +kernel, ?_⟩,
    ⟨on base (pkAt 0 .nop (.done Result.fresh)), 2, _, [], _, rfl, rfl, by decide +kernel, rfl⟩⟩
  intro e he
  have : e ∈ [({ pkAt 0x20 (.arrMatmul (tiny 0)) (.ran Result.fresh) with chain := some 3 } : Entry)] := he
  rw [List.mem_singleton] at this
  subst this
  exact ⟨_, rfl, by decide +kernel⟩

theorem witness_CommitSignals :
    ∃ s : State, ∃ c e r, s.dev.errDue = [] ∧ s.dev.entry c = some e ∧ e.phase = .ran r ∧ e.chain = none ∧ r.effects = [] ∧
      s.dev.mem.ue = [] ∧ s.dev.mem.ces = [] ∧ e.hdr.log = false ∧ e.payload = .nop ∧ e.hdr.part < 14 ∧ e.hdr.sig < 64 :=
  ⟨on base { pkAt 0 .nop (.ran Result.fresh) with hdr := { hdr 0 with sig := 63, sigVal := 2 } }, one, _, _, rfl, rfl, rfl, rfl, rfl, rfl, rfl,
    by decide +kernel, rfl, by decide, by decide⟩

theorem witness_RunHoldsItsEffects :
    ∃ s : State, ∃ c e, ∃ m : Run Counts, ∃ k x, s.dev.entry c = some e ∧ m (.start s.dev c e) = .ok k x ∧
      (14 ≤ e.hdr.part ∨ (s.dev.part e.hdr.part).state ≠ .free) ∧ ∃ p, p ≠ e.hdr.part ∨ (s.dev.part p).state ≠ .free :=
  ⟨on base (pk 0 .nop), one, _, pure (okCounts 1 2 3), _, _, rfl, rfl, .inr (by decide), 0, .inr (by decide)⟩

theorem witness_FailedRunChangesNothing :
    ∃ s : State, ∃ c e, ∃ m : Run Counts, ∃ f x, s.dev.entry c = some e ∧ e.chain = none ∧
      m (.start s.dev c e) = .error f x ∧ (∀ p, e.payload ≠ .vecRun p) ∧ (14 ≤ e.hdr.part ∨ (s.dev.part e.hdr.part).state ≠ .free) :=
  ⟨on base (pk 0 .nop), one, _, failWith stBadParam, _, _, rfl, rfl, rfl, (fun _ h => by cases h), .inr (by decide)⟩

theorem witness_RecordAdvancesQueue :
    ∃ s : State, ∃ q e rest r, s.dev.errDue = [] ∧ s.dev.mem.ue = [] ∧ q ≠ 1 ∧ e.chain = none ∧ (s.dev.queue q).entries = e :: rest ∧ e.phase = .done r ∧
      ((s.dev.queue q).state = .running ∨ (s.dev.queue q).state = .halted) ∧ e.reqRecords = [] :=
  ⟨on base (pkAt 0 .nop (.done Result.fresh)), 2, _, _, _, rfl, rfl, by decide, rfl, rfl, rfl, .inl rfl, rfl⟩
/-! ### Hypotheses that are met: clocks and registers -/

def clocked (f : Clock → Clock) : State := ⟨{ base with clk := f base.clk }, []⟩
def registers (f : Lamp → Lamp) : State := ⟨withLamp f, []⟩

/-- The registers of a device with a bridge. -/
def bridged (f : Lamp → Lamp) : State := ⟨{ withLamp f with links := { upDev.links with bridge := true } }, []⟩

theorem witness_ClockEventsComplete :
    (∃ s : State, s.dev.errDue = [] ∧ s.dev.clk.standby = true ∧ s.dev.clk.refPresent = false) ∧
    (∃ s : State, s.dev.errDue = [] ∧ s.dev.clk.standby = true ∧ s.dev.clk.tickFree = true) ∧
    (∃ s : State, s.dev.errDue = [] ∧ s.dev.clk.standby = false) ∧
    (∃ s : State, s.dev.clk.standby = true ∧ s.dev.clk.refPresent = true) ∧
    (∃ s : State, s.dev.clk.standby = true ∧ s.dev.clk.refPresent = false) ∧
    (∃ s : State, ∃ n, s.dev.lamp.cdUp = true ∧ n < 3) :=
  ⟨⟨clocked (fun c => { c with refPresent := false }), rfl, rfl, rfl⟩, ⟨clocked (fun c => { c with tickFree := true }), rfl, rfl, rfl⟩,
    ⟨State.reset, rfl, rfl⟩, ⟨clocked id, rfl, rfl⟩, ⟨clocked (fun c => { c with refPresent := false }), rfl, rfl⟩,
    ⟨registers id, 2, rfl, by decide⟩⟩

theorem witness_TickLatches :
    ∃ s : State, ∃ p wide, s.dev.errDue = [] ∧ s.dev.clk.tick < 2 ^ 64 ∧ tblWf PathRegs.reset s.dev.paths = true ∧
      s.dev.reaches p tickLoOff = true ∧ (wide = false ∨ p ≠ .host) :=
  ⟨⟨{ (bridged id).dev with clk := { base.clk with tick := 2 ^ 64 - 1 } }, []⟩, .host, false, rfl, by decide, rfl, by decide +kernel, .inl rfl⟩

theorem witness_RegisterReadsComplete :
    (∃ s : State, ∃ p, s.dev.errDue = [] ∧ s.dev.lamp.cdUp = true ∧ s.dev.reaches p tokLoOff = true) ∧
    (∃ s : State, ∃ p c wide, s.dev.errDue = [] ∧ s.dev.lamp.cdUp = true ∧ c ∈ allCounters ∧ s.dev.reaches p (counterOff c) = true ∧
      (wide = false ∨ p ≠ .host)) ∧
    (∃ s : State, ∃ c, s.dev.errDue = [] ∧ s.dev.lamp.cdUp = true ∧ c ∈ allCounters ∧ counterOff c % 8 = 0 ∧
      s.dev.reaches .host (counterOff c) = true ∧ s.dev.counter .host c < 2 ^ 64) ∧
    (∃ s : State, s.dev.errDue = [] ∧ s.dev.reaches .host tickLoOff = true ∧ s.dev.clk.tick < 2 ^ 64 ∧
      tblWf PathRegs.reset s.dev.paths = true) ∧
    (∃ s : State, ∃ p off u, s.dev.lamp.cdUp = false ∧ blockUnit off = some u ∧ s.dev.reaches p off = true) ∧
    (∃ s : State, ∃ p, s.dev.errDue = [] ∧ s.dev.reaches p tickLoOff = false ∧ s.dev.reaches p tokLoOff = false) ∧
    (∃ s : State, ∃ p c, s.dev.errDue = [] ∧ s.dev.reaches p (counterOff c) = false) ∧
    (∃ s : State, ∃ p off, s.dev.errDue = [] ∧ s.dev.reaches p off = false) :=
  ⟨⟨bridged id, .host, rfl, rfl, by decide +kernel⟩,
    ⟨bridged id, .host, .arrRows 13, false, rfl, rfl, by decide +kernel, by decide +kernel, .inl rfl⟩,
    ⟨bridged id, .arrRows 13, rfl, rfl, by decide +kernel, by decide +kernel, by decide +kernel, by decide +kernel⟩,
    ⟨bridged id, rfl, by decide +kernel, by decide, rfl⟩,
    ⟨bridged (fun l => { l with cdUp := false }), .sb0, 0x1000000, _, rfl, rfl, by decide +kernel⟩,
    ⟨registers id, .host, rfl, by decide +kernel, by decide +kernel⟩,
    ⟨registers id, .host, .arrRows 13, rfl, by decide +kernel⟩,
    ⟨registers id, .host, 0x1000000, rfl, by decide +kernel⟩⟩

theorem witness_QuotaWriteRule :
    (∃ s : State, ∃ p : Path, ∃ part, ∃ v : Word, s.dev.errDue = [] ∧ s.dev.lamp.cdUp = true ∧ part < 14 ∧ p ≠ .lamplighter ∧
      s.dev.reaches p 0x1000100 = true ∧
      376 < s.dev.skeinSumWith part (bits v.toNat 8 0) ∧ s.dev.skeinSum < s.dev.skeinSumWith part (bits v.toNat 8 0)) ∧
    (∃ s : State, ∃ p : Path, ∃ part, ∃ v : Word, s.dev.errDue = [] ∧ s.dev.lamp.cdUp = true ∧ part < 14 ∧ p ≠ .lamplighter ∧
      s.dev.reaches p 0x1000100 = true ∧ s.dev.skeinSumWith part (bits v.toNat 8 0) ≤ 376) :=
  ⟨⟨bridged id, .host, 1, 1, rfl, rfl, by decide, by decide, by decide +kernel, by decide +kernel, by decide +kernel⟩,
    ⟨bridged id, .host, 0, 376, rfl, rfl, by decide, by decide, by decide +kernel, by decide +kernel⟩⟩

theorem witness_DevNumWriteRule :
    (∃ s : State, ∃ p : Path, s.dev.errDue = [] ∧ s.dev.lamp.cdUp = true ∧ p ≠ .lamplighter ∧ s.dev.reaches p 0x1600000 = true ∧
      ∀ j, j < 8 → (s.dev.port j).state ≠ .up ∧ (s.dev.port j).state ≠ .training) ∧
    (∃ s : State, ∃ p : Path, ∃ j, s.dev.errDue = [] ∧ s.dev.lamp.cdUp = true ∧ p ≠ .lamplighter ∧ s.dev.reaches p 0x1600000 = true ∧
      j < 8 ∧ ((s.dev.port j).state = .up ∨ (s.dev.port j).state = .training)) :=
  ⟨⟨⟨{ withLamp id with links := { base.links with bridge := true, ports := (List.range 8).map (fun j => (j, portIn .down)) } }, []⟩, .host, rfl,
      rfl, by decide, by decide +kernel, by decide +kernel⟩,
    ⟨bridged id, .host, 0, rfl, rfl, by decide, by decide +kernel, by decide, .inl rfl⟩⟩

theorem witness_RegisterWritesComplete :
    (∃ s : State, ∃ p off, s.dev.downError off = none ∧ s.dev.reaches p off = true) ∧
    (∃ s : State, ∃ p off e, s.dev.downError off = some e ∧ s.dev.reaches p off = true) ∧
    (∃ s : State, ∃ p : Path, ∃ part, s.dev.errDue = [] ∧ s.dev.lamp.cdUp = true ∧ part < 14 ∧ p ≠ .lamplighter ∧
      s.dev.reaches p 0x1000140 = true) ∧
    (∃ s : State, ∃ p, s.dev.errDue = [] ∧ s.dev.lamp.cdUp = true ∧ s.dev.reaches p 0x1000010 = true) ∧
    (∃ s : State, ∃ p sp, s.dev.errDue = [] ∧ s.dev.lamp.cdUp = true ∧ sp < 14 ∧ s.dev.reaches p 0x204 = true) ∧
    (∃ s : State, ∃ p : Path, ∃ j, s.dev.errDue = [] ∧ s.dev.lamp.cdUp = true ∧ j < 8 ∧ p ≠ .lamplighter ∧
      s.dev.reaches p 0x1600100 = true) ∧
    (∃ s : State, ∃ p, s.dev.errDue = [] ∧ s.dev.lamp.recovery = true ∧ s.dev.reaches p 0x1800020 = true ∧
      s.dev.reaches p 0x1800080 = true) ∧
    (∃ s : State, s.dev.errDue = [] ∧ s.dev.lamp.recovery = false) ∧
    (∃ s : State, ∃ p off, s.dev.errDue = [] ∧ s.dev.reaches p off = false) :=
  ⟨⟨bridged id, .host, 0x1000004, rfl, by decide +kernel⟩,
    ⟨bridged (fun l => { l with cdUp := false }), .sb0, 0x1000000, _, rfl, by decide +kernel⟩,
    ⟨bridged id, .host, 13, rfl, rfl, by decide, by decide, by decide +kernel⟩, ⟨bridged id, .host, rfl, rfl, by decide +kernel⟩,
    ⟨bridged id, .host, 13, rfl, rfl, by decide, by decide +kernel⟩,
    ⟨bridged id, .host, 7, rfl, rfl, by decide, by decide, by decide +kernel⟩,
    ⟨registers (fun l => { l with recovery := true }), .sb0, rfl, rfl, by decide +kernel, by decide +kernel⟩, ⟨registers id, rfl, rfl⟩,
    ⟨registers id, .host, 0x1000000, rfl, by decide +kernel⟩⟩
/-! ### Hypotheses that are met: the Lamplighter, power and reset -/

/-- The packet in queue `q` of the block whose Lamplighter is as given. -/
def onQueue (q : Nat) (d : Dev) (e : Entry) : State :=
  ⟨{ d with qs := { d.qs with q := [(q, queueOf [{ e with hdr := { e.hdr with queue := q } }])] } }, []⟩

def lampKey : BootKey := ⟨3, 5, 1023⟩
def aRecord : ErrRecord := ⟨5, ⟨0, 1⟩, 1, 0, false, false, 1, 0, 2, 1, 0, 0⟩
def lampDev : Dev :=
  { withHost (fun l => { l with hostUp := true }) with
    lamp := { (withLamp id).lamp with key := some lampKey, sample := [1, 2], errq := [aRecord], mram := [aRecord] } }

def given (s : State) (q out : Nat) (data : List Byte) (e : Effect) : Prop :=
  (q = 1 ∧ e = .lamp (.output data)) ∨ (q ≠ 1 ∧ s.dev.links.hostUp = true ∧ e = .host out data)

theorem queue1_on (d : Dev) (op : Nat) (p : Payload) (h : d.errDue = []) : Ready (onQueue 1 d (pk op p)) ⟨1, 1⟩
    { pk op p with hdr := { hdr op with queue := 1 } } :=
  ⟨rfl, rfl, by simp [Dev.rootHolds, Dev.live, onQueue, queueOf, pk, pkAt], h⟩

theorem given_host (op out : Nat) (p : Payload) (data : List Byte) : given (on lampDev (pk op p)) 2 out data (.host out data) :=
  .inr ⟨by decide, rfl, rfl⟩

theorem given_sideband (s : State) (out : Nat) (data : List Byte) : given s 1 out data (.lamp (.output data)) := .inl ⟨rfl, rfl⟩

/-- The block with bytes of packet 1 of queue 1 in. -/
def sentIn (b : List Byte) : Dev := { lampDev with lamp := { lampDev.lamp with conts := [⟨⟨1, 1⟩, 0, b, 0⟩] } }

/-- Whether a record verifies is a free value: the clauses of DEVREC_INSTALL are met where it accepts this one. -/
theorem witness_LampCommandsComplete :
    (∃ s c e mask out nonce r k, Ready s c e ∧ s.dev.lampBusy = false ∧ e.payload = .attestReport mask out nonce r ∧
      s.dev.lamp.key = some k ∧ k.next < 1024 ∧ e.hdr.queue ≠ 1 ∧ s.dev.links.hostUp = true) ∧
    (∃ s c e reg out digest r, Ready s c e ∧ s.dev.lampBusy = false ∧ e.payload = .attestExtend reg out digest r) ∧
    (∃ s c e op out r, Ready s c e ∧ s.dev.lampBusy = false ∧ e.payload = .devrecRead op out r ∧ e.hdr.queue = 1) ∧
    (Config.recordSigOk (zeros 256) = true → ∃ s c e len iova r, Ready s c e ∧ s.dev.lampBusy = false ∧ e.payload = .devrecInstall len iova r ∧
      e.hdr.queue ≠ 1 ∧ s.dev.links.hostUp = true ∧
      recordOk ((s.dev.lamp.board.map (·.serial)).getD 0) s.dev.lamp.minCounter (getBytes s.dev.mem.host iova len) = true ∧
      recordCounter (s.dev.lamp.copy s.dev.lamp.live) ≤ recordCounter (getBytes s.dev.mem.host iova len)) ∧
    (∃ s c e len r, Ready s c e ∧ s.dev.lampBusy = false ∧ e.payload = .devrecInstall len 0 r ∧ e.hdr.queue = 1 ∧ c = e.ref ∧
      (s.dev.contOf e).data.length ≠ len) ∧
    (Config.recordSigOk (zeros 256) = true → ∃ s c e len r, Ready s c e ∧ s.dev.lampBusy = false ∧ e.payload = .devrecInstall len 0 r ∧
      e.hdr.queue = 1 ∧ c = e.ref ∧ (s.dev.contOf e).data.length = len ∧
      recordOk ((s.dev.lamp.board.map (·.serial)).getD 0) s.dev.lamp.minCounter (s.dev.contOf e).data = true ∧
      recordCounter (s.dev.lamp.copy s.dev.lamp.live) ≤ recordCounter (s.dev.contOf e).data) ∧
    (∃ s c e out r, Ready s c e ∧ s.dev.lampBusy = false ∧ e.payload = .telemetry out r ∧ s.dev.lamp.sample ≠ [] ∧ e.hdr.queue ≠ 1 ∧
      s.dev.links.hostUp = true) ∧
    (∃ s c e n source first out r, Ready s c e ∧ s.dev.lampBusy = false ∧ e.payload = .errqRead n source first out r ∧ source = 0 ∧
      e.hdr.queue = 1) ∧
    (∃ s c e n source first out r, Ready s c e ∧ s.dev.lampBusy = false ∧ e.payload = .errqRead n source first out r ∧ source = 1 ∧
      e.hdr.queue = 1) ∧
    (∃ s c e mw persist r, Ready s c e ∧ s.dev.lampBusy = false ∧ e.payload = .powerCap mw persist r) := by
  refine ⟨⟨on lampDev (pk 0xB0 (.attestReport 1 0 [] true)), one, _, 1, 0, [], true, lampKey, ready_on _ _ rfl rfl, rfl, rfl, rfl, by decide,
      by decide, rfl⟩,
    ⟨on lampDev (pk 0xB0 (.attestExtend 1 0 [] true)), one, _, 1, 0, [], true, ready_on _ _ rfl rfl, rfl, rfl⟩,
    ⟨onQueue 1 lampDev (pk 0xB1 (.devrecRead 0 0 true)), ⟨1, 1⟩, _, 0, 0, true, queue1_on _ _ _ rfl, rfl, rfl, rfl⟩,
    fun h => ⟨on lampDev (pk 0xB2 (.devrecInstall 256 64 true)), one, _, 256, 64, true, ready_on _ _ rfl rfl, rfl, rfl, by decide, rfl, ?_, ?_⟩,
    ⟨onQueue 1 lampDev (pk 0xB2 (.devrecInstall 256 0 true)), ⟨1, 1⟩, _, 256, true, queue1_on _ _ _ rfl, rfl, rfl, rfl, rfl, by decide⟩,
    fun h => ⟨onQueue 1 (sentIn (zeros 256)) (pk 0xB2 (.devrecInstall 256 0 true)), ⟨1, 1⟩, _, 256, true, queue1_on _ _ _ rfl, rfl, rfl, rfl, rfl,
      by decide +kernel, ?_, Nat.zero_le _⟩,
    ⟨on lampDev (pk 0xB3 (.telemetry 0 true)), one, _, 0, true, ready_on _ _ rfl rfl, rfl, rfl, by decide, by decide, rfl⟩,
    ⟨onQueue 1 lampDev (pk 0xB4 (.errqRead 2 0 0 0 true)), ⟨1, 1⟩, _, 2, 0, 0, 0, true, queue1_on _ _ _ rfl, rfl, rfl, rfl, rfl⟩,
    ⟨onQueue 1 lampDev (pk 0xB4 (.errqRead 2 1 0 0 true)), ⟨1, 1⟩, _, 2, 1, 0, 0, true, queue1_on _ _ _ rfl, rfl, rfl, rfl, rfl⟩,
    ⟨on lampDev (pk 0xB5 (.powerCap 900000 0 true)), one, _, 900000, 0, true, ready_on _ _ rfl rfl, rfl, rfl⟩⟩
  · have hz : getBytes lampDev.mem.host 64 256 = zeros 256 := by decide +kernel
    change recordOk 0 0 (getBytes lampDev.mem.host 64 256) = true
    rw [hz]
    simp only [recordOk, h, Bool.and_true]
    decide +kernel
  · exact Nat.zero_le _
  · change recordOk 0 0 (zeros 256) = true
    simp only [recordOk, h, Bool.and_true]
    decide +kernel

/-- DEVREC_INSTALL on queue 1, a record of 512 bytes, 3 bytes of it in. -/
def installPk : Entry := { pkAt 0xB2 (.devrecInstall 512 0 true) (.running (.stage 1 Result.fresh)) with hdr := { hdr 0xB2 with queue := 1 } }
def awaiting (tick : Nat) : Dev :=
  { (onQueue 1 (sentIn [1, 2, 3]) installPk).dev with clk := { base.clk with tick := tick } }
def awaited0 : Continuation := ⟨⟨1, 1⟩, 0, [1, 2, 3], 0⟩

def ring1 (head : Nat) : State :=
  ⟨{ lampDev with qs := { lampDev.qs with q := [(1, { Queue.off with state := .running, sqLog2 := 4, head := head, tail := head + 16 })] } }, []⟩

theorem witness_SidebandComplete :
    (∃ s : State, ∃ src : SbEnd, ∃ b : List Byte, s.dev.lamp.on = true ∧ s.dev.lamp.recovery = false ∧ (s.dev.queue 1).state ≠ .disabled ∧
      src.port < 2 ∧ (s.dev.queue 1).sqRoom (granulesOf (byteAt b 2)) = true) ∧
    (∃ s : State, ∃ src : SbEnd, ∃ b : List Byte, s.dev.lamp.on = true ∧ s.dev.lamp.recovery = false ∧ (s.dev.queue 1).state ≠ .disabled ∧
      src.port < 2 ∧ (s.dev.queue 1).sqRoom (granulesOf (byteAt b 2)) = false) ∧
    (∃ s : State, ∃ src : SbEnd, ∃ addr, s.dev.sbServes src.port addr = true ∧ addr % 4 = 0 ∧ inRegs addr = true) ∧
    (∃ s : State, ∃ src : SbEnd, ∃ addr, s.dev.sbServes src.port addr = true ∧ addr % 4 = 0 ∧ inRegs addr = false) ∧
    (∃ s : State, ∃ src : SbEnd, ∃ addr words, s.dev.errDue = [] ∧ s.dev.sbServes src.port addr = true ∧
      (words = 0 ∨ 16 < words ∨ addr % 4 ≠ 0)) ∧
    (∃ s : State, ∃ src : SbEnd, ∃ off, ∃ data : List Byte, ∃ k len, s.dev.lamp.on = true ∧ s.dev.lamp.recovery = false ∧
      s.dev.awaiting.find? (fun x => x.2.port == src.port) = some (len, k) ∧
      off = k.data.length ∧ 1 ≤ data.length ∧ data.length ≤ 1024 ∧ off + data.length ≤ len) ∧
    (∃ s : State, ∃ src : SbEnd, ∃ off, ∃ data : List Byte, ∃ k len e, s.dev.lamp.on = true ∧ s.dev.lamp.recovery = false ∧
      s.dev.awaiting.find? (fun x => x.2.port == src.port) = some (len, k) ∧ s.dev.entry k.cmd = some e ∧
      ¬(off = k.data.length ∧ 1 ≤ data.length ∧ data.length ≤ 1024 ∧ off + data.length ≤ len)) ∧
    (∃ s : State, ∃ len k e, s.dev.awaiting = [(len, k)] ∧ s.dev.entry k.cmd = some e ∧ k.tick + 1000000 < s.dev.clk.tick) ∧
    (∃ s : State, ∃ src : SbEnd, s.dev.errDue = [] ∧ s.dev.lamp.on = true ∧ s.dev.lamp.recovery = false ∧ src.port < 2) ∧
    (∃ s : State, ∃ port r, s.dev.errDue = [] ∧ s.dev.lamp.on = true ∧ port < 2 ∧ s.dev.lamp.errq.getLast? = some r ∧
      0 < (tget SidePort.reset s.dev.lamp.ports port).events ∧
      ∀ t, (tget SidePort.reset s.dev.lamp.ports port).lastSent = some t → t + 10000 ≤ s.dev.clk.tick) :=
  ⟨⟨⟨{ lampDev with qs := { lampDev.qs with q := [(1, { Queue.off with state := .running, sqLog2 := 4 })] } }, []⟩, ⟨1, 9⟩, nopBytes, rfl, rfl,
      by decide +kernel, by decide, by decide +kernel⟩,
    ⟨ring1 3, ⟨1, 9⟩, nopBytes, rfl, rfl, by decide +kernel, by decide, by decide +kernel⟩,
    ⟨⟨lampDev, []⟩, ⟨1, 9⟩, regBase, by decide +kernel, by decide +kernel, by decide +kernel⟩,
    ⟨⟨lampDev, []⟩, ⟨1, 9⟩, 0, by decide +kernel, by decide +kernel, by decide +kernel⟩,
    ⟨⟨lampDev, []⟩, ⟨1, 9⟩, 0, 17, rfl, by decide +kernel, .inr (.inl (by decide))⟩,
    ⟨⟨awaiting 0, []⟩, ⟨0, 9⟩, 3, [4, 5], awaited0, 512, rfl, rfl, by decide +kernel, rfl, by decide, by decide, by decide⟩,
    ⟨⟨awaiting 0, []⟩, ⟨0, 9⟩, 4, [4, 5], awaited0, 512, installPk, rfl, rfl, by decide +kernel, rfl, by decide⟩,
    ⟨⟨awaiting 1000001, []⟩, 512, awaited0, installPk, by decide +kernel, rfl, by decide +kernel⟩,
    ⟨⟨lampDev, []⟩, ⟨1, 9⟩, rfl, rfl, rfl, by decide⟩,
    ⟨⟨{ lampDev with clk := { base.clk with tick := 10000 }, lamp := { lampDev.lamp with ports := [(0, ⟨2, some 0⟩)] } }, []⟩, 0, aRecord, rfl, rfl,
      by decide, rfl, by decide, fun t h => by
        have : t = 0 := by injection h with h; exact h.symm
        subst this; decide⟩⟩

def errorOf (code : Nat) : ErrorInfo := ⟨⟨0, 1⟩, 1, code, 0, 2, 1, 0⟩
def restarting : Dev := { lampDev with clk := { base.clk with tick := 10001 }, lamp := { lampDev.lamp with recovering := [⟨⟨0, 1⟩, 1, 0, []⟩] } }

theorem witness_ErrorsComplete :
    (∃ s : State, ∃ e : ErrorInfo, s.dev.errDue = [] ∧ s.dev.lamp.on = true ∧ s.dev.recoveringOf e.unit = none ∧ e.code ≠ 0x0D ∧
      s.dev.failNamed e = s.dev ∧ startLevel e.code 0 = 0) ∧
    (∃ s : State, ∃ e : ErrorInfo, s.dev.errDue = [] ∧ s.dev.lamp.on = true ∧ s.dev.recoveringOf e.unit = none ∧ e.code ≠ 0x0D ∧
      s.dev.failNamed e = s.dev ∧ startLevel e.code 0 = 1) ∧
    (∃ s : State, ∃ e : ErrorInfo, s.dev.errDue = [] ∧ s.dev.lamp.on = true ∧ s.dev.recoveringOf e.unit = none ∧ e.code ≠ 0x0D ∧
      s.dev.failNamed e = s.dev ∧ startLevel e.code 0 = 2) ∧
    (∃ s : State, ∃ e : ErrorInfo, ∃ x, s.dev.lamp.on = true ∧ s.dev.recoveringOf e.unit = none ∧ e.code = 0x01 ∧
      s.dev.entry ⟨e.queue, e.seq⟩ = some x ∧ x.inFlight = true ∧ x.isHeld = false ∧ x.released = false) ∧
    (∃ s : State, ∃ e : ErrorInfo, ∃ r, s.dev.lamp.on = true ∧ s.dev.recoveringOf e.unit = some r ∧ s.dev.failNamed e = s.dev) ∧
    (∃ s : State, ∃ u r, s.dev.recoveringOf u = some r ∧ r.level = 1 ∧ r.since + 10000 < s.dev.clk.tick) ∧
    (∃ s : State, ∃ c e, s.dev.entry c = some e ∧ e.inFlight = true ∧ e.phase ≠ .rerun ∧ s.dev.inTerm e = false) ∧
    (∃ s : State, s.dev.lamp.on = true ∧ s.dev.recoveringOf ⟨9, 0⟩ = none) :=
  ⟨⟨⟨lampDev, []⟩, errorOf 1, rfl, rfl, rfl, by decide, rfl, rfl⟩, ⟨⟨lampDev, []⟩, errorOf 3, rfl, rfl, rfl, by decide, rfl, rfl⟩,
    ⟨⟨lampDev, []⟩, errorOf 2, rfl, rfl, rfl, by decide, rfl, rfl⟩,
    ⟨on lampDev (pk 0 .nop), errorOf 1, pk 0 .nop, rfl, rfl, rfl, rfl, by decide +kernel, by decide +kernel, by decide +kernel⟩,
    ⟨⟨restarting, []⟩, errorOf 1, _, rfl, rfl, rfl⟩,
    ⟨⟨restarting, []⟩, ⟨0, 1⟩, _, rfl, rfl, by decide⟩,
    ⟨on base (pk 0 .nop), one, _, rfl, by decide +kernel, by simp [pk, pkAt], by decide +kernel⟩, ⟨⟨lampDev, []⟩, rfl, rfl⟩⟩

def board0 : BoardFacts :=
  { hostEn := true, flashOk := true, slotA := ⟨true, 0, []⟩, slotB := ⟨true, 0, []⟩, serial := 0, pgIo := true, pgCore := true, pgHbm := true,
    hbmPages := 1024, hbmTrained := 15, hbmRepaired := 0, dimms := [], dimmPages := [], linkUp := 0, trdFail := [], ddrSlow := false,
    mramA := [], mramB := [], minVersion := 0 }

/-- The block at tick 100, its power as given. -/
def powered (f : Power → Power) : State := ⟨{ lampDev with clk := { base.clk with tick := 100 }, power := f lampDev.power }, []⟩
def lamped (f : Lamp → Lamp) : State := ⟨{ lampDev with lamp := f lampDev.lamp }, []⟩
def cold : Sensors := ⟨[200], [], [], [], 200⟩

/-- Spindle 0 hot enough to be throttled. -/
def warm : Sensors := ⟨[8 * 150], [], [], [], 200⟩

theorem witness_PowerAndResetComplete :
    (∃ s : State, s.dev.clk.standby = false) ∧ (∃ s : State, s.dev.clk.standby = true) ∧
    (∃ s : State, ∃ ns, s.dev.lamp.on = true ∧ s.dev.lamp.stage ≠ 0 ∧ 1000 ≤ ns ∧ ns ≤ 100000000 ∧
      s.dev.lamp.rst.ignores s.dev.clk.tick = false) ∧
    (∃ s : State, ∃ ns, s.dev.lamp.on = true ∧ s.dev.lamp.stage ≠ 0 ∧ 100000000 < ns ∧ s.dev.lamp.rst.stuckLow = false ∧
      s.dev.lamp.rst.ignores s.dev.clk.tick = false) ∧
    (∃ s : State, ∃ ns, s.dev.errDue = [] ∧ ns < 1000) ∧
    (∃ s : State, ∃ i, s.dev.lamp.on = true ∧ i < 2 ∧ (s.dev.lamp.input i).level = false ∧ (s.dev.lamp.input i).stuckLow = false ∧
      (s.dev.lamp.input i).ignores s.dev.clk.tick = false) ∧
    (∃ s : State, ∃ i, s.dev.lamp.on = true ∧ i < 2 ∧ (s.dev.lamp.input i).level = true ∧ s.dev.lamp.stage ≠ 0) ∧
    (∃ s : State, ∃ i, s.dev.lamp.on = true ∧ i < 2 ∧ s.dev.chatters i = true) ∧
    (∃ s : State, ∃ r, s.dev.waitingRail = some r) ∧
    (∃ s : State, ∃ b, s.dev.lamp.board = some b ∧ s.dev.lamp.enIo = true ∧ b.pgIo = true ∧ s.dev.lamp.enCore = true ∧ b.pgCore = true ∧
      s.dev.lamp.enHbm = true ∧ b.pgHbm = true) ∧
    (∃ s : State, ∃ avg, s.dev.errDue = [] ∧ s.dev.lamp.on = true ∧ s.dev.lamp.cdUp = true ∧ s.dev.power.brake = false ∧
      dueAgain s.dev.power.evalAt 100 s.dev.clk.tick = true ∧ s.dev.power.cap < avg ∧ 950 < s.dev.power.target) ∧
    (∃ s : State, ∃ avg, s.dev.errDue = [] ∧ s.dev.lamp.on = true ∧ s.dev.lamp.cdUp = true ∧ s.dev.power.brake = false ∧
      dueAgain s.dev.power.evalAt 100 s.dev.clk.tick = true ∧ s.dev.power.cap < avg ∧ s.dev.power.target ≤ 950) ∧
    (∃ s : State, ∃ avg, s.dev.errDue = [] ∧ s.dev.lamp.on = true ∧ s.dev.lamp.cdUp = true ∧ s.dev.power.brake = false ∧
      dueAgain s.dev.power.evalAt 100 s.dev.clk.tick = true ∧ 100 * avg < 97 * s.dev.power.cap ∧ s.dev.power.therm = false ∧
      s.dev.power.memLevel = 16 ∧ s.dev.power.target < 1900) ∧
    (∃ s : State, ∃ ns, s.dev.errDue = [] ∧ s.dev.lamp.on = true ∧ s.dev.lamp.cdUp = true ∧ 1000 ≤ ns) ∧
    (∃ s : State, ∃ x, s.dev.errDue = [] ∧ s.dev.lamp.on = true ∧ (sensorList x).any atThrottle = false ∧
      dueAgain s.dev.power.comparedAt 1 s.dev.clk.tick = true) ∧
    (∃ s : State, ∃ source i, s.dev.lamp.on = true ∧ source ≠ 4 ∧ 10 ≤ tget 0 s.dev.power.hot (64 * source + i)) ∧
    (∃ s : State, ∃ x y, s.dev.lamp.on = true ∧ s.dev.power.therm = false ∧ (sensorList x).find? atThrottle = some y ∧
      dueAgain s.dev.power.comparedAt 1 s.dev.clk.tick = true) ∧
    (∃ s : State, s.dev.errDue = [] ∧ s.dev.lamp.on = true ∧ dueAgain s.dev.power.sampledAt 100 s.dev.clk.tick = true) :=
  ⟨⟨State.reset, rfl⟩, ⟨⟨lampDev, []⟩, rfl⟩, ⟨⟨lampDev, []⟩, 1000, rfl, by decide, by decide, by decide, rfl⟩,
    ⟨⟨lampDev, []⟩, 100000001, rfl, by decide, by decide, rfl, rfl⟩, ⟨⟨lampDev, []⟩, 999, rfl, by decide⟩,
    ⟨lamped (fun l => { l with perst := { l.perst with level := false } }), 1, rfl, by decide, rfl, rfl, rfl⟩,
    ⟨⟨lampDev, []⟩, 0, rfl, by decide, rfl, by decide⟩,
    ⟨lamped (fun l => { l with rst := { l.rst with pulses := [0, 0, 0, 0, 0, 0, 0, 0] } }), 0, rfl, by decide, by decide +kernel⟩,
    ⟨lamped (fun l => { l with board := some { board0 with pgIo := false }, enIo := true, cdUp := false }), 0, rfl⟩,
    ⟨lamped (fun l => { l with board := some board0, enIo := true, enCore := true, enHbm := true }), board0, rfl, rfl, rfl, rfl, rfl, rfl, rfl⟩,
    ⟨powered (fun p => { p with evalAt := some 0 }), 1900001, rfl, rfl, rfl, rfl, by decide +kernel, by decide, by decide⟩,
    ⟨powered (fun p => { p with target := 950 }), 1900001, rfl, rfl, rfl, rfl, rfl, by decide, by decide⟩,
    ⟨powered (fun p => { p with target := 1875 }), 1842999, rfl, rfl, rfl, rfl, rfl, by decide, rfl, rfl, by decide⟩,
    ⟨powered id, 1000, rfl, rfl, rfl, by decide⟩,
    ⟨powered id, cold, rfl, rfl, by decide +kernel, rfl⟩,
    ⟨powered (fun p => { p with hot := [(3, 10)] }), 0, 3, rfl, by decide, by decide⟩,
    ⟨powered id, warm, _, rfl, rfl, rfl, rfl⟩,
    ⟨powered id, rfl, rfl, rfl⟩⟩
/-! ### Hypotheses that are met: commits, steps, the invariant -/

theorem witness_CommitWritesMemory :
    ∃ s : State, ∃ c e r pa data, s.dev.errDue = [] ∧ s.dev.entry c = some e ∧ e.phase = .ran r ∧ e.chain = none ∧
      r.effects = [.mem pa data] ∧ s.dev.moreToFlush e = false ∧ s.dev.mem.ue = [] ∧ s.dev.mem.ces = [] ∧ e.hdr.log = false ∧
      e.hdr.sig < 64 ∧ 0 < max (s.dev.token 0 e.hdr.sig) (e.hdr.sigVal % 2 ^ 64) :=
  ⟨on base { pkAt 0 .nop (.ran { Result.fresh with effects := [.mem (paOf .hbm 512) [7]] }) with hdr := { hdr 0 with sig := 0, sigVal := 2 } },
    one, _, _, _, _, rfl, rfl, rfl, rfl, rfl, rfl, rfl, rfl, by decide +kernel, by decide, by decide +kernel⟩

theorem witness_StepRunsFront :
    (∃ s : State, ∃ c rest, s.pending = c :: rest) ∧ (∃ s : State, s.pending = []) :=
  ⟨⟨{ State.reset with pending := [.DEVICE_TICK] }, _, _, rfl⟩, ⟨State.reset, rfl⟩⟩

theorem witness_EveryStepKeepsInvariant : State.Inv ⟨base, [.DEVICE_TICK]⟩ :=
  ⟨⟨by decide, fun _ hx => .inl (List.eq_of_mem_replicate hx)⟩, rfl, ⟨by decide +kernel, by decide +kernel⟩, rfl, rfl, rfl⟩

theorem witness_TickCountsWithoutBreak :
    (∃ s t : State, ∃ b rest, s.pending = .STANDBY_POWER_UP b :: rest ∧ step s = .next t ∧ s.dev.clk.standby = false) ∧
    (∃ s t : State, ∃ b rest, s.pending = .STANDBY_POWER_UP b :: rest ∧ step s = .next t ∧ s.dev.clk.standby = true) ∧
    (∃ s t : State, ∃ rest, s.pending = .DEVICE_TICK :: rest ∧ step s = .next t ∧ s.dev.clk.standby = true) ∧
    (∃ s t : State, ∃ c rest, s.pending = c :: rest ∧ step s = .next t ∧ c ≠ .DEVICE_TICK ∧ c ≠ .STANDBY_POWER_LOSS ∧
      ∀ b, c ≠ .STANDBY_POWER_UP b) :=
  ⟨⟨{ State.reset with pending := [.STANDBY_POWER_UP board0] }, _, board0, [], rfl, rfl, rfl⟩,
    ⟨⟨base, [.STANDBY_POWER_UP board0]⟩, _, board0, [], rfl, rfl, rfl⟩,
    ⟨⟨base, [.DEVICE_TICK]⟩, _, [], rfl, rfl, rfl⟩,
    ⟨⟨base, [.SUBMISSION 2]⟩, _, _, [], rfl, rfl, by simp, by simp, fun _ => by simp⟩⟩
/-! ### Ill-formed commands -/

/-- The commands that name a packet. -/
def packetCommands0 : List (CmdRef → Instr) :=
  [Instr.NOP, Instr.TIMESTAMP, Instr.QUEUE_CREATE, Instr.QUEUE_DESTROY, Instr.QUEUE_RESUME, Instr.PART_CREATE,
    Instr.PART_CREATE_REGROW, Instr.PART_RELEASE, Instr.PART_SHARES, Instr.CTX_SAVE, Instr.CTX_RESTORE, Instr.KILL, Instr.RECLAIM,
    Instr.ARR_MATMUL, Instr.ARR_STREAM, Instr.ARR_CONV, Instr.ARR_SHALLOW, Instr.ARR_QUAD, Instr.ARR_ACC_ZERO, Instr.ARR_ACC_LOAD,
    Instr.ARR_ACC_STORE, Instr.ARR_ACC_POST, Instr.MEM_COPY, Instr.MEM_FILL, Instr.MEM_ALLOC]

def packetCommands1 : List (CmdRef → Instr) :=
  [Instr.MEM_FREE, Instr.MEM_MIGRATE, Instr.SEAL, Instr.MAP, Instr.UNMAP, Instr.UNSEAL, Instr.VEC_RUN, Instr.VEC_TQ_FLUSH,
    Instr.TQ_POP, Instr.TQ_POP_TIMEOUT, Instr.WICK_DESC, Instr.WICK_DESC_REMOVE, Instr.STATS, Instr.STATS_T, Instr.STATS_S,
    Instr.GRAD, Instr.RELEASE, Instr.WICK_MERGE, Instr.WICK_TOKMAP, Instr.REQ_ADMIT, Instr.POOL_ADD, Instr.POOL_REMOVE,
    Instr.REQ_RELEASE, Instr.OPEN, Instr.CLOSE]

def packetCommands2 : List (CmdRef → Instr) :=
  [Instr.ABORT, Instr.PREFILL, Instr.SET_BALANCE, Instr.ADD_BALANCE, Instr.BIND, Instr.CONFIG, Instr.DRAW,
    Instr.GRAD_EXCHANGE_CONFIG, Instr.SEND, Instr.REMOVE, Instr.STEP_WAIT, Instr.DECISION_TICK, Instr.ACT_OFFLOAD,
    Instr.ACT_PREFETCH, Instr.TRD_NORM, Instr.TRD_UPDATE, Instr.TRD_VERIFY, Instr.ROOT, Instr.STORE, (Instr.SNAPSHOT_CONFIG ⟨·, none⟩),
    Instr.TAKE, (Instr.RESTORE_STATE · none), (Instr.RESTORE_LOG · none), Instr.VOTE, Instr.COMMIT_DECIDE]

def packetCommands3 : List (CmdRef → Instr) :=
  [Instr.COMMIT_WINDOW_EXPIRE, Instr.QUERY, Instr.LOG_MARK_CONFIG, Instr.MARK, Instr.BEGIN, Instr.END, Instr.ABANDON,
    Instr.ROUTE_SET, Instr.GROUP_DECLARE, Instr.GROUP_REMOVE, Instr.LINK_WRITE, Instr.CHAIN_REDUCE, Instr.LINK_SIGNAL,
    Instr.RERUN_ISSUE, Instr.COMMAND_COMMIT, Instr.ATTEST_REPORT, Instr.EXTEND, Instr.DEVREC_READ, Instr.DEVREC_INSTALL,
    Instr.TELEMETRY, Instr.ERRQ_READ, Instr.POWER_CAP, Instr.WATCHDOG, Instr.UNSECURED_ENTRY_TIMEOUT]

/-- R233: a queue number of 8 bits, a sequence number of 64. -/
theorem test_wf_packets : ∀ f ∈ List.flatten [packetCommands0, packetCommands1, packetCommands2, packetCommands3],
    (f ⟨256, 0⟩).wf = false ∧ (f ⟨0, 2 ^ 64⟩).wf = false ∧ (f ⟨255, 2 ^ 64 - 1⟩).wf = true := by
  decide +kernel

def messageCommands : List (Message → Instr) :=
  [.CONTRIB_ARRIVE, .LOG_MIRROR_RECEIVE, .GROUP_MESSAGE_ARRIVE, .COMMIT_MESSAGE_ARRIVE, .LINK_WRITE_DATA_ARRIVE,
    .MESSAGE_FORWARD 7 1, fun m => .SNAPSHOT_CONFIG ⟨⟨0, 0⟩, (some m)⟩, fun m => .RESTORE_STATE ⟨0, 0⟩ (some m), fun m => .RESTORE_LOG ⟨0, 0⟩ (some m)]

/-- R570, R577: device numbers of 14 bits, four virtual channels. -/
theorem test_wf_messages : ∀ f ∈ messageCommands, (f ⟨0, 16384, 0, 0, .ack 0⟩).wf = false ∧ (f ⟨0, 0, 16384, 0, .ack 0⟩).wf = false ∧
    (f ⟨0, 0, 0, 4, .ack 0⟩).wf = false ∧ (f ⟨0, 16383, 16383, 3, .ack 0⟩).wf = true := by
  decide +kernel

theorem test_wf_spindles_and_memory : ∀ i ∈ [Instr.PILOT_WINDOW 14 ⟨0, false⟩, .PILOT_WINDOW 0 ⟨17, true⟩, .PILOT_RAMP 14, .PILOT_CFG_WRITE .host 14 0,
    .CHAIN_COMMIT 14 0, .UNSEAL_ZERO_DONE 16, .BACKGROUND_ZERO_DONE (.skeinPage 384), .BACKGROUND_ZERO_DONE (.hbmPage 524288),
    .BACKGROUND_ZERO_DONE (.ddrPage 4194304), .BACKGROUND_ZERO_DONE (.kvSlot 14 0 0), .BACKGROUND_ZERO_DONE (.kvSlot 0 0 32),
    .RELEASE_ZERO_DONE 14, .KV_PAGE_ZERO_DONE 14 0, .STREAM_DELIVER 16384, .CONS_READ 16384], i.wf = false := by
  decide +kernel

theorem test_wf_groups_and_logs : ∀ i ∈ [Instr.NORM_RESULT 65536 0 0 0, .NORM_RESULT 0 (2 ^ 32) 0 0, .DECISION_ARRIVE 65536 0 0 0,
    .DECISION_ARRIVE 0 (2 ^ 32) 0 0, .DECISION_ARRIVE 0 0 (2 ^ 32) 0, .DECISION_ARRIVE 0 0 0 4, .LOG_ENTRY_SECURED 14 0 0,
    .LOG_ENTRY_SECURED 0 2 0, .COMMIT_TABLE_QUERY 16384 0 0, .SERVING_A_BUDDY 0 16384 (.ack 0),
    .COMMIT_TABLE_QUERY 0 65536 0, .COMMIT_TABLE_QUERY 0 0 (2 ^ 32), .ROUTE_HOLD_RELEASE 16384, .SPAN_RESET (2 ^ 32)], i.wf = false := by
  decide +kernel

theorem test_wf_ports : ∀ i ∈ [Instr.FLIT_RECEIVE 8 (flit 0 true), .FLIT_RECEIVE 0 { flit 0 true with vc := 4 },
    .FLIT_RECEIVE 0 { flit 0 true with cls := 2 }, .FLIT_RECEIVE 0 { flit 0 true with creditVc := 4 },
    .FLIT_RECEIVE 0 { flit 0 true with creditCls := 2 }, .REPLAY_REQUEST 8 0, .MESSAGE_FORWARD 8 0 ⟨0, 0, 0, 0, .ack 0⟩,
    .MESSAGE_FORWARD 0 2 ⟨0, 0, 0, 0, .ack 0⟩, .RETRAIN 8 .fec none, .RETRAIN 0 .fec (some 9), .RETRAIN_DONE 8, .RETRAIN_TIMEOUT 8,
    .FULL_TRAINING_DONE 8 [], .FULL_TRAINING_DONE 0 [9], .PORT_ENABLE_WRITE .host 8 0, .GROUP_WINDOW_ACCESS 8 0 ⟨4, none⟩,
    .GROUP_WINDOW_ACCESS 0 0x1FFFFFFFC ⟨8, none⟩, .GROUP_WINDOW_ACCESS 0 2 ⟨4, none⟩, .GROUP_WINDOW_ACCESS 0 0 ⟨6, none⟩,
    .GROUP_WINDOW_ACCESS 0 0 ⟨8, (some (zeros 4))⟩, .MSIX_COALESCED_SEND 2048, .MSIX_VECTOR_UNMASK 2048], i.wf = false := by
  decide +kernel

theorem test_wf_queues_and_registers : ∀ i ∈ [Instr.QUEUE_WINDOW_ACCESS 256 0 4 none, .QUEUE_WINDOW_ACCESS 0 0x800000 4 none,
    .SUBMISSION_DOORBELL (bell 1 0) 0, .SUBMISSION_DOORBELL (bell 256 0) 0, .COMPLETION_DOORBELL (bell 0 0) 0, .SUBMISSION 256,
    .DISPATCH 256, .WAIT_TIMEOUT 256, .RECORD_WRITE 256, .CD_REFCLK_LOST 3, .REGISTER_WRITE .host 0x2000000 0, .REGISTER_WRITE .host 2 0,
    .DOWN_ACCESS_READ .host 1, .SKN_QUOTA_WRITE .host 14 0 0, .SKN_QUOTA_WRITE .host 0 3 0], i.wf = false := by
  decide +kernel

theorem test_wf_sideband_and_power : ∀ i ∈ [Instr.SB_COMMAND_PACKET ⟨⟨2, 0⟩, 0x28D1A⟩ [], .SB_COMMAND_PACKET ⟨⟨0, 256⟩, 0x28D1A⟩ [],
    .SB_COMMAND_PACKET ⟨⟨0, 0⟩, (2 ^ 32)⟩ [], .SB_REGISTER_READ ⟨⟨2, 0⟩, 0⟩ 0 0 1, .SB_REGISTER_READ ⟨⟨0, 0⟩, (2 ^ 32)⟩ 0 0 1,
    .SB_REGISTER_READ ⟨⟨0, 0⟩, 0⟩ 256 0 1, .SB_REGISTER_READ ⟨⟨0, 0⟩, 0⟩ 0 (2 ^ 64) 1, .SB_REGISTER_READ ⟨⟨0, 0⟩, 0⟩ 0 0 0,
    .SB_REGISTER_READ ⟨⟨0, 0⟩, 0⟩ 0 0 17, .SB_REGISTER_WRITE ⟨⟨2, 0⟩, 0⟩ 0 0 0, .SB_REGISTER_WRITE ⟨⟨0, 0⟩, (2 ^ 32)⟩ 0 0 0,
    .SB_REGISTER_WRITE ⟨⟨0, 0⟩, 0⟩ 256 0 0, .SB_REGISTER_WRITE ⟨⟨0, 0⟩, 0⟩ 0 (2 ^ 64) 0, .SB_CONTINUATION ⟨⟨2, 0⟩, 0⟩ 0 [1],
    .SB_CONTINUATION ⟨⟨0, 0⟩, (2 ^ 32)⟩ 0 [1], .SB_CONTINUATION ⟨⟨0, 0⟩, 0⟩ (2 ^ 32) [1], .SB_CONTINUATION ⟨⟨0, 0⟩, 0⟩ 0 []], i.wf = false := by
  decide +kernel

theorem test_wf_power : ∀ i ∈ [Instr.GET_VENDOR_DEFINED_MESSAGE_SUPPORT ⟨2, 0⟩, .ALERT_SEND 2, .UNIT_RESTART_DONE ⟨12, 0⟩,
    .RECOVERY_TIMEOUT ⟨0, 256⟩, .ERROR_TAKEN { errorOf 1 with unit := ⟨12, 0⟩ }, .INPUT_STUCK 2, .INPUT_CHATTER 2, .THERMAL_TRIP 5 0 cold,
    .POWER_GOOD_LOST 3], i.wf = false := by
  decide +kernel

theorem test_wf_long_continuation (l : List Byte) (h : l.length = 1025) : (Instr.SB_CONTINUATION ⟨⟨0, 0⟩, 0⟩ 0 l).wf = false := by
  simp [Instr.wf, h]

/-! ### Values that the manual gives -/

/-- The worked example of the Treadle: the tree over eight partials gives 4.0, and max_norm 1.5 gives κ = 0.75. -/
theorem test_norm_example :
    treeSum [0x3E800000, 0x3F400000, 0x3F000000, 0x3F000000, 0x3F800000, 0x3E800000, 0x3F000000, 0x3E800000] = 0x40800000 ∧
      kappaOf ⟨0x40800000, 0⟩ 0x3FC00000 = 0x3F400000 := by
  decide +kernel

/-- The same example: c1 · 180 rounds to 18 and b1 · 112 + 18 to 118.8125 in FP16. -/
theorem test_moment_example :
    encodeFp fp16 (laneMul fp16 (decodeFp fp16 0x2E66) (decodeFp fp16 0x59A0)) = 0x4C80 ∧
      encodeFp fp16 (laneFma3 fp16 (decodeFp fp16 0x3B33) (decodeFp fp16 0x5700) (decodeFp fp16 0x4C80)) = 0x576D := by
  decide +kernel

/-- The worked example of the vector engine: the lower of two equal positions wins, and a NaN beats both (R82). -/
theorem test_winner_example :
    treeFold (better fp32 true) (emptyBest fp32 true) [(0x3F800000, 40000), (0x40000000, 41234), (0x40000000, 43001)] = (0x40000000, 41234) ∧
      treeFold (better fp32 true) (emptyBest fp32 true) [(0x40000000, 41234), (0x7FC00000, 44990)] = (0x7FC00000, 44990) := by
  decide +kernel

/-- The worked example of the convolution: P and Q are 58. -/
theorem test_convolution_example :
    ConvP { tinyGeom with inH := 58, inW := 58, inC := 64, winR := 3, winS := 3, padT := 1, padB := 1, padL := 1, padR := 1 } = 58 := by
  decide +kernel

/-! ### Single commands -/

def outcomeDev (o : Host.Outcome State Fault Refusal) : Option Dev :=
  match o with
  | .next s => some s.dev
  | .fault _ => none
  | .refused _ => none

/-- R249: a tail 2³¹ ahead is ignored and counted; one 16 ahead of an empty ring of 16 is taken. -/
theorem test_doorbell_far : ((outcomeDev (exec (.SUBMISSION_DOORBELL (bell 0 2) (2 ^ 31)) (ringed id))).map (fun d => ((d.queue 2).tail, (d.queue 2).dbIgnored))) =
    some (0, 1) := by decide +kernel
theorem test_doorbell_full : ((outcomeDev (exec (.SUBMISSION_DOORBELL (bell 0 2) 16) (ringed id))).map (fun d => ((d.queue 2).tail, (d.queue 2).dbIgnored))) =
    some (16, 0) := by decide +kernel

def levels (o : Host.Outcome State Fault Refusal) : Option (List (Nat × Bool)) :=
  (outcomeDev o).map (fun d => d.lamp.errq.map (fun r => (r.level, r.escalated)))

/-- The worked example of escalation: code 0x03 on a Spindle starts at level 1; while it recovers there, the next at level 2
with ESCALATED set. -/
theorem test_error_first : levels (exec (.ERROR_TAKEN (errorOf 3)) (lamped (fun l => { l with errq := [] }))) = some [(1, false)] := by
  decide +kernel
theorem test_error_second : levels (exec (.ERROR_TAKEN (errorOf 3)) ⟨{ restarting with lamp := { restarting.lamp with errq := [] } }, []⟩) =
    some [(2, true)] := by decide +kernel

/-- What a packet holds after its run: its status, its counters. -/
def counted (s : State) (i : Instr) : Option (Nat × Nat × Nat × Nat) :=
  (outcomeDev (exec i s)).bind (fun d => (d.entry one).bind (fun e =>
    match e.phase with
    | .ran r => some (r.status, r.c0, r.c1, r.c2)
    | _ => none))

/-- The worked example of an allocation that spills, with a quota of 4 pages of which 3 are in use: 10 pages of tier AUTO. -/
def spilling : Dev :=
  { base with parts := { base.parts with p := [(0, { part0 with quotaSkein := 4, quotaHbm := 4096 })] } }

theorem test_alloc_spills : counted (on spilling (pk 0x12 (.memAlloc 0x40000000 10 0 0 true))) (.MEM_ALLOC one) = some (stOk, 1, 9, 0) := by
  decide +kernel

/-- The effects of a packet after its run. -/
def held (s : State) (i : Instr) : Option (List Effect) :=
  (outcomeDev (exec i s)).bind (fun d => (d.entry one).bind (fun e =>
    match e.phase with
    | .ran r => some r.effects
    | _ => none))

/-- 2.0 × 2.0 drained in FP32 is 4.0, at the first byte of the second page. -/
theorem test_matmul_drains : (held (on { base with mem := { base.mem with bytes := [(paOf .skein 8 + 1, 0x40)] } }
    (pk 0x20 (.arrMatmul (tiny 1)))) (.ARR_MATMUL one)).bind List.head? = some (.mem (paOf .skein 9) [0, 0, 0x80, 0x40]) := by
  decide +kernel

/-- R28: the tick count is of 64 bits. -/
theorem test_tick_wraps : ((outcomeDev (exec .DEVICE_TICK (clocked (fun c => { c with tick := 2 ^ 64 - 1 })))).map (fun d => d.clk.tick)) =
    some 0 := by decide +kernel

/-- R256: a signal below the token's present value leaves it. -/
theorem test_signal_is_maximum : ((outcomeDev (exec (.COMMAND_COMMIT one) (on (base.setToken 0 3 9)
    { pkAt 0 .nop (.ran Result.fresh) with hdr := { hdr 0 with sig := 3, sigVal := 2 } }))).map (fun d => d.token 0 3)) = some 9 := by
  decide +kernel

/-- R585: a LINK_SIGNAL that arrives raises its token. -/
theorem test_signal_arrives : ((outcomeDev (exec (.COMMIT_MESSAGE_ARRIVE (message (.signal 5 0 2 3))) ⟨upDev, []⟩)).map (fun d => d.token 0 2)) =
    some 3 := by decide +kernel

/-- R29: the tick starts at zero when the standby rails come up. -/
theorem test_power_up : ((outcomeDev (exec (.STANDBY_POWER_UP board0) State.reset)).map (fun d => (d.clk.standby, d.clk.tick))) =
    some (true, 0) := by decide +kernel

/-- R331, R334, R377: bytes of the entry of an active request whose prompt is done, read at their offsets. -/
theorem test_entry_bytes : ([0, 8, 16, 20, 31, 50, 56, 60, 83, 116, 120].map (fun o => (withReq req0 []).memBytes (entryPa 0 + o) 1)) =
    [[0x81], [1], [1], [100], [0xFF], [16], [7], [1], [0x3F], [12], [98]] ∧ (req0.image 7).length = 128 := by decide +kernel

end Sys2Proof.Tests
end

section
/-! PROOFS (O56 to O60). What every step keeps: the tick and its copies, the canonical forms, and no error left to take. -/

namespace Sys2Proof.Machine

/-! ### What every step keeps (R29, R30, R629) -/

/-- The part of `State.Inv` that speaks of the block: its ticks (R30) and its canonical forms. -/
def Dev.Orderly (d : Dev) : Prop :=
  d.clk.ok ∧ d.clk.copies.length = 55 ∧ Tidy d.mem.bytes d.mem.host d.lamp.localMem d.paths

theorem inv_iff (s : State) : s.Inv ↔ s.dev.Orderly ∧ s.Calm := by
  constructor
  · rintro ⟨clock, copies, ⟨bytes, host⟩, lampMemory, paths, calm⟩
    exact ⟨⟨clock, copies, bytes, host, lampMemory, paths⟩, calm⟩
  · rintro ⟨⟨clock, copies, bytes, host, lampMemory, paths⟩, calm⟩
    exact ⟨clock, copies, ⟨bytes, host⟩, lampMemory, paths, calm⟩

/-- What `Keeps` says is enough to stay in order. -/
theorem orderly_of_keeps {d₀ d : Dev} (hk : Keeps d₀ d) (h : d₀.Orderly) : d.Orderly := by
  obtain ⟨-, htick, hcopies, htidy⟩ := hk
  obtain ⟨hclk, hlen, ht⟩ := h
  refine ⟨?_, hcopies ▸ hlen, htidy ht⟩
  unfold Clock.ok
  rw [htick, hcopies]
  exact hclk

/-- R30: after a tick every copy is the new count, or the count before it. -/
theorem clock_next_ok (k : Clock) (use : Nat) : (k.next use).ok := by
  refine ⟨Nat.mod_lt _ (by decide), fun x hx => ?_⟩
  obtain ⟨i, -, rfl⟩ := List.mem_map.1 hx
  dsimp only [Clock.next, copyOf]
  split
  · exact .inl rfl
  · split
    · exact .inr rfl
    · exact .inl rfl

theorem clock_next_length (k : Clock) (use : Nat) : (k.next use).copies.length = k.copies.length := by
  simp [Clock.next]

/-- R29: at the rise of the standby rails every copy of the count is zero. -/
theorem clock_risen_ok : ({ Clock.reset with standby := true, refPresent := true } : Clock).ok :=
  ⟨by decide, fun _ hx => .inl (List.eq_of_mem_replicate hx)⟩

theorem orderly_initial : Dev.initial.Orderly :=
  ⟨⟨by decide, fun _ hx => .inl (List.eq_of_mem_replicate hx)⟩, rfl, rfl, rfl, rfl, rfl⟩

/-- The block when the standby rails have risen, before stage 1 of its boot (R29, R612). -/
def Dev.risen (d : Dev) (b : BoardFacts) : Dev :=
  let first := d.lamp.copyA.isEmpty && d.lamp.copyB.isEmpty
  { d with
    clk := { Clock.reset with standby := true, refPresent := true }
    links := { d.links with bridge := b.hostEn }
    power := { Power.reset with stored := d.power.stored }
    lamp := { d.lamp with
      board := some b, on := true
      copyA := if first then b.mramA else d.lamp.copyA
      copyB := if first then b.mramB else d.lamp.copyB
      minVersion := if first then b.minVersion else d.lamp.minVersion } }

theorem doStandbyPowerUp_rises {d : Dev} (b : BoardFacts) (h : d.clk.standby = false) :
    doStandbyPowerUp d b = (d.risen b).bootFrom1 := by
  simp [doStandbyPowerUp, h, Dev.risen]

theorem doStandbyPowerUp_up {d : Dev} (b : BoardFacts) (h : d.clk.standby = true) : doStandbyPowerUp d b = d := by
  simp [doStandbyPowerUp, h]

theorem doDeviceTick_up {d : Dev} (h : d.clk.standby = true) :
    doDeviceTick d = { d.markLapsed.markHeads with
      clk := d.clk.next d.free, links := { d.links with msixSent := [] }, free := d.free + 1 } := by
  unfold doDeviceTick; rw [if_pos h]; rfl

theorem doDeviceTick_off {d : Dev} (h : d.clk.standby = false) : doDeviceTick d = d := by
  simp [doDeviceTick, h]

theorem orderly_doDeviceTick {d : Dev} (h : d.Orderly) : (doDeviceTick d).Orderly := by
  cases hs : d.clk.standby with
  | false => rw [doDeviceTick_off hs]; exact h
  | true =>
    rw [doDeviceTick_up hs]
    obtain ⟨-, hlen, ht⟩ := h
    exact ⟨clock_next_ok _ _, (clock_next_length _ _).trans hlen, ht⟩

theorem orderly_doStandbyPowerUp {d : Dev} (b : BoardFacts) (h : d.Orderly) : (doStandbyPowerUp d b).Orderly := by
  cases hs : d.clk.standby with
  | true => rw [doStandbyPowerUp_up b hs]; exact h
  | false =>
    rw [doStandbyPowerUp_rises b hs]
    refine orderly_of_keeps (keeps_bootFrom1 _ (keeps_refl _)) ?_
    exact ⟨clock_risen_ok, rfl, h.2.2⟩

theorem orderly_doStandbyPowerLoss {d : Dev} (h : d.Orderly) : (doStandbyPowerLoss d).Orderly := by
  obtain ⟨-, -, -, hhost, -, -⟩ := id h
  unfold doStandbyPowerLoss
  split
  · exact ⟨orderly_initial.1, rfl, rfl, hhost, rfl, rfl⟩
  · exact h

/-- Every command takes its effect on the block, and every effect leaves it in order. -/
theorem exec_orderly (c : Instr) :
    ∃ f : Dev → Dev, (∀ s : State, exec c s = s.runDev f) ∧ ∀ d : Dev, d.Orderly → (f d).Orderly := by
  by_cases hc : Clocked c
  · cases c with
    | DEVICE_TICK => exact ⟨doDeviceTick, fun _ => rfl, fun _ => orderly_doDeviceTick⟩
    | STANDBY_POWER_UP b => exact ⟨(doStandbyPowerUp · b), fun _ => rfl, fun _ => orderly_doStandbyPowerUp b⟩
    | STANDBY_POWER_LOSS => exact ⟨doStandbyPowerLoss, fun _ => rfl, fun _ => orderly_doStandbyPowerLoss⟩
    | _ => exact absurd hc id
  · obtain ⟨f, hf, hk⟩ := exec_effect c hc
    exact ⟨f, hf, fun d => orderly_of_keeps (hk d)⟩

/-- A command that runs on a state in order answers one in order. -/
theorem exec_inv (c : Instr) {s : State} (h : s.dev.Orderly) : ∃ t, exec c s = .next t ∧ t.Inv := by
  obtain ⟨f, hf, ho⟩ := exec_orderly c
  refine ⟨_, hf s, (inv_iff _).2 ⟨?_, settle_errDue _⟩⟩
  exact orderly_of_keeps (keeps_settle _ (keeps_refl _)) (ho _ h)

/-- Settles O56: `step` takes the front of the queue by its own definition. -/
theorem stepRunsFront : Obligations.StepRunsFront := by
  unfold Obligations.StepRunsFront step
  exact ⟨fun s c rest h => by rw [h], fun s h => by rw [h]⟩

/-- Settles O57: the values of `Dev.initial`, whose tables are empty. -/
theorem resetValues : Obligations.ResetValues := by
  unfold Obligations.ResetValues
  exact ⟨rfl, rfl, rfl, rfl, fun _ _ => rfl, fun _ => rfl, fun _ => rfl, fun _ => rfl, rfl, rfl, fun _ => ⟨rfl, rfl⟩, rfl,
    rfl, fun _ => rfl, rfl⟩

/-- Settles O58: at reset every copy is the count and every table is empty. -/
theorem resetHoldsInvariant : Obligations.ResetHoldsInvariant :=
  (inv_iff _).2 ⟨orderly_initial, rfl⟩

/-- Settles O59: every command's effect leaves the block in order (`exec_orderly`), and `settle` takes the errors it met. -/
theorem everyStepKeepsInvariant : Obligations.EveryStepKeepsInvariant := by
  unfold Obligations.EveryStepKeepsInvariant
  intro s hi
  obtain ⟨hfront, hidle⟩ := stepRunsFront
  cases hp : s.pending with
  | nil => exact ⟨s, hidle s hp, hi⟩
  | cons c rest =>
    rw [hfront s c rest hp]
    exact exec_inv c ((inv_iff s).1 hi).1

/-- R29: the standby power and the tick of a block after its errors are taken. -/
theorem settle_clk (d : Dev) : d.settle.clk.standby = d.clk.standby ∧ d.settle.clk.tick = d.clk.tick := by
  obtain ⟨hstandby, htick, -⟩ := keeps_settle d (keeps_refl d)
  exact ⟨hstandby, htick⟩

theorem doStandbyPowerUp_clk {d : Dev} (b : BoardFacts) (h : d.clk.standby = false) :
    (doStandbyPowerUp d b).clk.standby = true ∧ (doStandbyPowerUp d b).clk.tick = 0 := by
  rw [doStandbyPowerUp_rises b h]
  obtain ⟨hstandby, htick, -⟩ := keeps_bootFrom1 _ (keeps_refl (d.risen b))
  exact ⟨hstandby, htick⟩

/-- Settles O60: the three commands of the clock by their equations, every other one by `exec_keeps`. -/
theorem tickCountsWithoutBreak : Obligations.TickCountsWithoutBreak := by
  unfold Obligations.TickCountsWithoutBreak
  intro s t c rest hp hstep
  rw [stepRunsFront.1 s c rest hp] at hstep
  have hdev : ∀ f : Dev → Dev, exec c { s with pending := rest } = State.runDev { s with pending := rest } f →
      t.dev.clk.standby = (f s.dev).clk.standby ∧ t.dev.clk.tick = (f s.dev).clk.tick := by
    intro f hf
    rw [hf] at hstep
    cases hstep
    exact settle_clk _
  refine ⟨?_, ?_, ?_, ?_⟩
  · rintro b rfl hs
    obtain ⟨h1, h2⟩ := hdev (doStandbyPowerUp · b) rfl
    obtain ⟨h3, h4⟩ := doStandbyPowerUp_clk b hs
    exact ⟨h1.trans h3, h2.trans h4⟩
  · rintro b rfl hs
    obtain ⟨h1, h2⟩ := hdev (doStandbyPowerUp · b) rfl
    rw [doStandbyPowerUp_up b hs] at h1 h2
    exact ⟨h1.trans hs, h2⟩
  · rintro rfl hs
    obtain ⟨h1, h2⟩ := hdev doDeviceTick rfl
    rw [doDeviceTick_up hs] at h1 h2
    exact ⟨h1.trans hs, h2⟩
  · intro htick hloss hup
    have hc : ¬Clocked c := by
      intro hc
      cases c with
      | DEVICE_TICK => exact htick rfl
      | STANDBY_POWER_LOSS => exact hloss rfl
      | STANDBY_POWER_UP b => exact hup b rfl
      | _ => exact hc
    obtain ⟨t', ht', ⟨hstandby, hcount, -⟩, -⟩ := exec_keeps c { s with pending := rest } hc
    rw [ht'] at hstep
    cases hstep
    exact ⟨hstandby, hcount⟩

end Sys2Proof.Machine
end

section
/-! PROOFS (O46, O47). Reads of the register space: the latches of the requester paths, and the two halves of a 64-bit count. -/

namespace Sys2Proof.Machine

/-! ### Meanings -/

/-- A meaning whose effect is the block `d`, with no error left to take. -/
theorem runCalm {s : State} {d : Dev} {f : Dev → Dev} (h : f s.dev = d) (hd : d.errDue = []) :
    s.runDev f = .next (s.withDev d) := by
  rw [runPut h, State.put, settle_of_calm hd]

/-- A meaning that leaves the block as it is. -/
theorem runSame {s : State} {f : Dev → Dev} (hs : s.dev.errDue = []) (h : f s.dev = s.dev) : s.runDev f = .next s :=
  runCalm h hs

/-! ### Requester paths (R33) -/

/-- Each path has a key of its own. -/
theorem pathKey_injective : Function.Injective pathKey := by
  intro p q h
  cases p <;> cases q <;> simp_all [pathKey]

theorem pathOf_modPath_ne (d : Dev) {p q : Path} (f : PathRegs → PathRegs) (h : q ≠ p) :
    (d.modPath p f).pathOf q = d.pathOf q :=
  tget_tput_ne _ _ _ (pathKey_injective.ne h)

theorem pathOf_modPath_self {d : Dev} (p : Path) (f : PathRegs → PathRegs) (h : tblWf PathRegs.reset d.paths = true) :
    (d.modPath p f).pathOf p = f (d.pathOf p) :=
  tget_tput_self _ _ h

theorem pathOf_modPath_of_ne {d : Dev} {p : Path} {f : PathRegs → PathRegs} (h : f (d.pathOf p) ≠ PathRegs.reset) :
    (d.modPath p f).pathOf p = f (d.pathOf p) :=
  tget_tput_of_ne _ _ h

@[simp] theorem setRead_pathOf (d : Dev) (data : List Byte) (b : Bool) (p : Path) :
    (d.setRead data b).pathOf p = d.pathOf p := rfl

theorem latchOf_setLatch (l : List (Counter × Nat)) (c : Counter) (v : Nat) : latchOf (setLatch l c v) c = v := by
  simp [latchOf, setLatch]

/-! ### Little-endian fields -/

theorem leBytes_append (m n x : Nat) : leBytes m x ++ leBytes n (x / 256 ^ m) = leBytes (m + n) x := by
  induction m generalizing x with
  | zero => simp [leBytes]
  | succ m ih =>
    rw [Nat.succ_add]
    simp only [leBytes, List.cons_append]
    rw [← ih, Nat.div_div_eq_div_mul, pow_succ']

theorem leBytes_mod (n x : Nat) : leBytes n (x % 256 ^ n) = leBytes n x := by
  induction n generalizing x with
  | zero => rfl
  | succ n ih =>
    have hlow : BitVec.ofNat 8 (x % 256 ^ (n + 1)) = BitVec.ofNat 8 x :=
      BitVec.eq_of_toNat_eq (Nat.mod_mod_of_dvd x (dvd_pow_self 256 n.succ_ne_zero))
    simp only [leBytes, hlow]
    rw [pow_succ', Nat.mod_mul_right_div_self, ih]

/-- R34: the two halves of a 64-bit count, one after the other. -/
theorem leBytes_halves (x : Nat) : leBytes 4 (x % 2 ^ 32) ++ leBytes 4 (x / 2 ^ 32) = leBytes 8 x := by
  have hmod := leBytes_mod 4 x
  have happend := leBytes_append 4 4 x
  norm_num at hmod happend ⊢
  rw [hmod, happend]

/-! ### The offsets of the counters (R42) -/

theorem counterOff_nodup : (allCounters.map counterOff).Nodup := by decide +kernel

theorem find_counterOff {c : Counter} (hc : c ∈ allCounters) :
    allCounters.find? (fun x => counterOff x == counterOff c) = some c := by
  have hinj := List.inj_on_of_nodup_map counterOff_nodup
  cases hf : allCounters.find? (fun x => counterOff x == counterOff c) with
  | none => simpa using List.find?_eq_none.1 hf c hc
  | some x =>
    have hoff : counterOff x = counterOff c := by simpa using List.find?_some hf
    rw [hinj (List.mem_of_find?_eq_some hf) hc hoff]

theorem find_counterOff_high {c : Counter} (hc : c ∈ allCounters) :
    allCounters.find? (fun x => counterOff x + 4 == counterOff c + 4) = some c := by
  simpa using find_counterOff hc

/-- No counter's low half stands where the high half of an 8-byte aligned one does. -/
theorem find_counterOff_apart : ∀ c ∈ allCounters, counterOff c % 8 = 0 →
    allCounters.find? (fun x => counterOff x == counterOff c + 4) = none := by decide +kernel

/-! ### Reads of a register -/

theorem downError_up {d : Dev} (off : Nat) (h : d.lamp.cdUp = true) : d.downError off = none := by
  simp [Dev.downError, h]

theorem downError_down {d : Dev} {off : Nat} {u : UnitId} (h : d.lamp.cdUp = false) (hu : blockUnit off = some u) :
    d.downError off = some ⟨u, unitIsland u, 0x07, 0xFF, 0xFF, 0, off⟩ := by
  simp [Dev.downError, h, hu]

/-- R43: the MGD's own blocks answer whether the other dies are up or down. -/
theorem downError_mgd (d : Dev) {off : Nat} (h : blockUnit off = none) : d.downError off = none := by
  simp [Dev.downError, h]

theorem readReg_up {d : Dev} {off : Nat} (p : Path) (h : d.downError off = none) : d.readReg p off = d.readUp p off := by
  simp [Dev.readReg, h]

theorem readUp_counter (d : Dev) (p : Path) {c : Counter} (hc : c ∈ allCounters) :
    d.readUp p (counterOff c) =
      (d.counter p c % 2 ^ 32, d.modPath p (fun x => { x with hi := setLatch x.hi c (d.counter p c / 2 ^ 32) })) := by
  simp [Dev.readUp, find_counterOff hc]

theorem readUp_counterHigh (d : Dev) (p : Path) {c : Counter} (hc : c ∈ allCounters) (h8 : counterOff c % 8 = 0) :
    d.readUp p (counterOff c + 4) = (latchOf (d.pathOf p).hi c, d) := by
  simp only [Dev.readUp, find_counterOff_apart c hc h8, find_counterOff_high hc]

/-- A register that is no half of a counter. -/
theorem readUp_single (d : Dev) (p : Path) {off : Nat} (hlow : allCounters.find? (fun c => counterOff c == off) = none)
    (hhigh : allCounters.find? (fun c => counterOff c + 4 == off) = none) :
    d.readUp p off =
      if off = tickLoOff then (d.clk.tick % 2 ^ 32, d.modPath p (fun x => { x with tickHi := d.clk.tick / 2 ^ 32 }))
      else if off = tokLoOff then
        (d.selectedToken p % 2 ^ 32, d.modPath p (fun x => { x with tokHi := d.selectedToken p / 2 ^ 32 }))
      else (d.regWord p off % 2 ^ 32, d) := by
  simp only [Dev.readUp, hlow, hhigh]

theorem readUp_tickLo (d : Dev) (p : Path) :
    d.readUp p tickLoOff = (d.clk.tick % 2 ^ 32, d.modPath p (fun x => { x with tickHi := d.clk.tick / 2 ^ 32 })) := by
  rw [readUp_single d p (by decide +kernel) (by decide +kernel), if_pos rfl]

theorem readUp_tickHi (d : Dev) (p : Path) : d.readUp p (tickLoOff + 4) = ((d.pathOf p).tickHi % 2 ^ 32, d) := by
  rw [readUp_single d p (by decide +kernel) (by decide +kernel), if_neg (by decide), if_neg (by decide)]
  simp [tickLoOff, Dev.regWord, Dev.lmpReg]

theorem readUp_tokLo (d : Dev) (p : Path) :
    d.readUp p tokLoOff =
      (d.selectedToken p % 2 ^ 32, d.modPath p (fun x => { x with tokHi := d.selectedToken p / 2 ^ 32 })) := by
  rw [readUp_single d p (by decide +kernel) (by decide +kernel), if_neg (by decide), if_pos rfl]

theorem readReg_tickLo (d : Dev) (p : Path) : d.readReg p tickLoOff = d.readUp p tickLoOff :=
  readReg_up p (downError_mgd d rfl)

/-- R33: what a read of LMP_TICK_HI returns is the latch of its path, and it latches nothing. -/
theorem readReg_tickHi (d : Dev) (p : Path) : d.readReg p (tickLoOff + 4) = ((d.pathOf p).tickHi % 2 ^ 32, d) :=
  (readReg_up p (downError_mgd d rfl)).trans (readUp_tickHi d p)

/-! ### Read accesses (R34) -/

theorem readFor_reached {d : Dev} {p : Path} {off : Nat} (h : d.reaches p off = true) :
    d.readFor p off = (d.readReg p off).2.setRead (leBytes 4 (d.readReg p off).1) false := by
  simp [Dev.readFor, h]

theorem readFor_unreached {d : Dev} {p : Path} {off : Nat} (h : d.reaches p off = false) : d.readFor p off = d := by
  simp [Dev.readFor, h]

theorem readCount_single (d : Dev) {p : Path} (off : Nat) {wide : Bool} (h : wide = false ∨ p ≠ .host) :
    d.readCount p off wide = d.readFor p off := by
  unfold Dev.readCount
  rw [if_neg]
  rintro ⟨hwide, hhost, -⟩
  rcases h with h | h
  · simp [h] at hwide
  · exact h hhost

theorem readCount_unreached {d : Dev} {p : Path} {off : Nat} (wide : Bool) (h : d.reaches p off = false) :
    d.readCount p off wide = d := by
  unfold Dev.readCount
  split
  · rename_i hw
    obtain ⟨-, rfl, -⟩ := hw
    simp [Dev.readPair, h]
  · exact readFor_unreached h

/-- R34: an aligned 8-byte read whose first half, latched, is what its second half returns: the whole count. -/
theorem readCount_pair {d d' : Dev} {off v : Nat} (hreach : d.reaches .host off = true) (h8 : off % 8 = 0)
    (hlo : d.readReg .host off = (v % 2 ^ 32, d')) (hhi : d'.readReg .host (off + 4) = (v / 2 ^ 32, d')) :
    d.readCount .host off true = d'.setRead (leBytes 8 v) false := by
  simp only [Dev.readCount, h8, Dev.readPair, hreach, hlo, hhi, leBytes_halves, and_self, if_true]

/-- R33: the high half of a count of 64 bits fits a register. -/
theorem half_mod {x : Nat} (h : x < 2 ^ 64) : x / 2 ^ 32 % 2 ^ 32 = x / 2 ^ 32 := by omega

/-- The block after a read of LMP_TICK_LO on a path, but for the data returned. -/
def Dev.tickLatched (d : Dev) (p : Path) : Dev := d.modPath p (fun x => { x with tickHi := d.clk.tick / 2 ^ 32 })

theorem readReg_tickHi_latched {d : Dev} (p : Path) (ht : d.clk.tick < 2 ^ 64) (hw : tblWf PathRegs.reset d.paths = true) :
    (d.tickLatched p).readReg p (tickLoOff + 4) = (d.clk.tick / 2 ^ 32, d.tickLatched p) := by
  rw [readReg_tickHi, Dev.tickLatched, pathOf_modPath_self p _ hw, half_mod ht]

/-- Settles O46: the read latches the high half on its own path (`pathOf_modPath_self`) and on no other (`pathOf_modPath_ne`). -/
theorem tickLatches : Obligations.TickLatches := by
  unfold Obligations.TickLatches
  intro s p wide hcalm htick hwf hreach hsingle
  have hrun : doTickLoRead s.dev p wide = (s.dev.tickLatched p).setRead (leBytes 4 (s.dev.clk.tick % 2 ^ 32)) false := by
    rw [doTickLoRead, readCount_single _ _ hsingle, readFor_reached hreach, readReg_tickLo, readUp_tickLo, Dev.tickLatched]
  have hreads : ∀ q, (((s.dev.tickLatched p).setRead (leBytes 4 (s.dev.clk.tick % 2 ^ 32)) false).readReg q (tickLoOff + 4)).1 =
      ((s.dev.tickLatched p).pathOf q).tickHi % 2 ^ 32 := fun q => by rw [readReg_tickHi, setRead_pathOf]
  refine ⟨_, runCalm (f := (doTickLoRead · p wide)) hrun hcalm, rfl, (hreads p).trans ?_, fun p' hp' => (hreads p').trans ?_, rfl⟩
  · rw [Dev.tickLatched, pathOf_modPath_self p _ hwf, half_mod htick]
  · rw [Dev.tickLatched, pathOf_modPath_ne _ _ hp']
    exact (congrArg Prod.fst (readReg_tickHi s.dev p')).symm

/-- Settles O47: each read by the equation of its register, and those that do not reach theirs by `readFor_unreached`. -/
theorem registerReadsComplete : Obligations.RegisterReadsComplete := by
  unfold Obligations.RegisterReadsComplete
  refine ⟨?token, ?counter, ?counterPair, ?tickPair, ?down, ?noTick, ?noToken, ?noCounter, ?noDown⟩
  case token =>
    intro s p hcalm hup hreach
    refine runCalm (f := (doTokenLoRead · p)) ?_ hcalm
    rw [doTokenLoRead, readFor_reached hreach, readReg_up p (downError_up _ hup), readUp_tokLo]
  case counter =>
    intro s p c wide hcalm hup hc hreach hsingle
    refine runCalm (f := (doCounterLoRead · p c wide)) ?_ hcalm
    rw [doCounterLoRead, if_pos (List.contains_iff_mem.2 hc), readCount_single _ _ hsingle, readFor_reached hreach,
      readReg_up p (downError_up _ hup), readUp_counter _ _ hc]
  case counterPair =>
    intro s c hcalm hup hc h8 hreach hbound
    refine runCalm (f := (doCounterLoRead · .host c true)) ?_ hcalm
    rw [doCounterLoRead, if_pos (List.contains_iff_mem.2 hc)]
    refine readCount_pair hreach h8 ((readReg_up _ (downError_up _ hup)).trans (readUp_counter _ _ hc)) ?_
    rw [readReg_up _ (downError_up _ (by exact hup)), readUp_counterHigh _ _ hc h8, pathOf_modPath_of_ne, latchOf_setLatch]
    intro h
    exact List.cons_ne_nil _ _ (congrArg PathRegs.hi h)
  case tickPair =>
    intro s hcalm hreach htick hwf
    exact runCalm (f := (doTickLoRead · .host true))
      (readCount_pair hreach rfl ((readReg_tickLo _ _).trans (readUp_tickLo _ _)) (readReg_tickHi_latched _ htick hwf)) hcalm
  case down =>
    intro s p off u hdown hu hreach
    have herr := downError_down hdown hu
    refine runPut (f := (doDownAccessRead · p off)) ?_
    simp only [doDownAccessRead, herr, Option.isSome_some, if_true, readFor_reached hreach, Dev.readReg]
    rfl
  case noTick =>
    intro s p wide hcalm hreach
    exact runSame (f := (doTickLoRead · p wide)) hcalm (readCount_unreached wide hreach)
  case noToken =>
    intro s p hcalm hreach
    exact runSame (f := (doTokenLoRead · p)) hcalm (readFor_unreached hreach)
  case noCounter =>
    intro s p c wide hcalm hreach
    refine runSame (f := (doCounterLoRead · p c wide)) hcalm ?_
    simp only [doCounterLoRead, readCount_unreached wide hreach, ite_self]
  case noDown =>
    intro s p off hcalm hreach
    refine runSame (f := (doDownAccessRead · p off)) hcalm ?_
    simp only [doDownAccessRead, readFor_unreached hreach, ite_self]

end Sys2Proof.Machine
end

section
/-! PROOFS (O45, O50). The events of the clocks, and writes of the register space. -/

namespace Sys2Proof.Machine

/-! ### Clocks (R28 to R32, R646) -/

/-- Errors that fall due one after another. -/
theorem foldl_due {α : Type} (f : α → ErrorInfo) (l : List α) (d : Dev) :
    l.foldl (fun d a => d.due (f a)) d = { d with errDue := d.errDue ++ l.map f } := by
  induction l generalizing d with
  | nil => simp
  | cons a l ih => rw [List.foldl_cons, ih]; simp [Dev.due]

/-- Settles O45: each event by its definition, with `doDeviceTick_up` for the tick and `foldl_due` for the units of a clock. -/
theorem clockEventsComplete : Obligations.ClockEventsComplete := by
  unfold Obligations.ClockEventsComplete
  refine ⟨?tick, ?off, ?lost, ?back, ?cdLost⟩
  case tick =>
    intro s hcalm hs
    refine ⟨runCalm (f := doDeviceTick) (doDeviceTick_up hs) hcalm, rfl, fun h => ?_, fun h => ?_⟩
    · simp [Clock.next, h]
    · simp [Clock.next, h]
  case off => exact fun s hcalm hs => runSame (f := doDeviceTick) hcalm (doDeviceTick_off hs)
  case lost =>
    intro s hs hp
    exact runPut (f := doRefclkLost) (by simp [doRefclkLost, hs, hp])
  case back =>
    intro s hs hp
    exact runPut (f := doRefclkReturn) (by simp [doRefclkReturn, hs, hp])
  case cdLost =>
    intro s n hup hn
    exact runPut (f := (doCdRefclkLost · n)) (by simp only [doCdRefclkLost, hup, hn, and_self, if_true, foldl_due])

/-! ### Writes of a register (R39, R43) -/

theorem writeReg_up {d : Dev} {p : Path} {off : Nat} (v : Nat) (hr : d.reaches p off = true) (he : d.downError off = none) :
    d.writeReg p off v = d.writeUp p off v := by
  simp [Dev.writeReg, hr, he]

theorem writeReg_down {d : Dev} {p : Path} {off : Nat} {e : ErrorInfo} (v : Nat) (hr : d.reaches p off = true)
    (he : d.downError off = some e) : d.writeReg p off v = d.reportDown e := by
  simp [Dev.writeReg, hr, he]

theorem writeReg_unreached {d : Dev} {p : Path} {off : Nat} (v : Nat) (hr : d.reaches p off = false) :
    d.writeReg p off v = d := by
  simp [Dev.writeReg, hr]

/-- R39, R612: a path reaches every register outside the LMP_ block, or none of them. -/
theorem reaches_congr {d : Dev} {p : Path} {a b : Nat} (h : inLmpOff a = inLmpOff b) : d.reaches p a = d.reaches p b := by
  cases p <;> simp only [Dev.reaches, h]

/-- A write to a block on a die that is up, on a path that reaches a register of the same kind of block. -/
theorem writeReg_dies {d : Dev} {p : Path} {off a : Nat} (v : Nat) (hup : d.lamp.cdUp = true) (hr : d.reaches p a = true)
    (h : inLmpOff off = inLmpOff a) : d.writeReg p off v = d.writeUp p off v :=
  writeReg_up v ((reaches_congr h).trans hr) (downError_up off hup)

/-- R612: a write to the LMP_ block, which leaves the block as it is or reaches its register. -/
theorem writeReg_mgd {d : Dev} {off : Nat} (p : Path) (v : Nat) (h : blockUnit off = none) :
    d.writeReg p off v = if d.reaches p off then d.writeUp p off v else d := by
  simp [Dev.writeReg, downError_mgd d h]

/-- R42: a write at a place of the Skein's block. -/
theorem writeUp_skn (d : Dev) (p : Path) {o : Nat} (v : Nat) (h : o < 0x100000) :
    d.writeUp p (0x1000000 + o) v = d.writeSkn p o v := by
  have hb : (0x1000000 + o) / 0x100000 = 0x10 := by omega
  have ho : (0x1000000 + o) % 0x100000 = o := by omega
  simp only [Dev.writeUp, hb, ho]
  rfl

theorem writeUp_spn (d : Dev) (p : Path) {sp o : Nat} (v : Nat) (hsp : sp < 14) (h : o < 0x80000) :
    d.writeUp p (sp * 0x100000 + o) v = d.writeSpn sp o v := by
  have hb : (sp * 0x100000 + o) / 0x100000 = sp := by omega
  have hh : (sp * 0x100000 + o) % 0x100000 / 0x80000 = 0 := by omega
  have hr : (sp * 0x100000 + o) % 0x100000 % 0x80000 = o := by omega
  simp only [Dev.writeUp, hb, hh, hr, hsp, if_true]

theorem writeUp_lnk (d : Dev) (p : Path) {die o : Nat} (v : Nat) (hd : die < 2) (h : o < 0x80000) :
    d.writeUp p (0x1600000 + die * 0x80000 + o) v = d.writeLnk p die o v := by
  have hb : (0x1600000 + die * 0x80000 + o) / 0x100000 = 0x16 := by omega
  have hh : (0x1600000 + die * 0x80000 + o) % 0x100000 / 0x80000 = die := by omega
  have hr : (0x1600000 + die * 0x80000 + o) % 0x100000 % 0x80000 = o := by omega
  simp only [Dev.writeUp, hb, hh, hr]
  rfl

/-! ### Arrays of registers -/

theorem inArr_elem {base step n i : Nat} (hs : 0 < step) (hi : i < n) : inArr base step n (base + step * i) = true := by
  simp [inArr, hs, hi]

theorem idxIn_elem {base step i : Nat} (hs : 0 < step) : idxIn base step (base + step * i) = i := by
  simp [idxIn, hs]

/-- An offset past an array is not in it. -/
theorem inArr_past {base step n o : Nat} (hs : 0 < step) (h : base + step * n ≤ o) : inArr base step n o = false := by
  have : ¬(o - base) / step < n := by
    rw [Nat.div_lt_iff_lt_mul hs, mul_comm]
    omega
  simp [inArr, this]

/-! ### What a write at an offset does -/

theorem writeSkn_hbmQuota (d : Dev) {p : Path} {part : Nat} (v : Nat) (hpart : part < 14) (hp : p ≠ .lamplighter) :
    d.writeSkn p (0x140 + 4 * part) v = d.modPart part (fun x => { x with quotaHbm := bits v 22 0 }) := by
  unfold Dev.writeSkn
  rw [if_neg (by omega), if_neg (by omega), inArr_past (by decide) (by omega), inArr_elem (by decide) hpart,
    idxIn_elem (by decide)]
  simp [mayWrite, hp]

theorem writeSkn_ddrQuota (d : Dev) {p : Path} {part : Nat} (v : Nat) (hpart : part < 14) (hp : p ≠ .lamplighter) :
    d.writeSkn p (0x180 + 4 * part) v = d.modPart part (fun x => { x with quotaDdr := bits v 22 0 }) := by
  unfold Dev.writeSkn
  rw [if_neg (by omega), if_neg (by omega), inArr_past (by decide) (by omega), inArr_past (by decide) (by omega),
    inArr_elem (by decide) hpart, idxIn_elem (by decide)]
  simp [mayWrite, hp]

/-- R193: bit 30 of SKN_ECC_STATUS clears CE_COUNT, and a zero in bit 31 leaves UE. -/
theorem writeEcc_ceClr (m : Mem) : m.writeEcc 0x40000000 = { m with ceCount := 0 } := by
  have h30 : bit 0x40000000 30 = true := by decide
  have h31 : bit 0x40000000 31 = false := by decide
  simp [Mem.writeEcc, h30, h31]

theorem writeLnk_portCtl (d : Dev) {p : Path} (die i v : Nat) (hi : i < 4) (hp : p ≠ .lamplighter) :
    d.writeLnk p die (0x100 + 16 * i) v = d.writePortCtl (4 * die + i) v := by
  unfold Dev.writeLnk
  rw [inArr_elem (by decide) hi, idxIn_elem (by decide)]
  simp [mayWrite, hp]

theorem writeUp_restart (d : Dev) (p : Path) :
    d.writeUp p 0x1800020 0x80000000 = if d.lamp.recovery then d.bootFrom1 else d := rfl

theorem writeUp_recoveryData (d : Dev) (p : Path) (v : Nat) : d.writeUp p 0x1800080 v = d.programSlotB v := rfl

/-- Settles O50: each write at its register's offset, by what a write there does. -/
theorem registerWritesComplete : Obligations.RegisterWritesComplete := by
  unfold Obligations.RegisterWritesComplete
  refine ⟨?up, ?down, ?quota, ?ceClr, ?pilot, ?port, ?restart, ?noRestart, ?data, ?noData, ?unreached⟩
  case up => exact fun s p off v he hr => runPut (f := (doRegisterWrite · p off v)) (writeReg_up _ hr he)
  case down => exact fun s p off v e he hr => runPut (f := (doRegisterWrite · p off v)) (writeReg_down _ hr he)
  case quota =>
    intro s p part v hcalm hup hpart hp hr
    have hwrite : ∀ o, o < 0x100000 → s.dev.writeReg p (0x1000000 + o) v.toNat = s.dev.writeSkn p o v.toNat := by
      intro o ho
      have hlmp : inLmpOff (0x1000000 + o) = inLmpOff 0x1000140 := by
        simp only [inLmpOff, decide_eq_decide]
        omega
      rw [writeReg_dies _ hup hr hlmp, writeUp_skn _ _ _ ho]
    constructor
    · refine runCalm (f := (doSknQuotaWrite · p part 1 v)) ?_ hcalm
      rw [doSknQuotaWrite, if_pos ⟨hpart, by decide⟩, ← writeSkn_hbmQuota s.dev v.toNat hpart hp,
        ← hwrite (0x140 + 4 * part) (by omega)]
      congr 1
      omega
    · refine runCalm (f := (doSknQuotaWrite · p part 2 v)) ?_ hcalm
      rw [doSknQuotaWrite, if_pos ⟨hpart, by decide⟩, ← writeSkn_ddrQuota s.dev v.toNat hpart hp,
        ← hwrite (0x180 + 4 * part) (by omega)]
      congr 1
      omega
  case ceClr =>
    intro s p hcalm hup hr
    refine runCalm (f := (doCeClr · p)) ?_ hcalm
    rw [doCeClr, writeReg_dies _ hup hr rfl]
    exact congrArg s.dev.modMem (funext writeEcc_ceClr)
  case pilot =>
    intro s p sp v hcalm hup hsp hr
    refine runCalm (f := (doPilotWrite · p sp v)) ?_ hcalm
    have hlmp : inLmpOff (sp * 0x100000 + 0x204) = inLmpOff 0x204 := by
      simp only [inLmpOff, decide_eq_decide]
      omega
    rw [doPilotWrite, if_pos hsp, writeReg_dies _ hup hr hlmp, writeUp_spn _ _ _ hsp (by decide)]
    rfl
  case port =>
    intro s p j v hcalm hup hj hp hr
    refine runCalm (f := (doPortEnableWrite · p j v)) ?_ hcalm
    have hoff : 0x1600100 + iodBase (j / 4) + 16 * (j % 4) = 0x1600000 + j / 4 * 0x80000 + (0x100 + 16 * (j % 4)) := by
      unfold iodBase
      omega
    have hlmp : inLmpOff (0x1600000 + j / 4 * 0x80000 + (0x100 + 16 * (j % 4))) = inLmpOff 0x1600100 := by
      simp only [inLmpOff, decide_eq_decide]
      omega
    rw [doPortEnableWrite, if_pos hj, hoff, writeReg_dies _ hup hr hlmp, writeUp_lnk _ _ _ (by omega) (by omega),
      writeLnk_portCtl _ _ _ _ (by omega) hp, Nat.div_add_mod]
  case restart =>
    intro s p hrec hr
    refine runPut (f := (doRestart · p)) ?_
    rw [doRestart, writeReg_mgd _ _ rfl, if_pos hr, writeUp_restart, if_pos hrec]
  case noRestart =>
    intro s p hcalm hrec
    refine runSame (f := (doRestart · p)) hcalm ?_
    simp only [doRestart, writeReg_mgd p 0x80000000 (off := 0x1800020) rfl, writeUp_restart, hrec, Bool.false_eq_true, if_false, ite_self]
  case data =>
    intro s p v hcalm hrec hr
    refine runCalm (f := (doRecoveryDataWrite · p v)) ?_ hcalm
    rw [doRecoveryDataWrite, writeReg_mgd _ _ rfl, if_pos hr, writeUp_recoveryData, Dev.programSlotB, if_pos hrec]
    rfl
  case noData =>
    intro s p v hcalm hrec
    refine runSame (f := (doRecoveryDataWrite · p v)) hcalm ?_
    simp only [doRecoveryDataWrite, writeReg_mgd p v.toNat (off := 0x1800080) rfl, writeUp_recoveryData, Dev.programSlotB, hrec,
      Bool.false_eq_true, if_false, ite_self]
  case unreached => exact fun s p off v hcalm hr => runSame (f := (doRegisterWrite · p off v)) hcalm (writeReg_unreached _ hr)

end Sys2Proof.Machine
end

section
/-! PROOFS (O37). The host's side: the host path, MSI-X, HOST_PERST_N, and the windows. -/

namespace Sys2Proof.Machine

/-! ### Host-bound traffic (R601) -/

/-- A bridge whose host path is up issues what it held, in its order. -/
theorem hostBound_writes (ws : List (Nat × List Byte)) {d : Dev} (hup : d.links.hostUp = true) (hb : d.links.bridge = true) :
    (ws.map (fun w => MsgBody.hostWrite w.1 w.2)).foldl Dev.hostBound d =
      d.modMem (fun m => { m with host := ws.foldl (fun m w => putBytes m w.1 w.2) m.host }) := by
  induction ws generalizing d with
  | nil => rfl
  | cons w ws ih =>
    have hone : d.hostBound (.hostWrite w.1 w.2) = d.modMem (fun m => { m with host := putBytes m.host w.1 w.2 }) := by
      simp [Dev.hostBound, hup, hb, Dev.toHost]
    rw [List.map_cons, List.foldl_cons, hone]
    exact ih hup hb

/-- R600: the first message of a tick for a vector that is not masked. -/
theorem raiseMsix_first {d : Dev} {v : Nat} (hmask : tget true d.links.msixMask v = false) (hsent : v ∉ d.links.msixSent) :
    d.raiseMsix v = d.modLinks (fun l => { l with msixSent := l.msixSent ++ [v] }) := by
  simp [Dev.raiseMsix, Dev.modLinks, hmask, hsent]

/-- R601: the bit of the cause falls with the path. -/
theorem doHostPathDown_eq (d : Dev) (cause : HostDownCause) :
    doHostPathDown d cause = { d with links := { d.links with
      hostUp := false, l0 := d.links.l0 && decide (cause ≠ .linkLeft), bme := d.links.bme && decide (cause ≠ .busMasterOff) } } := by
  cases cause <;> simp [doHostPathDown, Dev.modLinks]

/-- R601: the bridge's registers when the host path has come up. -/
theorem doHostPathUp_open {d : Dev} (speed width : Nat) (hstage : d.lamp.stage = 8)
    (hperst : d.links.bridge = true → d.lamp.perst.holds = false) (hroute : d.bridgeRoute = true) :
    doHostPathUp d speed width = Dev.hostResend { d with links := { d.links with
      l0 := d.links.bridge, bme := d.links.bridge, speed := if d.links.bridge = true then speed else 0
      width := if d.links.bridge = true then width else 0, hostUp := true } } := by
  unfold doHostPathUp
  rw [if_neg]
  · rfl
  · rintro (h | ⟨hb, hp⟩ | h)
    · exact h hstage
    · simp [hperst hb] at hp
    · simp [hroute] at h

/-! ### Windows (R595, R597) -/

theorem doGroupWindow_open {d : Dev} {slot o : Nat} (n : Nat) (w : Option (List Byte)) (hb : d.links.bridge = true)
    (hup : d.lamp.cdUp = true) (hslot : slot < 8) (ho : o < 0x200000000) :
    doGroupWindow d slot o n w =
      if slot = 0 then d.slot0Access o n w
      else if d.pathOpen slot then d.forwardAccess slot o n w
      else
        let d := d.modLinks (fun l => { l with hostDiscard := (l.hostDiscard + 1) % 2 ^ 64 })
        if w.isNone then d.setRead (zeros n) false else d := by
  unfold doGroupWindow
  rw [if_neg (by simp [hb, hup]; omega)]

theorem doQueueWindow_read {d : Dev} {q : Nat} (off n : Nat) (hup : d.lamp.cdUp = true) (hq : q < 256) :
    doQueueWindow d q off n none = d.windowRead q off n := by
  unfold doQueueWindow
  rw [if_neg (by simp [hup]; omega)]

theorem doQueueWindow_write {d : Dev} {q : Nat} (off n : Nat) (data : List Byte) (hup : d.lamp.cdUp = true) (hq : q < 256) :
    doQueueWindow d q off n (some data) = d.windowWrite q off data := by
  unfold doQueueWindow
  rw [if_neg (by simp [hup]; omega)]

/-- Settles O37: each event by its definition, and the writes that the bridge held by `hostBound_writes`. -/
theorem hostPathComplete : Obligations.HostPathComplete := by
  unfold Obligations.HostPathComplete
  refine ⟨?up, ?down, ?coalesced, ?unmask, ?perstHigh, ?perstLow, ?windowRead, ?windowWrite, ?slot0, ?member⟩
  case up =>
    intro s speed width hstage hperst hroute
    have hopen := doHostPathUp_open speed width hstage hperst hroute
    refine ⟨runPut (f := (doHostPathUp · speed width)) hopen, fun ws hcalm hb hheld => ?_⟩
    refine runCalm (f := (doHostPathUp · speed width)) (hopen.trans ?_) hcalm
    unfold Dev.hostResend
    dsimp only
    rw [hheld]
    exact hostBound_writes ws rfl hb
  case down =>
    exact fun s cause hcalm => runCalm (f := (doHostPathDown · cause)) (doHostPathDown_eq s.dev cause) hcalm
  case coalesced =>
    intro s v hcalm hagain hsent hup hmask
    refine runCalm (f := (doMsixCoalesced · v)) ?_ hcalm
    unfold doMsixCoalesced
    rw [if_pos (by simp [hagain, hsent, hup])]
    exact raiseMsix_first hmask hsent
  case unmask =>
    intro s v
    refine runPut (f := (doMsixUnmask · v)) ?_
    simp only [doMsixUnmask, List.contains_iff_mem]
    rfl
  case perstHigh =>
    intro s ns hcalm hon hns
    refine runCalm (f := (doHostPerstN · true ns)) ?_ hcalm
    unfold doHostPerstN
    rw [if_neg (by simp [hon]; omega), if_pos rfl]
    rfl
  case perstLow =>
    intro s ns hon hns hstage
    refine runPut (f := (doHostPerstN · false ns)) ?_
    unfold doHostPerstN
    rw [if_neg (by simp [hon]; omega), if_neg (by decide), if_neg (by simp [hstage])]
  case windowRead =>
    intro s q off n hup hq hue
    refine runPut (f := (doQueueWindow · q off n none)) ?_
    simp only [doQueueWindow_read off n hup hq, Dev.windowRead, hue] <;> rfl
  case windowWrite =>
    intro s q off n data hup hq hue
    refine runPut (f := (doQueueWindow · q off n (some data))) ?_
    simp only [doQueueWindow_write off n data hup hq, Dev.windowWrite, hue] <;> rfl
  case slot0 =>
    intro s o n hb hup ho
    have haccess : ∀ w, doGroupWindow s.dev 0 o n w = s.dev.bar0Access o n w := by
      intro w
      rw [doGroupWindow_open n w hb hup (by decide) (by omega), if_pos rfl, Dev.slot0Access, if_pos ho]
    exact ⟨runPut (f := (doGroupWindow · 0 o n none)) (haccess none),
      fun b => runPut (f := (doGroupWindow · 0 o n (some b))) (haccess (some b))⟩
  case member =>
    intro s slot o n w hb hup h0 h8 ho
    refine runPut (f := (doGroupWindow · slot o n w)) ?_
    rw [doGroupWindow_open n w hb hup h8 ho, if_neg (by omega)]

end Sys2Proof.Machine
end

section
/-! PROOFS (O52). The side-band's messages. -/

namespace Sys2Proof.Machine

/-! ### Vendor messages (R608) -/

theorem onVendor_own (d : Dev) (f : Dev → Dev) : d.onVendor 0x28D1A f = f d := rfl

theorem onVendor_other (d : Dev) {v : Nat} (f : Dev → Dev) (h : v ≠ 0x28D1A) : d.onVendor v f = d := if_neg h

/-- R608: a vendor message under another enterprise number leaves the block. -/
theorem runVendor_other {s : State} {v : Nat} {f : Dev → Dev} (hs : s.dev.errDue = []) (h : v ≠ 0x28D1A) :
    s.runDev (fun d => d.onVendor v f) = .next s :=
  runSame hs (onVendor_other _ _ h)

/-- R608: a side-band packet that the Lamplighter takes is appended to queue 1, or counts as an overrun. -/
theorem doSbCommandPacket_taken {d : Dev} {src : SbEnd} (b : List Byte) (hon : d.lamp.on = true) (hrec : d.lamp.recovery = false)
    (hq : (d.queue 1).state ≠ .disabled) (hport : src.port < 2) :
    doSbCommandPacket d src b =
      if (d.queue 1).sqRoom (granulesOf (byteAt b 2)) then
        (d.appendGranules (granulesOf (byteAt b 2)) (fitBytes (64 * granulesOf (byteAt b 2)) b)).modLamp (fun l =>
          { l with cameBy := tins l.cameBy (leAt b 8 8) src })
      else d.modQueue 1 (fun k => { k with dbIgnored := min max32 (k.dbIgnored + 1), overrun := true }) := by
  unfold doSbCommandPacket
  rw [if_neg (by simp [hon, hrec, hq]; omega)]

/-- R611: a continuation that its command takes, and one that ends the command. -/
theorem doSbContinuation_awaited {d : Dev} {port len : Nat} {k : Continuation} (off : Nat) (data : List Byte)
    (hon : d.lamp.on = true) (hrec : d.lamp.recovery = false)
    (hk : d.awaiting.find? (fun x => x.2.port == port) = some (len, k)) :
    doSbContinuation d port off data =
      if off = k.data.length ∧ 1 ≤ data.length ∧ data.length ≤ 1024 ∧ off + data.length ≤ len then
        (d.setCont { k with data := k.data ++ data, tick := d.clk.tick }).contDone
          { k with data := k.data ++ data, tick := d.clk.tick }
      else d.contFails k := by
  unfold doSbContinuation
  rw [if_neg (by simp [hon, hrec]), hk]

/-- R611: a command whose continuation fails ends with BAD_PARAM. -/
theorem contFails_entry {d : Dev} {k : Continuation} {e : Entry} (h : d.entry k.cmd = some e) :
    d.contFails k = (d.dropCont k.cmd).failEntry k.cmd e ⟨stBadParam, none, none⟩ e.runCycles := by
  simp [Dev.contFails, h]

theorem doSbRegisterRead_served {d : Dev} {src : SbEnd} (tag : Nat) {addr : Nat} (words : Nat)
    (hs : d.sbServes src.port addr = true) :
    doSbRegisterRead d src tag addr words =
      if words = 0 ∨ 16 < words ∨ addr % 4 ≠ 0 then d.sbSend src (0x05 :: (leBytes 1 tag ++ [1]))
      else
        let r := (List.range words).foldl (fun (x : List Byte × Dev) i =>
          let y := x.2.sbReadWord src.port (addr + 4 * i)
          (x.1 ++ y.1, y.2)) (([] : List Byte), d)
        r.2.sbSend src (0x05 :: (leBytes 1 tag ++ r.1)) := by
  unfold doSbRegisterRead
  rw [if_neg (by simp [hs])]

theorem doSbRegisterWrite_aligned {d : Dev} {src : SbEnd} (tag : Nat) {addr : Nat} (v : Word)
    (hs : d.sbServes src.port addr = true) (h4 : addr % 4 = 0) :
    doSbRegisterWrite d src tag addr v =
      if inRegs addr then (d.writeReg (sbPath src.port) (addr - regBase) v.toNat).sbSend src (0x05 :: (leBytes 1 tag ++ [0]))
      else
        (d.sbMemWrite addr (leBytes 4 v.toNat)).2.sbSend src
          (0x05 :: (leBytes 1 tag ++ [if (d.sbMemWrite addr (leBytes 4 v.toNat)).1 then 0 else 1])) := by
  unfold doSbRegisterWrite
  rw [if_neg (by simp [hs]), if_neg (by simp [h4])]

/-- R634: an alert goes when a port has an event and its last message is 10,000 ticks past. -/
theorem doAlertSend_due {d : Dev} {port : Nat} {r : ErrRecord} (hon : d.lamp.on = true) (hport : port < 2)
    (hr : d.lamp.errq.getLast? = some r) (hev : 0 < (tget SidePort.reset d.lamp.ports port).events)
    (hdue : ∀ t, (tget SidePort.reset d.lamp.ports port).lastSent = some t → t + 10000 ≤ d.clk.tick) :
    doAlertSend d port = d.sendAlert port r.bytes := by
  unfold doAlertSend
  cases hl : (tget SidePort.reset d.lamp.ports port).lastSent with
  | none => simp [hl, hr, hon, hport, hev]
  | some t => simp [hl, hr, hon, hport, hev, hdue t hl]

/-- Settles O52: each message by the equation of its effect where the Lamplighter serves it. -/
theorem sidebandComplete : Obligations.SidebandComplete := by
  unfold Obligations.SidebandComplete
  refine ⟨?packet, ?read, ?badRead, ?write, ?continuation, ?timeout, ?vendor, ?alert, ?other⟩
  case packet =>
    intro s src b hon hrec hq hport
    have htaken := doSbCommandPacket_taken b hon hrec hq hport
    refine ⟨fun hroom => ?_, fun hroom => ?_⟩
    · exact runPut (f := fun d => d.onVendor 0x28D1A (doSbCommandPacket · src b)) (by rw [onVendor_own, htaken, if_pos hroom])
    · exact runPut (f := fun d => d.onVendor 0x28D1A (doSbCommandPacket · src b))
        (by rw [onVendor_own, htaken, if_neg (by simp [hroom])])
  case read =>
    intro s src tag addr hserves h4
    refine runPut (f := fun d => d.onVendor 0x28D1A (doSbRegisterRead · src tag addr 1)) ?_
    rw [onVendor_own, doSbRegisterRead_served tag 1 hserves, if_neg (by omega)]
    rfl
  case badRead =>
    intro s src tag addr words hcalm hserves hbad
    refine runCalm (f := fun d => d.onVendor 0x28D1A (doSbRegisterRead · src tag addr words)) ?_ hcalm
    rw [onVendor_own, doSbRegisterRead_served tag words hserves, if_pos hbad]
  case write =>
    intro s src tag addr v hserves h4
    have haligned := doSbRegisterWrite_aligned tag v hserves h4
    refine ⟨fun hregs => ?_, fun hregs => ?_⟩
    · exact runPut (f := fun d => d.onVendor 0x28D1A (doSbRegisterWrite · src tag addr v))
        (by rw [onVendor_own, haligned, if_pos hregs])
    · exact runPut (f := fun d => d.onVendor 0x28D1A (doSbRegisterWrite · src tag addr v))
        (by rw [onVendor_own, haligned, if_neg (by simp [hregs])])
  case continuation =>
    intro s src off data k len hon hrec hk
    have hawaited := doSbContinuation_awaited off data hon hrec hk
    refine ⟨fun hfits => ?_, fun e he hbreaks => ?_⟩
    · exact runPut (f := fun d => d.onVendor 0x28D1A (doSbContinuation · src.port off data))
        (by rw [onVendor_own, hawaited, if_pos hfits])
    · exact runPut (f := fun d => d.onVendor 0x28D1A (doSbContinuation · src.port off data))
        (by rw [onVendor_own, hawaited, if_neg hbreaks, contFails_entry he])
  case timeout =>
    intro s len k e hk he hlate
    refine runPut (f := doContinuationTimeout) ?_
    simp [doContinuationTimeout, hk, hlate, contFails_entry he]
  case vendor =>
    intro s src hcalm hon hrec hport
    refine runCalm (f := (doGetVendor · src)) ?_ hcalm
    simp [doGetVendor, hon, hrec, hport, vendorNumber]
  case alert =>
    intro s port r hcalm hon hport hr hev hdue
    exact runCalm (f := (doAlertSend · port)) (doAlertSend_due hon hport hr hev hdue) hcalm
  case other =>
    intro s src v tag addr words off w data hcalm hv
    exact ⟨runVendor_other hcalm hv, runVendor_other hcalm hv, runVendor_other hcalm hv, runVendor_other hcalm hv⟩

end Sys2Proof.Machine
end

section
/-! PROOFS (O54). Standby power, the reset inputs, the rails, the power controller, the sensors and telemetry. -/

namespace Sys2Proof.Machine

/-! ### Reset inputs (R632) -/

theorem setInput_input (l : Lamp) (i : Nat) (r : ResetInput) : (l.setInput i r).input i = r := by
  unfold Lamp.setInput Lamp.input
  split <;> rfl

theorem setInput_setInput (l : Lamp) (i : Nat) (r r' : ResetInput) : (l.setInput i r).setInput i r' = l.setInput i r' := by
  unfold Lamp.setInput
  split <;> rfl

theorem modInput_modInput (d : Dev) (i : Nat) (f g : ResetInput → ResetInput) :
    (d.modInput i f).modInput i g = d.modInput i (fun r => g (f r)) := by
  simp only [Dev.modInput, Dev.modLamp, setInput_input, setInput_setInput]

/-- R632: a filtered pulse of SB_RST_N that is not ignored resets the device; one of more than 100 ms is latched STUCK. -/
theorem inputPulse_resets {d : Dev} {ns : Nat} (hns : filterNs ≤ ns) (hon : d.lamp.on = true)
    (hig : d.lamp.rst.ignores d.clk.tick = false) :
    d.inputPulse 0 ns =
      let d := (d.modInput 0 (fun r => r.pulse d.clk.tick)).deviceReset true
      let d := if stuckNs < ns then d.latchStuck 0 else d
      if d.chatters 0 then d.latchChatter 0 else d := by
  have hinput : (d.lamp.input 0).ignores d.clk.tick = false := hig
  unfold Dev.inputPulse
  rw [if_neg (by simp [hon]; omega), if_neg (by simp [hinput])]
  rfl

theorem inputPulse_short {d : Dev} (i : Nat) {ns : Nat} (h : ns < filterNs) : d.inputPulse i ns = d := by
  simp [Dev.inputPulse, h]

theorem beforeStage1_done {d : Dev} (h : d.lamp.stage ≠ 0) : d.beforeStage1 = false := by
  simp [Dev.beforeStage1, h]

/-- R632: a pulse that is not the end of a level latched STUCK. -/
theorem doSbRstN_pulse {d : Dev} {ns : Nat} (hstage : d.lamp.stage ≠ 0) (h : ns ≤ stuckNs ∨ d.lamp.rst.stuckLow = false) :
    doSbRstN d ns = d.inputPulse 0 ns := by
  unfold doSbRstN
  rw [if_neg (by simp [beforeStage1_done hstage]), if_neg]
  rintro ⟨hstuck, hlong⟩
  rcases h with h | h
  · omega
  · simp [h] at hstuck

/-- R632: a pulse shorter than the filter does nothing. -/
theorem doSbRstN_short {d : Dev} {ns : Nat} (h : ns < filterNs) : doSbRstN d ns = d := by
  have hlong : ¬stuckNs < ns := by simp only [stuckNs, filterNs] at h ⊢; omega
  simp [doSbRstN, hlong, inputPulse_short 0 h]

/-- R632: a low level that its input has not been latched STUCK for. -/
theorem inputSticks_low {d : Dev} {i : Nat} (hstuck : (d.lamp.input i).stuckLow = false)
    (hig : (d.lamp.input i).ignores d.clk.tick = false) :
    d.inputSticks i = (d.modInput i (fun r => { r with level := false, stuckLow := true, stuck := true })).takeError (inputError i) := by
  unfold Dev.inputSticks
  rw [if_neg (by simp [hstuck, hig]), Dev.latchStuck, modInput_modInput]

/-! ### Power-goods (R645) -/

/-- R645: a rail that is enabled and good is lost. -/
theorem doPowerGoodLost_enabled {d : Dev} {b : BoardFacts} (hb : d.lamp.board = some b) :
    (d.lamp.enIo = true → b.pgIo = true → doPowerGoodLost d 0 = d.takeError (powerError 0x11 0 0)) ∧
    (d.lamp.enCore = true → b.pgCore = true → doPowerGoodLost d 1 = d.takeError (powerError 0x11 1 0)) ∧
    (d.lamp.enHbm = true → b.pgHbm = true → doPowerGoodLost d 2 = d.takeError (powerError 0x11 2 0)) := by
  refine ⟨fun hen hpg => ?_, fun hen hpg => ?_, fun hen hpg => ?_⟩ <;> simp [doPowerGoodLost, hb, hen, hpg]

/-! ### The power controller (R647, R649) -/

/-- R647: above the limit the power controller goes one step down. -/
theorem eval_above (p : Power) {avg : Nat} (hbrake : p.brake = false) (h : p.cap < avg) :
    p.eval avg = Power.lower { p with avg := avg } := by
  simp [Power.eval, hbrake, h]

/-- R647: below 97 % of the limit it goes one step up. -/
theorem eval_below (p : Power) {avg : Nat} (hbrake : p.brake = false) (htherm : p.therm = false)
    (h : 100 * avg < 97 * p.cap) : p.eval avg = Power.lift { p with avg := avg } := by
  have hcap : ¬p.cap < avg := by omega
  simp [Power.eval, hbrake, htherm, hcap, h]

/-- The block with a power controller whose supplies follow its target (R642). -/
def Dev.withTrimmed (d : Dev) (p : Power) : Dev := { d with power := p.trimmed }

theorem doPowerEval_due {d : Dev} (avg : Nat) (hon : d.lamp.on = true) (hup : d.lamp.cdUp = true)
    (hdue : dueAgain d.power.evalAt 100 d.clk.tick = true) :
    doPowerEval d avg = d.withTrimmed (Power.eval { d.power with evalAt := some d.clk.tick } avg) := by
  unfold doPowerEval
  rw [if_pos ⟨hon, hdue⟩]
  simp only [Dev.modPower, hup, if_true]
  rfl

/-- The power controller with the tick and the average of an evaluation. -/
def Power.evaluated (p : Power) (now avg : Nat) : Power := { p with evalAt := some now, avg := avg }

theorem doPowerEval_above {d : Dev} {avg : Nat} (hon : d.lamp.on = true) (hup : d.lamp.cdUp = true)
    (hdue : dueAgain d.power.evalAt 100 d.clk.tick = true) (hbrake : d.power.brake = false) (h : d.power.cap < avg) :
    doPowerEval d avg = d.withTrimmed (d.power.evaluated d.clk.tick avg).lower :=
  (doPowerEval_due avg hon hup hdue).trans
    (congrArg d.withTrimmed (eval_above { d.power with evalAt := some d.clk.tick } hbrake h))

theorem doPowerEval_below {d : Dev} {avg : Nat} (hon : d.lamp.on = true) (hup : d.lamp.cdUp = true)
    (hdue : dueAgain d.power.evalAt 100 d.clk.tick = true) (hbrake : d.power.brake = false) (htherm : d.power.therm = false)
    (h : 100 * avg < 97 * d.power.cap) : doPowerEval d avg = d.withTrimmed (d.power.evaluated d.clk.tick avg).lift :=
  (doPowerEval_due avg hon hup hdue).trans
    (congrArg d.withTrimmed (eval_below { d.power with evalAt := some d.clk.tick } hbrake htherm h))

/-! ### Sensors and telemetry (R635, R649, R651) -/

theorem foldl_hbmStacks {α : Type} (g : Tbl HbmStack → α → Tbl HbmStack) (l : List α) (d : Dev) :
    l.foldl (fun d a => d.modMem (fun m => { m with hbmStacks := g m.hbmStacks a })) d =
      d.modMem (fun m => { m with hbmStacks := l.foldl g m.hbmStacks }) := by
  induction l generalizing d with
  | nil => rfl
  | cons a l ih => rw [List.foldl_cons, ih]; rfl

/-- The readings of the stacks stand in their status registers alone. -/
theorem readStacks_eq (d : Dev) (x : Sensors) : ∃ t, d.readStacks x = d.modMem (fun m => { m with hbmStacks := t }) := by
  unfold Dev.readStacks
  split
  · exact ⟨_, foldl_hbmStacks (fun t (p : Int × Nat) => tmod HbmStack.reset t p.2 (fun h => { h with tempC := (p.1 / 8).toNat % 256 })) _ d⟩
  · exact ⟨d.mem.hbmStacks, rfl⟩

theorem readStacks_errDue (d : Dev) (x : Sensors) : (d.readStacks x).errDue = d.errDue := by
  obtain ⟨t, ht⟩ := readStacks_eq d x
  rw [ht]; rfl

/-- R651: a comparison in which no sensor is at its throttle point. -/
theorem doThermalCompare_cool {d : Dev} {x : Sensors} (hon : d.lamp.on = true)
    (hdue : dueAgain d.power.comparedAt 1 d.clk.tick = true) (hcool : (sensorList x).any atThrottle = false) :
    doThermalCompare d x = (d.readStacks x).modPower (fun p => { p with
      comparedAt := some d.clk.tick, hot := hotCounts d.power.hot (sensorList x), cool := (sensorList x).all isCool
      therm := p.therm && !(d.power.therm && (sensorList x).all belowThrottle) }) := by
  unfold doThermalCompare
  rw [if_neg (by simp [hon, hdue])]
  simp only [hcool, Bool.and_false, Bool.or_false]

/-- R649: the first sensor at its throttle point takes an error where the device did not throttle. -/
theorem doThermalCompare_throttles {d : Dev} {x : Sensors} {y : Nat × Nat × Int} (hon : d.lamp.on = true)
    (hdue : dueAgain d.power.comparedAt 1 d.clk.tick = true) (htherm : d.power.therm = false)
    (hy : (sensorList x).find? atThrottle = some y) :
    doThermalCompare d x = ((d.readStacks x).modPower (fun p => { p with
      comparedAt := some d.clk.tick, hot := hotCounts d.power.hot (sensorList x), cool := (sensorList x).all isCool
      therm := true })).takeError (powerError 0x12 y.1 y.2.1) := by
  have hany : (sensorList x).any atThrottle = true :=
    List.any_eq_true.2 ⟨y, List.mem_of_find?_eq_some hy, List.find?_some hy⟩
  unfold doThermalCompare
  rw [if_neg (by simp [hon, hdue])]
  simp only [hany, htherm, hy, Bool.not_false, Bool.and_true, Bool.or_true, Bool.false_and]

/-- R635: a sample; the energy since the last one is a free value. -/
theorem doTelemetrySample_due {d : Dev} {x : Sensors} (mw : Nat) (hon : d.lamp.on = true)
    (hdue : dueAgain d.power.sampledAt 100 d.clk.tick = true) :
    ∃ t u, doTelemetrySample d x mw = { d with
      mem := { d.mem with hbmStacks := t }, free := d.free + 1, lamp := { d.lamp with sample := d.sampleBytes x mw }
      power := { d.power with sampledAt := some d.clk.tick, energy := u } } := by
  obtain ⟨t, ht⟩ := readStacks_eq d x
  refine ⟨t, (d.power.energy + Config.energyStep d.free) % 2 ^ 64, ?_⟩
  rw [doTelemetrySample, if_pos ⟨hon, hdue⟩, ht]
  rfl

/-- Settles O54: each command by the equation of its effect under the conditions of its clause. -/
theorem powerAndResetComplete : Obligations.PowerAndResetComplete := by
  unfold Obligations.PowerAndResetComplete
  refine ⟨?rise, ?loss, ?pulse, ?longPulse, ?shortPulse, ?inputs, ?railLate, ?railLost, ?eval, ?brake, ?compare, ?trip,
    ?throttle, ?sample⟩
  case rise => exact fun s b hs => runPut (f := (doStandbyPowerUp · b)) (doStandbyPowerUp_rises b hs)
  case loss => exact fun s hs => runCalm (f := doStandbyPowerLoss) (by rw [doStandbyPowerLoss, if_pos hs]) rfl
  case pulse =>
    intro s ns hon hstage hns hshort hig
    refine runPut (f := (doSbRstN · ns)) ?_
    rw [doSbRstN_pulse hstage (.inl hshort), inputPulse_resets hns hon hig]
    simp only [show ¬stuckNs < ns from not_lt.2 hshort, if_false]
  case longPulse =>
    intro s ns hon hstage hns hstuck hig
    refine runPut (f := (doSbRstN · ns)) ?_
    have hfilter : filterNs ≤ ns := by unfold filterNs; omega
    rw [doSbRstN_pulse hstage (.inr hstuck), inputPulse_resets hfilter hon hig]
    simp only [show stuckNs < ns from hns, if_true]
  case shortPulse => exact fun s ns hcalm hns => runSame (f := (doSbRstN · ns)) hcalm (doSbRstN_short hns)
  case inputs =>
    intro s i hon hi
    refine ⟨fun hlow hstuck hig => ?_, fun hhigh hstage => ?_, fun hchat => ?_⟩
    · refine runPut (f := (doInputStuck · i)) ?_
      rw [doInputStuck, if_pos ⟨hon, hi⟩, if_pos (.inr (by simp [hlow])), inputSticks_low hstuck hig]
    · refine runPut (f := (doInputStuck · i)) ?_
      rw [doInputStuck, if_pos ⟨hon, hi⟩, if_neg (by simp [beforeStage1_done hstage, hhigh])]
      rfl
    · exact runPut (f := (doInputChatter · i)) (by rw [doInputChatter, if_pos ⟨hon, hi, hchat⟩]; rfl)
  case railLate =>
    intro s r hr
    exact runPut (f := doPowerGoodTimeout) (by rw [doPowerGoodTimeout, hr]; rfl)
  case railLost =>
    intro s b hb
    obtain ⟨hio, hcore, hhbm⟩ := doPowerGoodLost_enabled hb
    exact ⟨fun hen hpg => runPut (f := (doPowerGoodLost · 0)) (hio hen hpg),
      fun hen hpg => runPut (f := (doPowerGoodLost · 1)) (hcore hen hpg),
      fun hen hpg => runPut (f := (doPowerGoodLost · 2)) (hhbm hen hpg)⟩
  case eval =>
    intro s avg hcalm hon hup hbrake hdue
    refine ⟨fun habove htarget => ?_, fun habove htarget => ?_, fun hbelow htherm hmem htarget => ?_⟩
    · exact runCalm (f := (doPowerEval · avg)) ((doPowerEval_above hon hup hdue hbrake habove).trans
        (congrArg s.dev.withTrimmed (if_pos htarget))) hcalm
    · exact runCalm (f := (doPowerEval · avg)) ((doPowerEval_above hon hup hdue hbrake habove).trans
        (congrArg s.dev.withTrimmed (if_neg (not_lt.2 htarget)))) hcalm
    · have hfull : ¬s.dev.power.memLevel < 16 := by omega
      exact runCalm (f := (doPowerEval · avg)) ((doPowerEval_below hon hup hdue hbrake htherm hbelow).trans
        (congrArg s.dev.withTrimmed ((if_neg hfull).trans (if_pos htarget)))) hcalm
  case brake =>
    intro s hcalm hon hup ns hns
    refine ⟨runCalm (f := (doPwrBrake · true ns)) ?_ hcalm, runCalm (f := (doPwrBrake · false ns)) ?_ hcalm⟩
    · rw [doPwrBrake, if_pos ⟨hon, hns⟩]
      simp only [Dev.modPower, hup, if_true]
    · rw [doPwrBrake, if_pos ⟨hon, hns⟩]
      rfl
  case compare =>
    intro s x hcalm hon hcool hdue
    exact runCalm (f := (doThermalCompare · x)) (doThermalCompare_cool hon hdue hcool) ((readStacks_errDue s.dev x).trans hcalm)
  case trip =>
    intro s source i x hon hsource hhot
    refine runPut (f := (doThermalTrip · source i x)) ?_
    rw [doThermalTrip, if_pos ⟨hon, hhot⟩]
    dsimp only
    rw [if_neg hsource]
    rfl
  case throttle =>
    intro s x y hon htherm hy hdue
    exact runPut (f := (doThermalCompare · x)) (doThermalCompare_throttles hon hdue htherm hy)
  case sample =>
    intro s x mw hcalm hon hdue
    obtain ⟨t, u, hrun⟩ := doTelemetrySample_due (x := x) mw hon hdue
    exact ⟨_, runCalm (f := (doTelemetrySample · x mw)) hrun hcalm, rfl, rfl, rfl, rfl⟩

end Sys2Proof.Machine
end

section
/-! PROOFS (O10). The products of the matrix array: a command that issues, what its run finds, and how it ends. -/

namespace Sys2Proof.Machine

/-! ### Array commands that issue (R119 to R122) -/

@[simp] theorem joinChain_errDue (d : Dev) (c : CmdRef) (members : List Entry) : (d.joinChain c members).errDue = d.errDue := by
  unfold Dev.joinChain
  split <;> rfl

/-- An array command that may issue runs on the block with the chain that it joins. -/
theorem onArray_ready {s : State} {c : CmdRef} {e e' : Entry} {sp : Nat} {d : Dev} {m : Run Counts}
    {f : Entry → Nat → Option (Run Counts)} (h : ReadyArray s c e sp d e') (hf : f e sp = some m) :
    s.dev.onArray c f = d.run c e' m := by
  obtain ⟨⟨hentry, hphase, hroot, -⟩, rfl, ⟨members, hissue, rfl⟩, hroom, hjoined⟩ := h
  rw [Dev.onArray, onPacket_ready _ hentry hphase hroot]
  simp only [hf, hissue, hroom, hjoined, Bool.false_eq_true, if_false]

/-- R261: an array command whose run reaches its end holds what it made for its commit point. -/
theorem runArray_ok {s : State} {c : CmdRef} {e e' : Entry} {sp : Nat} {d : Dev} {m : Run Counts} {k : Counts} {x : Ctx}
    {f : Entry → Nat → Option (Run Counts)} (h : ReadyArray s c e sp d e') (hf : f e sp = some m)
    (hm : m (.start d c e') = .ok k x) :
    s.runDev (fun b => b.onArray c f) = .next ((s.withDev d).ran c e' k x) := by
  have hrun : s.dev.onArray c f = d.ranOk c e' k x := (onArray_ready h hf).trans (run_ok hm)
  have hcalm : d.errDue = [] := by
    obtain ⟨members, -, rfl⟩ := h.issues
    exact (joinChain_errDue _ _ _).trans h.calm
  rw [runDev_calm (by rw [hrun, ranOk_errDue, hcalm]), hrun]
  rfl

/-! ### What a product finds (R263): the accumulator and the counts are no bytes of memory -/

@[simp] theorem found_seenBy (j : ArrJob) (d : Dev) (e : Entry) (sp : Nat) (named : List Nat) :
    j.found (d.seenBy e) sp named = j.found d sp named :=
  seenBy_same (j.found · sp named) (fun _ _ => rfl) d e

@[simp] theorem images_seenBy (j : ArrJob) (d : Dev) (e : Entry) (sp : Nat) (named : List Nat) (half : Nat → Nat → Nat)
    (rows : List (List Nat)) : j.images (d.seenBy e) sp named half rows = j.images d sp named half rows :=
  seenBy_same (j.images · sp named half rows) (fun _ _ => rfl) d e

@[simp] theorem counts_seenBy (j : ArrJob) (d : Dev) (e : Entry) (sp : Nat) (named : List Nat) (long : Bool) :
    j.counts (d.seenBy e) sp named long = j.counts d sp named long :=
  seenBy_same (j.counts · sp named long) (fun _ _ => rfl) d e

theorem ends_seenBy (j : ArrJob) (d : Dev) (e : Entry) (sp : Nat) (named : List Nat) (half : Nat → Nat → Nat)
    (a b : List (List FVal)) (y : Ctx) : j.ends (d.seenBy e) sp named half a b y = j.ends d sp named half a b y := by
  simp only [ArrJob.ends, found_seenBy, images_seenBy, counts_seenBy]

/-! ### The run of a product (R64, R109, R131) -/

/-- R131: the images of a product, then the posts of a TQ drain. -/
theorem holdImages_ok (j : ArrJob) (sp : Nat) (imgs : List (Nat × HalfTile)) (x : Ctx) :
    j.holdImages sp imgs x = .ok ⟨⟩ { x with eff := (j.imageEffects sp imgs).reverse ++ x.eff } := by
  unfold ArrJob.holdImages ArrJob.imageEffects
  by_cases hwork : j.drain = 1 ∨ j.drain = 3
  · have hpost : j.drain ≠ 2 := by omega
    simp [hwork, hpost]
  · by_cases hpost : j.drain = 2 <;> simp [hwork, hpost]

/-- A product whose result rows drain holds its images after them. -/
theorem jobRun_ok {j : ArrJob} {sp : Nat} {named : List Nat} {half : Nat → Nat → Nat} {a b : List (List FVal)} {y z : Ctx}
    (hdrain : j.drainRows y.entry (j.compute (j.found y.dev sp named) half a b) y = .ok ⟨⟩ z) :
    let imgs := j.images y.dev sp named half (j.compute (j.found y.dev sp named) half a b)
    j.run sp named half a b y =
      .ok ((j.drain = 0 || j.drain = 2) && longSum imgs) { z with eff := (j.imageEffects sp imgs).reverse ++ z.eff } := by
  intro imgs
  rw [ArrJob.run, run_getDev_bind, run_get_bind, run_bind_ok hdrain, run_bind_ok (holdImages_ok j sp imgs z), run_pure]

/-- A product ends as `ArrJob.ends` says where its operands read, in runs that leave the block alone, and its rows drain. -/
theorem runJob_ok {j : ArrJob} {sp : Nat} {ma mb : Run (List (List FVal))} {a b : List (List FVal)} {d : Dev} {c : CmdRef}
    {e : Entry} {x y z : Ctx} (hka : KeepsDev ma) (hkb : KeepsDev mb) (ha : ma (.start d c e) = .ok a x) (hb : mb x = .ok b y)
    (hdrain : j.drainRows e (j.compute (j.found d sp j.named) j.half a b) y = .ok ⟨⟩ z) :
    runJob j sp ma mb (.start d c e) = .ok (j.ends d sp j.named j.half a b z).1 (j.ends d sp j.named j.half a b z).2 := by
  obtain ⟨hxdev, -, hxentry⟩ := hka _ _ _ ha
  obtain ⟨hydev, -, hyentry⟩ := hkb _ _ _ hb
  have hdev : y.dev = d.seenBy e := hydev.trans hxdev
  obtain rfl : y.entry = e := hyentry.trans hxentry
  rw [← found_seenBy j d y.entry, ← hdev] at hdrain
  rw [runJob, run_getDev_bind, run_bind_ok ha, run_bind_ok hb, run_bind_ok (jobRun_ok hdrain), run_pure, hdev,
    ← ends_seenBy j d y.entry]
  rfl

/-- R109: an element of the moving operand is read, or lies in the padding. -/
theorem keepsDev_convRowAt (m : Desc) (g : ConvGeom) (r : Nat) : KeepsDev (convRowAt m g r) := by
  unfold convRowAt
  refine keepsDev_bind (keepsDev_mapM (fun i => keepsDev_mapM (fun t => ?_) _) _) (fun _ => keepsDev_pure _)
  dsimp only
  split
  · refine keepsDev_bind (keepsDev_readVa _ _ _) (fun _ => ?_)
    split
    · exact keepsDev_bind (keepsDev_readVa _ _ _) (fun _ => keepsDev_pure _)
    · exact keepsDev_bind (keepsDev_pure _) (fun _ => keepsDev_pure _)
  · exact keepsDev_pure _

/-- Settles O10: each command issues with its own product (`runArray_ok`), whose run ends by `runJob_ok`. -/
theorem arrayProductsComplete : Obligations.ArrayProductsComplete := by
  unfold Obligations.ArrayProductsComplete
  refine ⟨?matmul, ?stream, ?shallow, ?conv⟩
  case matmul | stream | shallow =>
    intro s c e sp d e' p a b x y z hready hp ha hb j hdrain
    exact runArray_ok hready (by rw [hp]; rfl) (runJob_ok (keepsDev_readMat _ _ _ _) (keepsDev_readMat _ _ _ _) ha hb hdrain)
  case conv =>
    intro s c e sp d e' u f g ctl ab fo dr seed wid o r a b x y z hready hp j ha hb hdrain
    exact runArray_ok hready (by rw [hp]; rfl)
      (runJob_ok (keepsDev_mapM (keepsDev_convRowAt u g) _) (keepsDev_readMat _ _ _ _) ha hb hdrain)

end Sys2Proof.Machine
end

section
/-! PROOFS (O11, O12). Products of quadrants, and the commands of the accumulator. -/

namespace Sys2Proof.Machine

/-! ### Quadrants (R110, R111, R134) -/

/-- R134: the product of a present quadrant is that of its own fields. -/
theorem quadJobs_job {mode mask seed : Nat} {blocks : List QuadBlock} {b : QuadBlock} {j : ArrJob}
    (h : (b, j) ∈ quadJobs mode mask seed blocks) : j = quadJob mode seed b := by
  simp only [quadJobs, List.mem_filterMap, Option.ite_none_right_eq_some, Option.some.injEq, Prod.mk.injEq] at h
  obtain ⟨p, -, -, rfl, rfl⟩ := h
  rfl

/-- R110: a quadrant keeps its images in its own tile and posts nothing. -/
theorem imageEffects_quad (mode seed : Nat) (b : QuadBlock) (sp : Nat) (imgs : List (Nat × HalfTile)) :
    (quadJob mode seed b).imageEffects sp imgs = imgs.map (fun p => .half sp p.1 p.2) := by
  simp [ArrJob.imageEffects, quadJob]

/-- R77, R110: the run of a quadrant looks at its sums and holds its images. -/
theorem quadRun_ok {mode seed : Nat} {b : QuadBlock} {j : ArrJob} {d : Dev} {e : Entry} {y : Ctx} (hj : j = quadJob mode seed b)
    (hdev : y.dev = d.seenBy e) (sp : Nat) (named : List Nat) (half : Nat → Nat → Nat) (av bv : List (List FVal)) :
    let rows := j.compute (j.found d sp named) half av bv
    let imgs := j.images d sp named half rows
    let vals := rows.flatten.map (decodeFp j.resFmt)
    j.run sp named half av bv y = .ok (longSum imgs) { y with
      eff := (imgs.map (fun p => Effect.half sp p.1 p.2)).reverse ++ y.eff
      inf := y.inf || vals.any FVal.isInf, nan := y.nan || vals.any FVal.isNan } := by
  subst hj
  intro rows imgs vals
  have hfound : (quadJob mode seed b).found y.dev sp named = (quadJob mode seed b).found d sp named := by rw [hdev, found_seenBy]
  have himages : (quadJob mode seed b).images y.dev sp named half rows = imgs := by rw [hdev, images_seenBy]
  have hdrain : (quadJob mode seed b).drainRows y.entry rows y =
      .ok ⟨⟩ { y with inf := y.inf || vals.any FVal.isInf, nan := y.nan || vals.any FVal.isNan } := rfl
  rw [jobRun_ok (by rw [hfound]; exact hdrain), hfound, himages, imageEffects_quad]
  rfl

/-- R110: a single quadrant runs where its operands read. -/
theorem runQuad_single {sp mode mask seed : Nat} {blocks : List QuadBlock} {b : QuadBlock} {j : ArrJob} {av bv : List (List FVal)}
    {w x y z : Ctx} {long : Bool} (hjobs : quadJobs mode mask seed blocks = [(b, j)])
    (ha : b.a.readMat accFeeder b.m b.k w = .ok av x) (hb : b.b.readMat accFeeder b.n b.k x = .ok bv y)
    (hrun : j.run sp (quadNamed j) (fun _ col => 2 * j.base + if mode = 2 then col / 256 else 0) av bv y = .ok long z) :
    runQuad sp mode mask seed blocks w =
      .ok ⟨if long then stLongSum else stOk, sat max32 (Config.waitCycles w.dev.free), ceilDiv b.k 128, 0⟩ z := by
  rw [runQuad, run_getDev_bind, hjobs]
  simp only [List.mapM_cons, List.mapM_nil, bind_assoc, pure_bind]
  rw [run_bind_ok ha, run_bind_ok hb, run_bind_ok hrun, run_pure]
  simp

@[simp] theorem seenBy_free (d : Dev) (e : Entry) : (d.seenBy e).free = d.free := seenBy_same (·.free) (fun _ _ => rfl) d e

/-- Settles O11: an ARR_QUAD that issues ends as its run does (`runArray_ok`); a single quadrant's run is `runQuad_single` with
`quadRun_ok`. -/
theorem quadCompletes : Obligations.QuadCompletes := by
  unfold Obligations.QuadCompletes
  refine ⟨?any, ?single⟩
  case any =>
    intro s c e sp d e' mode mask seed blocks r k x hready hp hrun
    exact runArray_ok hready (by rw [hp]) hrun
  case single =>
    intro s c e sp d e' mode mask seed blocks r b j av bv x y hready hp hjobs ha hb half rows imgs vals
    obtain ⟨hxdev, -, -⟩ := keepsDev_readMat _ _ _ _ _ _ _ ha
    obtain ⟨hydev, -, -⟩ := keepsDev_readMat _ _ _ _ _ _ _ hb
    have hdev : y.dev = d.seenBy e' := hydev.trans hxdev
    have hj : j = quadJob mode seed b := quadJobs_job (by rw [hjobs]; exact List.mem_singleton_self _)
    have hquad := runQuad_single hjobs ha hb (quadRun_ok hj hdev sp (quadNamed j) half av bv)
    rw [Ctx.start, seenBy_free] at hquad
    exact runArray_ok hready (by rw [hp]) hquad

/-! ### ARR_ACC (R135, R663) -/

/-- A run that answers a fixed value answers that one. -/
theorem run_bind_const_eq {α β : Type} {m : Run α} {b k : β} {x y : Ctx} (h : (m >>= fun _ => pure b) x = .ok k y) : k = b := by
  rw [run_bind] at h
  cases hm : m x with
  | ok a z =>
    rw [hm] at h
    injection h with hk
    exact hk.symm
  | error f z => rw [hm] at h; cases h

theorem runAccLoad_counts {sp tile count half : Nat} {m : Desc} {k : Counts} {x y : Ctx}
    (h : runAccLoad sp tile count half m x = .ok k y) : k = okCounts count 0 0 :=
  run_bind_const_eq h

theorem runAccStore_counts {sp tile count half : Nat} {m : Desc} {k : Counts} {x y : Ctx}
    (h : runAccStore sp tile count half m x = .ok k y) : k = okCounts count 0 0 := by
  rw [runAccStore, run_getDev_bind] at h
  exact run_bind_const_eq h

/-- R135: ARR_ACC ZERO holds an empty image for each of its half-tiles. -/
theorem runAccZero_ok (sp tile count half : Nat) (x : Ctx) : runAccZero sp tile count half x =
    .ok (okCounts count 0 0) { x with eff := ((accHalves tile count half).map (fun h => accWrite sp h half [])).reverse ++ x.eff } :=
  rfl

/-- R135, R220: ARR_ACC POST holds one entry for each of its tiles. -/
theorem runAccPost_ok (sp tile count half : Nat) (x : Ctx) : runAccPost sp tile count half x =
    .ok (okCounts (accPosts tile count half).length 0 0)
      { x with eff := ((accPosts tile count half).map (fun t => .tqPost sp t (half == 1))).reverse ++ x.eff } :=
  rfl

/-- R135: ARR_ACC LOAD of one half-tile holds the image that its rows give. -/
theorem runAccLoad_single {sp tile count half h : Nat} {m : Desc} {rows : List (List Nat)} {x y : Ctx}
    (hone : accHalves tile count half = [h])
    (hrows : ((List.range 256).mapM (fun i => m.readAs { accDrain with write := false } (256 * 0 + i) 256 (accFmt half))) x =
      .ok rows y) :
    let vals := rows.flatten.map (decodeFp (elemFmt (accFmt half)))
    runAccLoad sp tile count half m x = .ok (okCounts count 0 0) { y with
      eff := accWrite sp h half ((withIdx 0 rows.flatten).filterMap (fun p => if p.1 = 0 then none else some (p.2, p.1))) :: y.eff
      inf := y.inf || vals.any FVal.isInf, nan := y.nan || vals.any FVal.isNan } := by
  have hidx : withIdx 0 [h] = [(h, 0)] := rfl
  rw [runAccLoad, hone, hidx]
  simp only [List.mapM_cons, List.mapM_nil, bind_assoc, pure_bind]
  rw [run_bind_ok hrows]
  rfl

/-- R135: ARR_ACC STORE of one half-tile in its form writes its rows. -/
theorem runAccStore_single {sp tile count half h : Nat} {m : Desc} {x y : Ctx} (hone : accHalves tile count half = [h])
    (hrows : ((List.range 256).forM (fun i => m.writeFrom accDrain (256 * 0 + i) (accFmt half) (accRow x.dev sp h half i))) x =
      .ok ⟨⟩ y) :
    runAccStore sp tile count half m x = .ok (okCounts count 0 0) y := by
  have hidx : withIdx 0 [h] = [(h, 0)] := rfl
  rw [runAccStore, run_getDev_bind, hone, hidx]
  simp only [List.mapM_cons, List.mapM_nil, bind_assoc, pure_bind]
  rw [run_bind_ok hrows, run_pure]

/-- R663: a half-tile in the form that `half` names has its rows in its image. -/
theorem accRow_form {d : Dev} {sp h half : Nat} (hform : accForm d sp h half = true) (i : Nat) :
    accRow d sp h half i = (List.range 256).map (fun col => tget 0 (d.workingHalf sp h).img (256 * i + col)) := by
  simp only [accRow, hform, if_true]

@[simp] theorem accRow_seenBy (d : Dev) (e : Entry) (sp h half i : Nat) : accRow (d.seenBy e) sp h half i = accRow d sp h half i :=
  seenBy_same (accRow · sp h half i) (fun _ _ => rfl) d e

/-- Settles O12: an ARR_ACC command that issues ends as its run does (`runArray_ok`), which each operation's own lemma gives. -/
theorem accumulatorCommandsComplete : Obligations.AccumulatorCommandsComplete := by
  unfold Obligations.AccumulatorCommandsComplete
  refine ⟨?zero, ?load, ?loadOne, ?store, ?storeOne, ?post⟩
  case zero =>
    intro s c e sp d e' tile count half m r hready hp
    exact runArray_ok hready (by rw [hp]; rfl) ((runAccZero_ok ..).trans (by simp [Ctx.made, Ctx.start]))
  case load =>
    intro s c e sp d e' tile count half m r k x hready hp hrun
    exact ⟨runArray_ok hready (by rw [hp]; rfl) hrun, runAccLoad_counts hrun⟩
  case loadOne =>
    intro s c e sp d e' tile count half m r h rows x hready hp hone hrows
    exact runArray_ok hready (by rw [hp]; rfl) (runAccLoad_single hone hrows)
  case store =>
    intro s c e sp d e' tile count half m r k x hready hp hrun
    exact ⟨runArray_ok hready (by rw [hp]; rfl) hrun, runAccStore_counts hrun⟩
  case storeOne =>
    intro s c e sp d e' tile count half h m r x hready hp hone hform hrows
    refine runArray_ok hready (by rw [hp]; rfl) (runAccStore_single hone ?_)
    simp only [Ctx.start, accRow_seenBy, accRow_form hform]
    exact hrows
  case post =>
    intro s c e sp d e' tile count half m r hready hp
    exact runArray_ok hready (by rw [hp]; rfl) ((runAccPost_ok ..).trans (by simp [Ctx.made, Ctx.start]))

end Sys2Proof.Machine
end

section
/-! PROOFS (O18). The events of the pilot: a window's end in the band and past it, and a ramp step. -/

namespace Sys2Proof.Machine

/-! ### Pilot windows (R123, R126, R139) -/

@[simp] theorem chargePilots_errDue (d : Dev) (sp n : Nat) : (d.chargePilots sp n).errDue = d.errDue := by
  unfold Dev.chargePilots
  split <;> rfl

/-- A window with command rows ends the gap (R123). -/
theorem window_rows (v : Spindle) {k : Nat} (hk : 0 < k) (bubble : Bool) : v.window k bubble =
    { v with gap := 0, bubbles := 0, ramp := 0, hist := (k :: (List.replicate (min v.gap 16) 0 ++ v.hist)).take 16 } := by
  rw [Spindle.window, if_neg (by omega)]

/-- A window without rows lengthens the gap (R123). -/
theorem window_empty (v : Spindle) (bubble : Bool) :
    v.window 0 bubble = { v with gap := v.gap + 1, bubbles := if bubble then v.bubbles + 1 else v.bubbles } := rfl

/-- R123, R126, R139: what a window leaves on its Spindle that ends with `occ` slots occupied, `pilots` of them by pilot rows. -/
def Spindle.windowEnds (v : Spindle) (occ pilots ramp : Nat) : Spindle :=
  { v with occupied := occ, pilotRows := (v.pilotRows + pilots) % 2 ^ 64, ramp := ramp
           pilot := v.pilotNext.getD v.pilot, pilotNext := none }

/-- R123: a window in the band fills its slots up to the target. -/
theorem doPilotWindow_inBand {d : Dev} {sp k : Nat} {bubble : Bool} {w : Spindle} (hk : k ≤ 16)
    (hw : (d.spin sp).window k bubble = w) (hen : w.pilot.en = true) (hband : (k = 0 ∧ bubble = true) ∨ w.longGap = false) :
    let occ := max k (w.pilot.target w.hist.sum)
    doPilotWindow d sp k bubble = (d.setSpin sp (w.windowEnds occ (occ - k) 0)).chargePilots sp (occ - k) := by
  have hmin : min k 16 = k := Nat.min_eq_left hk
  have hin : ((k == 0 && bubble) || !w.longGap) = true := by simpa using hband
  simp only [doPilotWindow, hmin, hw, hen, hin, Bool.and_self, if_true, Spindle.windowEnds]

/-- R123, R124: a window past the band keeps the slots that were occupied before it. -/
theorem doPilotWindow_pastBand {d : Dev} {sp k : Nat} {w : Spindle} (hk : k ≤ 16) (hw : (d.spin sp).window k false = w)
    (hen : w.pilot.en = true) (hlong : w.longGap = true) :
    let occ := max k w.occupied
    doPilotWindow d sp k false = (d.setSpin sp (w.windowEnds occ (occ - k) (w.ramp + 1))).chargePilots sp (occ - k) := by
  have hmin : min k 16 = k := Nat.min_eq_left hk
  simp [doPilotWindow, hmin, hw, hen, hlong, Spindle.windowEnds]

theorem longGap_iff (v : Spindle) : v.longGap = true ↔ v.pilot.gapWindows < v.gap - v.bubbles := decide_eq_true_iff

/-! ### Ramp steps (R124) -/

theorem doPilotRamp_due {d : Dev} {sp : Nat} (hen : (d.spin sp).pilot.en = true)
    (hlong : (d.spin sp).pilot.gapWindows < (d.spin sp).gap - (d.spin sp).bubbles)
    (hramp : 2 ^ (d.spin sp).pilot.ramp ≤ (d.spin sp).ramp) :
    doPilotRamp d sp = d.setSpin sp { d.spin sp with occupied := (d.spin sp).occupied - 1, ramp := 0 } :=
  if_pos ⟨hen, (longGap_iff _).2 hlong, hramp⟩

/-- Settles O18: a window with rows and an empty one within the band by `doPilotWindow_inBand`, an empty one past it by
`doPilotWindow_pastBand`, and a ramp step by `doPilotRamp_due`. -/
theorem pilotEventsComplete : Obligations.PilotEventsComplete := by
  unfold Obligations.PilotEventsComplete
  refine ⟨?rows, ?empty, ?past, ?ramp⟩
  case rows =>
    intro s sp slots bubble hcalm hpos hle hen v hist occ
    refine runCalm (f := (doPilotWindow · sp slots bubble)) ?_ (by simp [hcalm])
    exact doPilotWindow_inBand hle (window_rows v hpos bubble) hen (.inr (by simp [Spindle.longGap]))
  case empty =>
    intro s sp bubble hcalm hen v hband occ
    have hin : ((0 : Nat) = 0 ∧ bubble = true) ∨ (v.window 0 bubble).longGap = false := by
      cases bubble with
      | true => exact .inl ⟨rfl, rfl⟩
      | false =>
        refine .inr (Bool.eq_false_iff.2 fun hlong => ?_)
        have := (longGap_iff _).1 hlong
        simp only [window_empty, Bool.false_eq_true, if_false, false_or] at this hband
        omega
    have hrun := doPilotWindow_inBand (Nat.zero_le 16) (window_empty v bubble) hen hin
    simp only [Nat.zero_max, Nat.sub_zero] at hrun
    exact runCalm (f := (doPilotWindow · sp 0 bubble)) hrun (by simp [hcalm])
  case past =>
    intro s sp hcalm hen v hlong
    have hrun := doPilotWindow_pastBand (Nat.zero_le 16) (window_empty v false) hen ((longGap_iff _).2 hlong)
    simp only [Nat.zero_max, Nat.sub_zero] at hrun
    exact runCalm (f := (doPilotWindow · sp 0 false)) hrun (by simp [hcalm])
  case ramp =>
    intro s sp hcalm hen hlong hramp
    exact runCalm (f := (doPilotRamp · sp)) (doPilotRamp_due hen hlong hramp) hcalm

end Sys2Proof.Machine
end

section
/-! PROOFS (O40). A packet's way through its queue: it is read, dispatched, issued again, committed, and its record written. -/

namespace Sys2Proof.Machine

/-! ### SUBMISSION (R236) -/

/-- R236: a packet with a bad or unreadable header does not pass. -/
theorem isBad_status {f : Fetched} (h : f.isBad = true) : f.status ≠ stOk := by
  simp only [Fetched.isBad, Bool.or_eq_true, Bool.and_eq_true, beq_iff_eq] at h
  obtain hhdr | ⟨hue, -⟩ := h
  · rw [hhdr]; decide
  · rw [hue]; decide

theorem doSubmission_good {d : Dev} {q : Nat} {f : Fetched} (hreads : d.reads q = true) (hfetch : d.fetch q = some f)
    (hgood : f.isBad = false) :
    let st := d.submitStatus q f.entry f.ue.isSome
    doSubmission d q = if st = stOk then d.accept q f else d.take q f (f.entry.ended st) := by
  simp only [doSubmission, hreads, hfetch, hgood, Bool.not_true, Bool.false_eq_true, if_false]

theorem doSubmission_bad {d : Dev} {q : Nat} {f : Fetched} (hreads : d.reads q = true) (hfetch : d.fetch q = some f)
    (hbad : f.isBad = true) : doSubmission d q = d.take q f (f.entry.ended f.status) := by
  simp only [doSubmission, hreads, hfetch, hbad, Bool.not_true, Bool.false_eq_true, if_false, if_true, if_neg (isBad_status hbad)]

/-! ### DISPATCH and WAIT_TIMEOUT (R252, R257, R540) -/

theorem doDispatch_unshared {d : Dev} {q : Nat} {e : Entry} (hhead : d.readyHead q = some e) (hnext : d.goesNext q e = true)
    (hengine : d.engineOf e = none) : doDispatch d q = d.leaveQueue q e := by
  simp only [doDispatch, hhead, hnext, hengine, if_true]

theorem doDispatch_shared {d : Dev} {q : Nat} {e : Entry} {g : Nat} (hhead : d.readyHead q = some e)
    (hnext : d.goesNext q e = true) (hengine : d.engineOf e = some g) :
    doDispatch d q = (d.advanceTags g (d.rivals g) q e).leaveQueue q e := by
  simp only [doDispatch, hhead, hnext, hengine, if_true]

theorem doWaitTimeout_lapsed {d : Dev} {q : Nat} {e : Entry} (hhead : (d.queue q).headEntry = some e) (hlapsed : e.lapsed = true) :
    doWaitTimeout d q = d.modQueue q (fun k => k.modEntry e.hdr.seq (fun x => x.ended stWaitTimeout)) := by
  simp only [doWaitTimeout, hhead, hlapsed, if_true]

/-! ### RERUN_ISSUE (R271) -/

/-- R271: a held command issues again where it is the first of its queue, its partition is active and not being saved, and the
unit that it waited for has recovered. -/
theorem mayReissue_of_recovered {d : Dev} {e : Entry} (hphase : e.phase = .rerun)
    (hfirst : ((d.queue e.hdr.queue).entries.find? Entry.isHeld).map (·.ref) = some e.ref)
    (hpart : 14 ≤ e.hdr.part ∨ (d.part e.hdr.part).state = .active)
    (hunit : ∀ u, e.heldBy = some u → d.recoveringOf u = none) (hsave : d.saving e.hdr.part = false) :
    d.mayReissue e = true := by
  obtain ⟨x, hx, href⟩ := Option.map_eq_some_iff.1 hfirst
  have hheld : ((d.queue e.hdr.queue).entries.find? Entry.isHeld).any (fun x => x.ref == e.ref) = true := by
    rw [hx, Option.any_some, href, beq_self_eq_true]
  have hactive : (decide (14 ≤ e.hdr.part) || (d.part e.hdr.part).state == .active) = true := by simpa using hpart
  simp only [Dev.mayReissue, Entry.isHeld, hphase, hheld, hactive, hsave, decide_true, Bool.not_false, Bool.and_self, Bool.true_and]
  cases hby : e.heldBy with
  | none => rfl
  | some u => exact Option.isNone_iff_eq_none.2 (hunit u hby)

theorem doRerunIssue_held {d : Dev} {c : CmdRef} {e : Entry} (hentry : d.entry c = some e) (hmay : d.mayReissue e = true) :
    doRerunIssue d c = d.modEntry c (fun x => { x with phase := .dispatched, heldBy := none, since := d.qs.nextOrder }) := by
  simp only [doRerunIssue, Dev.reissue, hentry, hmay, if_true]

/-! ### COMMAND_COMMIT and CHAIN_COMMIT (R120, R261, R268) -/

theorem doCommandCommit_moreToFlush {d : Dev} {c : CmdRef} {e : Entry} (hentry : d.entry c = some e)
    (hmore : d.moreToFlush e = true) : doCommandCommit d c = d.setPhase c (.running (.stage 1 (Result.failed stOk 0 false))) := by
  simp only [doCommandCommit, hentry, hmore, if_true]

theorem doCommandCommit_unchained {d : Dev} {c : CmdRef} {e : Entry} (hentry : d.entry c = some e) (hchain : e.chain = none)
    (hmore : d.moreToFlush e = false) : doCommandCommit d c = d.commitOne c := by
  simp only [doCommandCommit, hentry, hmore, hchain, Option.isNone_none, Bool.false_eq_true, if_false, if_true]

theorem commitOne_publishes {d : Dev} {c : CmdRef} {e : Entry} {r : Result} (hentry : d.entry c = some e)
    (hphase : e.phase = .ran r) (hok : d.commitFail r = none) : d.commitOne c = d.publish c e r := by
  simp only [Dev.commitOne, hentry, hphase, hok]

theorem commitOne_fails {d : Dev} {c : CmdRef} {e : Entry} {r : Result} {f : Fail} (hentry : d.entry c = some e)
    (hphase : e.phase = .ran r) (hfail : d.commitFail r = some f) : d.commitOne c = d.commitFails e r f := by
  simp only [Dev.commitOne, hentry, hphase, hfail]

/-- R120: a chain of which no member meets anything in its commit term commits member by member. -/
theorem commitChain_ok {d : Dev} {es : List Entry} (h : ∀ e ∈ es, ∃ r, e.phase = .ran r ∧ d.commitFail r = none) :
    d.commitChain es = es.foldl (fun d e => d.commitOne e.ref) d := by
  rw [Dev.commitChain, List.findSome?_eq_none_iff.2]
  intro e he
  obtain ⟨r, hphase, hok⟩ := h e he
  simp only [hphase, hok, Option.map_none]

theorem doChainCommit_ok {d : Dev} {sp n : Nat} (hne : d.chainMembers sp n ≠ [])
    (h : ∀ e ∈ d.chainMembers sp n, ∃ r, e.phase = .ran r ∧ d.commitFail r = none) :
    doChainCommit d sp n = (d.chainMembers sp n).foldl (fun d e => d.commitOne e.ref) d := by
  have hran : (d.chainMembers sp n).all Entry.isRan = true := by
    refine List.all_eq_true.2 fun e he => ?_
    obtain ⟨r, hphase, -⟩ := h e he
    simp only [Entry.isRan, hphase]
  have hsome : (d.chainMembers sp n).isEmpty = false := List.isEmpty_eq_false_iff.2 hne
  simp only [doChainCommit, hran, hsome, commitChain_ok h, Bool.not_false, Bool.and_self, if_true]

/-! ### RECORD_WRITE (R120, R267) -/

theorem doRecordWrite_first {d : Dev} {q : Nat} {e : Entry} {rest : List Entry} {r : Result}
    (hentries : (d.queue q).entries = e :: rest) (hphase : e.phase = .done r) (hsaved : (d.queue q).state ≠ .saved)
    (howes : d.chainOwes e = false) : doRecordWrite d q = d.writeFirst q e rest r := by
  simp only [doRecordWrite, hentries, hphase, hsaved, howes, Bool.false_eq_true, or_self, if_false]

/-- Settles O40: each event of the queue by its own lemma, with the errors that it meets taken (`runPut`) or none to take
(`runCalm`). -/
theorem queueMachineryCompletes : Obligations.QueueMachineryCompletes := by
  unfold Obligations.QueueMachineryCompletes
  refine ⟨?good, ?bad, ?dispatch, ?timeout, ?rerun, ?flush, ?commit, ?chain, ?record⟩
  case good =>
    intro s q f hreads hfetch hgood
    have hrun := doSubmission_good hreads hfetch hgood
    exact ⟨fun hok => runPut (f := (doSubmission · q)) (hrun.trans (if_pos hok)),
      fun hno => runPut (f := (doSubmission · q)) (hrun.trans (if_neg hno))⟩
  case bad =>
    intro s q f hreads hfetch hbad
    exact runPut (f := (doSubmission · q)) (doSubmission_bad hreads hfetch hbad)
  case dispatch =>
    intro s q e hhead hnext
    exact ⟨fun hengine => runPut (f := (doDispatch · q)) (doDispatch_unshared hhead hnext hengine),
      fun g hengine => runPut (f := (doDispatch · q)) (doDispatch_shared hhead hnext hengine)⟩
  case timeout =>
    intro s q e hcalm hhead hlapsed
    exact runCalm (f := (doWaitTimeout · q)) (doWaitTimeout_lapsed hhead hlapsed) hcalm
  case rerun =>
    intro s c e hcalm hentry hphase hfirst hpart hunit hsave
    exact runCalm (f := (doRerunIssue · c))
      (doRerunIssue_held hentry (mayReissue_of_recovered hphase hfirst hpart hunit hsave)) hcalm
  case flush =>
    intro s c e hcalm hentry hmore
    exact runCalm (f := (doCommandCommit · c)) (doCommandCommit_moreToFlush hentry hmore) hcalm
  case commit =>
    intro s c e r hentry hphase hchain hmore
    have hrun := doCommandCommit_unchained hentry hchain hmore
    exact ⟨fun hok => runPut (f := (doCommandCommit · c)) (hrun.trans (commitOne_publishes hentry hphase hok)),
      fun f hfail => runPut (f := (doCommandCommit · c)) (hrun.trans (commitOne_fails hentry hphase hfail))⟩
  case chain =>
    intro s sp n hne h
    exact runPut (f := (doChainCommit · sp n)) (doChainCommit_ok hne h)
  case record =>
    intro s q e rest r hentries hphase hsaved howes
    exact runPut (f := (doRecordWrite · q)) (doRecordWrite_first hentries hphase hsaved howes)

end Sys2Proof.Machine
end

section
/-! PROOFS (O48). Writes of a Skein quota. -/

namespace Sys2Proof.Machine

/-! ### Quota writes (R164, R194, R549) -/

/-- A write of a register of the Skein's block, on a path that reaches a register outside the LMP_ block. -/
theorem writeReg_skn {d : Dev} {p : Path} {a o : Nat} (v : Nat) (hup : d.lamp.cdUp = true) (hr : d.reaches p a = true)
    (ha : inLmpOff a = false) (ho : o < 0x100000) : d.writeReg p (0x1000000 + o) v = d.writeSkn p o v := by
  have hskn : inLmpOff (0x1000000 + o) = false := by
    simp only [inLmpOff, decide_eq_false_iff_not]
    omega
  rw [writeReg_dies v hup hr (hskn.trans ha.symm), writeUp_skn _ _ _ ho]

theorem writeSkn_skeinQuota (d : Dev) {p : Path} {part : Nat} (v : Nat) (hpart : part < 14) (hp : p ≠ .lamplighter) :
    d.writeSkn p (0x100 + 4 * part) v = d.writeSkeinQuota part v := by
  unfold Dev.writeSkn
  rw [if_neg (by omega), if_neg (by omega), inArr_elem (by decide) hpart, idxIn_elem (by decide)]
  simp [mayWrite, hp]

theorem doSknQuotaWrite_skein {d : Dev} {p : Path} {part : Nat} (v : Word) (hup : d.lamp.cdUp = true) (hpart : part < 14)
    (hp : p ≠ .lamplighter) (hr : d.reaches p 0x1000100 = true) :
    doSknQuotaWrite d p part 0 v = d.writeSkeinQuota part v.toNat := by
  rw [doSknQuotaWrite, if_pos ⟨hpart, by decide⟩, ← writeSkn_skeinQuota d v.toNat hpart hp,
    ← writeReg_skn v.toNat hup hr (by decide) (by omega : 0x100 + 4 * part < 0x100000)]
  congr 1
  omega

/-- R164: a write that would raise the sum past 376 is refused. -/
theorem writeSkeinQuota_refused {d : Dev} {part v : Nat} (hover : 376 < d.skeinSumWith part (bits v 8 0))
    (hraise : d.skeinSum < d.skeinSumWith part (bits v 8 0)) :
    d.writeSkeinQuota part v = d.modMem (fun m => { m with quotaRej := true }) :=
  if_pos ⟨hover, hraise⟩

/-- R164: a write that stays within 376, or does not raise the sum, is taken. -/
theorem writeSkeinQuota_taken {d : Dev} {part v : Nat}
    (h : d.skeinSumWith part (bits v 8 0) ≤ 376 ∨ d.skeinSumWith part (bits v 8 0) ≤ d.skeinSum) :
    d.writeSkeinQuota part v = d.modPart part (fun x => { x with quotaSkein := bits v 8 0, quotaWick := bits v 24 16 }) :=
  if_neg (by omega)

/-- Settles O48: the write reaches its partition's quota (`doSknQuotaWrite_skein`), which refuses or takes it. -/
theorem quotaWriteRule : Obligations.QuotaWriteRule := by
  unfold Obligations.QuotaWriteRule
  intro s p part v hcalm hup hpart hp hr after
  have hwrite := doSknQuotaWrite_skein v hup hpart hp hr
  constructor
  · intro hover hraise
    exact runCalm (f := (doSknQuotaWrite · p part 0 v)) (hwrite.trans (writeSkeinQuota_refused hover hraise)) hcalm
  · intro h
    exact runCalm (f := (doSknQuotaWrite · p part 0 v)) (hwrite.trans (writeSkeinQuota_taken h)) hcalm

end Sys2Proof.Machine
end

section
/-! PROOFS (O13). Copies and fills. -/

namespace Sys2Proof.Machine

/-! ### Packets that run at once (R261) -/

/-- R261: a packet that may run and whose run reaches its end holds what it made for its commit point. -/
theorem runPacket_ok {s : State} {c : CmdRef} {e : Entry} {k : Counts} {x : Ctx} {f : Dev → Entry → Dev} (h : Ready s c e)
    (hf : f s.dev e = s.dev.ranOk c e k x) : s.runDev (fun d => d.onPacket c (f d)) = .next (s.ran c e k x) := by
  obtain ⟨hentry, hphase, hroot, hcalm⟩ := h
  exact runDev_ran hcalm ((onPacket_ready (f s.dev) hentry hphase hroot).trans hf)

/-! ### MEM_COPY and MEM_FILL (R186, R187) -/

/-- R187: between equal formats the bits of each row are written as they were read. -/
theorem runCopy_bits {src dst : Desc} {rows cols : Nat} {data : List (List Nat × List Byte)} {x y z : Ctx} {u : List Unit}
    (hfmt : src.fmt = dst.fmt) (hread : ((List.range rows).mapM (fun i => src.readRow accMover i cols)) x = .ok data y)
    (hwrite : ((withIdx 0 data).mapM (fun (q : (List Nat × List Byte) × Nat) => do
      noteVals (rowVals src.fmt q.1.2 q.1.1)
      dst.writeCodes accMover q.2 q.1)) y = .ok u z) :
    runCopy src dst rows cols x = .ok (okCounts rows 0 0) z := by
  rw [runCopy, run_bind_ok hread]
  simp only [if_pos hfmt]
  exact run_bind_ok hwrite

/-- R187: between unequal formats the values of each row are converted. -/
theorem runCopy_values {src dst : Desc} {rows cols : Nat} {data : List (List Nat × List Byte)} {x y z : Ctx} {u : List Unit}
    (hfmt : src.fmt ≠ dst.fmt) (hread : ((List.range rows).mapM (fun i => src.readRow accMover i cols)) x = .ok data y)
    (hwrite : ((withIdx 0 data).mapM (fun (q : (List Nat × List Byte) × Nat) =>
      dst.writeVals accMover q.2 (rowVals src.fmt q.1.2 q.1.1))) y = .ok u z) :
    runCopy src dst rows cols x = .ok (okCounts rows 0 0) z := by
  rw [runCopy, run_bind_ok hread]
  simp only [if_neg hfmt]
  exact run_bind_ok hwrite

/-- R187: what a fill of host memory holds for a row. -/
def fillRow (dst : Desc) (rowB pattern i : Nat) : Effect :=
  .host (dst.va + i * dst.rowStride) (List.replicate (rowB / 4) (leBytes 4 pattern)).flatten

/-- R187: a fill of host memory holds one write for each row, and cannot fail. -/
theorem runFill_host {dst : Desc} {rows rowB pattern : Nat} (d : Dev) (c : CmdRef) (e : Entry) (hhost : dst.host = true) :
    runFill dst rows rowB pattern (.start d c e) = .ok (okCounts rows 0 0) 
      (.made d c e ((List.range rows).map (fillRow dst rowB pattern)).reverse) := by
  rw [runFill]
  simp only [hhost, if_true]
  have hrows := run_forM_hold (act := fun i => hold (fillRow dst rowB pattern i)) (eff := fun i => [fillRow dst rowB pattern i])
    (fun _ _ => rfl) (List.range rows) (.start d c e)
  rw [← List.map_eq_flatMap] at hrows
  refine (run_bind_ok hrows).trans ?_
  simp only [run_pure, Ctx.made, Ctx.start, List.append_nil]

/-- R187: a fill of the partition's memory ends where its rows can be written. -/
theorem runFill_device {dst : Desc} {rows rowB pattern : Nat} {x y : Ctx} (hhost : dst.host = false)
    (hwrite : ((List.range rows).forM (fun i =>
      writeVa accMover (dst.va + i * dst.rowStride) (List.replicate (rowB / 4) (leBytes 4 pattern)).flatten)) x = .ok ⟨⟩ y) :
    runFill dst rows rowB pattern x = .ok (okCounts rows 0 0) y := by
  rw [runFill]
  simp only [hhost, Bool.false_eq_true, if_false]
  exact run_bind_ok hwrite

/-- Settles O13: each command runs as its packet says (`runPacket_ok`), and its run ends by the lemma of its case. -/
theorem copyAndFillComplete : Obligations.CopyAndFillComplete := by
  unfold Obligations.CopyAndFillComplete
  refine ⟨?bits, ?values, ?host, ?device⟩
  case bits =>
    intro s c e src dst rows cols r data x u y hready hp hfmt hread hwrite
    exact runPacket_ok hready (by rw [hp]; exact run_ok (runCopy_bits hfmt hread hwrite))
  case values =>
    intro s c e src dst rows cols r data x u y hready hp hfmt hread hwrite
    exact runPacket_ok hready (by rw [hp]; exact run_ok (runCopy_values hfmt hread hwrite))
  case host =>
    intro s c e dst rows rowB pattern r hready hp hhost
    exact runPacket_ok hready (by rw [hp]; exact run_ok (runFill_host _ _ _ hhost))
  case device =>
    intro s c e dst rows rowB pattern r x hready hp hhost hwrite
    exact runPacket_ok hready (by rw [hp]; exact run_ok (runFill_device hhost hwrite))

end Sys2Proof.Machine
end

section
/-! PROOFS (O14). Allocation, release and migration of pages. -/

namespace Sys2Proof.Machine

/-! ### What a mapping command finds (R263): tables are no bytes of memory -/

@[simp] theorem start_dev (d : Dev) (c : CmdRef) (e : Entry) : (Ctx.start d c e).dev = d.seenBy e := rfl

@[simp] theorem seenBy_level2Room (d : Dev) (e : Entry) (part : Nat) (keys : List Nat) :
    (d.seenBy e).level2Room part keys = d.level2Room part keys :=
  seenBy_same (·.level2Room part keys) (fun _ _ => rfl) d e

@[simp] theorem seenBy_ringIn (d : Dev) (e : Entry) (part va len : Nat) : (d.seenBy e).ringIn part va len = d.ringIn part va len :=
  seenBy_same (·.ringIn part va len) (fun _ _ => rfl) d e

@[simp] theorem seenBy_inPool (d : Dev) (e : Entry) (part pa : Nat) : (d.seenBy e).inPool part pa = d.inPool part pa :=
  seenBy_same (·.inPool part pa) (fun _ _ => rfl) d e

@[simp] theorem seenBy_wickCovers (d : Dev) (e : Entry) (part va : Nat) : (d.seenBy e).wickCovers part va = d.wickCovers part va :=
  seenBy_same (·.wickCovers part va) (fun _ _ => rfl) d e

@[simp] theorem placeAuto_seenBy (d : Dev) (e : Entry) (p : Partition) (tier die : Nat) (wick : Bool) :
    placeAuto (d.seenBy e) p tier die wick = placeAuto d p tier die wick :=
  seenBy_same (placeAuto · p tier die wick) (fun _ _ => rfl) d e

@[simp] theorem placeKv_seenBy (d : Dev) (e : Entry) (part : Nat) : placeKv (d.seenBy e) part = placeKv d part :=
  seenBy_same (placeKv · part) (fun _ _ => rfl) d e

/-! ### MEM_ALLOC (R166, R188, R189) -/

/-- R166, R189: how MEM_ALLOC places one page. -/
def allocPlace (d : Dev) (part tier flags : Nat) : Placing → Nat → Option Placing :=
  if flagKv flags then placeKv d part else placeAuto d (d.part part) tier (flagDie flags) (flagWick flags)

/-- R166, R189: what MEM_ALLOC holds of what it has placed: the mappings, then the use of the pages, tier by tier. -/
def Placing.effects (x : Placing) (part : Nat) (kv : Bool) : List Effect :=
  x.maps.map (fun (m : Nat × Pte) => Effect.map part m.1 m.2) ++
    x.skein.map (fun n => Effect.pageUse .skein n (.mapped part)) ++
    x.hbm.map (fun n => Effect.pageUse .hbm n (if kv then .kvFrame part else .mapped part)) ++
    x.ddr.map (fun n => Effect.pageUse .ddr n (.mapped part)) ++
    if kv = true ∧ x.hbm.isEmpty = false then [Effect.kvFrames part x.hbm] else []

/-- R188: MEM_ALLOC into a range that is unmapped, has room for its tables, and has its pages placed. -/
theorem runAlloc_ok {d : Dev} {c : CmdRef} {e : Entry} {part va pages tier flags : Nat} {x : Placing}
    (hfree : (rangeKeys va pages (flagKv flags)).all (fun k => (d.part part).unmappedAt k (flagKv flags)) = true)
    (hroom : d.level2Room part (rangeKeys va pages (flagKv flags)) = true)
    (hplace : placeAll (allocPlace d part tier flags) (rangeKeys va pages (flagKv flags)) ⟨[], [], [], [], []⟩ = some x) :
    runAlloc part va pages tier flags (.start d c e) =
      .ok (if flagKv flags then okCounts 0 pages 0 else okCounts x.skein.length x.hbm.length x.ddr.length)
        (.made d c e (x.effects part (flagKv flags)).reverse) := by
  rw [allocPlace] at hplace
  rw [runAlloc, run_getDev_bind]
  simp only [start_dev, seenBy_part, seenBy_level2Room, placeAuto_seenBy, placeKv_seenBy, hfree, hroom, hplace,
    run_require_true_bind, run_holdAll_bind, Placing.effects, Ctx.made]
  cases flagKv flags with
  | false => simp [Ctx.start]
  | true => cases x.hbm.isEmpty <;> simp [Ctx.start]

/-! ### MEM_FREE (R181, R190, R659) -/

/-- The page-table entries of a partition at the keys of a range. -/
def Partition.ptesAt (p : Partition) (keys : List Nat) : List (Nat × Pte) :=
  keys.filterMap (fun k => (p.pteAt k).map (fun x => (k, x)))

/-- The check that a range is mapped throughout with pages of one kind. -/
theorem mappedAs_check {es : List (Nat × Pte)} {keys : List Nat} {kind : PageKind} (hlen : es.length = keys.length)
    (hkind : ∀ ke ∈ es, ke.2.kind = kind) : (es.length == keys.length && es.all (fun ke => ke.2.kind == kind)) = true := by
  simpa [hlen] using fun a b hab => hkind (a, b) hab

/-- R190: the kind of page that the flags of MEM_FREE name. -/
def freeKind (flags : Nat) : PageKind := if flagKv flags then .kv else if flagWick flags then .wick else .data

/-- R190: MEM_FREE of a range that is mapped as its flags name and that nothing uses. -/
theorem runFree_ok {d : Dev} {c : CmdRef} {e : Entry} {part va pages flags : Nat} {es : List (Nat × Pte)}
    (hes : (d.part part).ptesAt (rangeKeys va pages (flagKv flags)) = es)
    (hlen : es.length = (rangeKeys va pages (flagKv flags)).length) (hkind : ∀ ke ∈ es, ke.2.kind = freeKind flags)
    (hidle : ∀ ke ∈ es, (freeKind flags = .kv → d.inPool part ke.2.pa = false) ∧
      (freeKind flags = .wick → d.wickCovers part (ke.1 * 65536) = false))
    (hring : d.ringIn part va (pages * flagPage flags) = false) :
    runFree part va pages flags (.start d c e) =
      .ok (okCounts pages 0 0) (.made d c e (es.flatMap (fun ke => releasePage part ke.1 ke.2 true)).reverse) := by
  have hunused : es.any (fun ke => (freeKind flags == .kv && d.inPool part ke.2.pa) ||
      (freeKind flags == .wick && d.wickCovers part (ke.1 * 65536))) = false := by
    refine List.any_eq_false.2 fun ke hke => ?_
    obtain ⟨hpool, hwick⟩ := hidle ke hke
    simpa using ⟨hpool, hwick⟩
  rw [Partition.ptesAt] at hes
  rw [freeKind] at hkind hunused
  rw [runFree, run_getDev_bind]
  simp only [start_dev, seenBy_part, seenBy_inPool, seenBy_wickCovers, seenBy_ringIn, hes, mappedAs_check hlen hkind, hunused, hring,
    Bool.not_false, Bool.and_self, run_require_true_bind, run_holdAll_bind, run_pure]
  simp [Ctx.made, Ctx.start]

/-! ### MEM_MIGRATE (R168, R190) -/

/-- R168: one page of MEM_MIGRATE: its copy, its release, and its new mapping. -/
def migratePage (part : Nat) (em : (Nat × Pte) × (Nat × Pte)) : Run Unit := do
  let cells ← readPage em.1.2.pa
  hold (.block em.2.2.pa pageBytes cells)
  holdAll (releasePage part em.1.1 em.1.2 true)
  hold (.map part em.1.1 em.2.2)
  match tierOf em.2.2.pa with
  | some (t, n) => hold (.pageUse t n (.mapped part))
  | none => pure ()

/-- R190: MEM_MIGRATE of data pages that read, to places found for all of them. -/
theorem runMigrate_ok {d : Dev} {c : CmdRef} {e : Entry} {part va pages tier flags : Nat} {es : List (Nat × Pte)} {x : Placing}
    {u : List Unit} {y : Ctx} (hes : (d.part part).ptesAt (rangeKeys va pages false) = es)
    (hlen : es.length = (rangeKeys va pages false).length) (hkind : ∀ ke ∈ es, ke.2.kind = .data)
    (hring : d.ringIn part va (pages * pageBytes) = false)
    (hplace : placeAll (placeAuto d (d.part part) tier (flagDie flags) false) (rangeKeys va pages false) ⟨[], [], [], [], []⟩ =
      some x)
    (hpages : ((es.zip x.maps).mapM (migratePage part)) (.start d c e) = .ok u y) :
    runMigrate part va pages tier flags (.start d c e) = .ok (okCounts pages 0 0) y := by
  rw [Partition.ptesAt] at hes
  rw [runMigrate, run_getDev_bind]
  simp only [start_dev, seenBy_part, seenBy_ringIn, placeAuto_seenBy, hes, mappedAs_check hlen hkind, hring, hplace,
    Bool.not_false, run_require_true_bind]
  exact run_bind_ok hpages

/-- Settles O14: each command runs on the block with what waits taken (`runClaimed_ok`), and its run ends by its own lemma. -/
theorem mappingCommandsComplete : Obligations.MappingCommandsComplete := by
  unfold Obligations.MappingCommandsComplete
  refine ⟨?alloc, ?free, ?migrate⟩
  case alloc =>
    intro s c e va pages tier flags r x hready hp d p kv keys hzero hfree hroom hplace
    refine runPacket_ok hready ?_
    simp only [hp, hzero, Bool.false_eq_true, if_false]
    exact runClaimed_ok (runAlloc_ok hfree hroom hplace)
  case free =>
    intro s c e va pages tier flags r hready hp d p want keys es hlen hkind hidle hring
    exact runPacket_ok hready (by rw [hp]; exact runClaimed_ok (runFree_ok rfl hlen hkind hidle hring))
  case migrate =>
    intro s c e va pages tier flags r x u y hready hp d p keys es hlen hkind hring hplace hpages
    exact runPacket_ok hready (by rw [hp]; exact runClaimed_ok (runMigrate_ok rfl hlen hkind hring hplace hpages))

end Sys2Proof.Machine
end

section
/-! PROOFS (O15). The commands of sealed regions. -/

namespace Sys2Proof.Machine

/-! ### Sealed regions (R175 to R179) -/

@[simp] theorem seenBy_regions (d : Dev) (e : Entry) : (d.seenBy e).mem.regions = d.mem.regions :=
  seenBy_same (·.mem.regions) (fun _ _ => rfl) d e

@[simp] theorem seenBy_mapsOf (d : Dev) (e : Entry) (region : Nat) : (d.seenBy e).mapsOf region = d.mapsOf region :=
  seenBy_same (·.mapsOf region) (fun _ _ => rfl) d e

/-- R175: the HBM pages among the entries of a range. -/
def hbmPages (es : List (Nat × Pte)) : List Nat :=
  es.filterMap (fun ke => match tierOf ke.2.pa with
    | some (.hbm, n) => some n
    | _ => none)

/-- R175: what SEAL holds: the unmapping of the range, and the region of its pages with its digest. -/
def sealEffects (part region : Nat) (keys nums : List Nat) (digest : List Byte) : List Effect :=
  keys.map (fun k => Effect.unmap part k) ++ nums.map (fun n => Effect.pageUse .hbm n (.sealed region)) ++
    [Effect.region region nums digest]

theorem sealEffects_reverse (part region : Nat) (keys nums : List Nat) (digest : List Byte) :
    (sealEffects part region keys nums digest).reverse = Effect.region region nums digest ::
      ((nums.map (fun n => Effect.pageUse .hbm n (.sealed region))).reverse ++ (keys.map (fun k => Effect.unmap part k)).reverse) := by
  simp [sealEffects]

/-- R175, R176: SEAL of HBM data pages that read, to a number that no region has. -/
theorem runSeal_ok {d : Dev} {c : CmdRef} {e : Entry} {part region pages va : Nat} {es : List (Nat × Pte)}
    {u : List (List Host.Cell)} {x : Ctx} (hpart : part < 14) (hes : (d.part part).ptesAt (rangeKeys va pages false) = es)
    (hlen : es.length = (rangeKeys va pages false).length) (hkind : ∀ ke ∈ es, ke.2.kind = .data)
    (hhbm : (hbmPages es).length = (rangeKeys va pages false).length) (hring : d.ringIn part va (pages * pageBytes) = false)
    (hregion : thas d.mem.regions region = false)
    (hread : ((hbmPages es).mapM (fun n => readPage (paOf .hbm n))) (.start d c e) = .ok u x) :
    runSeal part region pages va (.start d c e) = .ok (okCounts pages 0 0) { x with
      eff := (sealEffects part region (rangeKeys va pages false) (hbmPages es)
        (sealDigest (d.seenBy e).mem (hbmPages es))).reverse ++ x.eff } := by
  have hcheck : (decide (part < 14) && es.length == (rangeKeys va pages false).length && es.all (fun ke => ke.2.kind == .data) &&
      (hbmPages es).length == (rangeKeys va pages false).length) = true := by
    rw [Bool.and_assoc (decide (part < 14)), mappedAs_check hlen hkind, hhbm, decide_eq_true hpart, beq_self_eq_true]
    rfl
  rw [Partition.ptesAt] at hes
  rw [runSeal, run_getDev_bind, sealEffects_reverse, List.cons_append, List.append_assoc]
  simp only [start_dev, seenBy_part, seenBy_ringIn, seenBy_regions, hes, hring, hregion, Bool.not_false]
  refine (run_require_bind hcheck _ _ _).trans ?_
  simp only [run_require_true_bind]
  exact (run_bind_ok hread).trans rfl

/-- R177: MAP of a region into an unmapped range of a partition that is not FREE. -/
theorem runMap_ok {d : Dev} {c : CmdRef} {e : Entry} {region part va : Nat} {g : Region}
    (hregion : tfind d.mem.regions region = some g)
    (hstate : (d.part part).state ≠ .free) (hzero : g.zeroing = false) (hend : va + g.pages.length * pageBytes ≤ 2 ^ 48)
    (hfree : (rangeKeys va g.pages.length false).all (fun k => (d.part part).unmappedAt k false) = true)
    (hroom : d.level2Room part (rangeKeys va g.pages.length false) = true) :
    runMap region part va (.start d c e) = .ok (okCounts g.pages.length 0 0) (.made d c e
      (((rangeKeys va g.pages.length false).zip g.pages).map (fun kp => Effect.map part kp.1 ⟨paOf .hbm kp.2, .sealed region⟩) ++
        [Effect.sealMap part region va]).reverse) := by
  have hused : ((d.part part).state != .free) = true := bne_iff_ne.2 hstate
  rw [runMap, run_getDev_bind]
  simp only [start_dev, seenBy_part, seenBy_regions, seenBy_level2Room, hregion, hused, hzero, decide_eq_true hend, hfree, hroom,
    Bool.not_false, Bool.and_self, run_require_true_bind,
    run_hold_bind, run_holdAll_bind, run_pure]
  simp [Ctx.made, Ctx.start]

/-- R178: UNMAP of a range that a MAP of the region gave the partition. -/
theorem runUnmap_ok {d : Dev} {c : CmdRef} {e : Entry} {region part va : Nat} {g : Region}
    (hregion : tfind d.mem.regions region = some g) (hmap : (region, va) ∈ (d.part part).maps) :
    runUnmap region part va (.start d c e) = .ok (okCounts g.pages.length 0 0) (.made d c e
      ((rangeKeys va g.pages.length false).map (fun k => Effect.unmap part k) ++ [Effect.sealUnmap part region va]).reverse) := by
  rw [runUnmap, run_getDev_bind]
  simp only [start_dev, seenBy_part, seenBy_regions, hregion, List.contains_iff_mem.2 hmap, run_require_true_bind,
    run_hold_bind, run_holdAll_bind, run_pure]
  simp [Ctx.made, Ctx.start]

/-- R179: UNSEAL of a region that no partition maps. -/
theorem runUnseal_ok {d : Dev} {c : CmdRef} {e : Entry} {region : Nat} {g : Region}
    (hregion : tfind d.mem.regions region = some g) (hmaps : d.mapsOf region = 0) (hzero : g.zeroing = false) :
    runUnseal region (.start d c e) = .ok (okCounts g.pages.length 0 0) (.made d c e
      (Effect.regionZero region :: g.pages.map (fun m => Effect.zero ⟨.hbmPage m, some region, true⟩)).reverse) := by
  rw [runUnseal, run_getDev_bind]
  simp only [start_dev, seenBy_regions, seenBy_mapsOf, hregion, hmaps, hzero, beq_self_eq_true, Bool.not_false, Bool.and_self,
    run_require_true_bind,
    run_hold_bind, run_holdAll_bind, run_pure]
  simp [Ctx.made, Ctx.start]

/-- Settles O15: each command runs on the block with what waits taken (`runClaimed_ok`), and its run ends by its own lemma. -/
theorem sealedCommandsComplete : Obligations.SealedCommandsComplete := by
  unfold Obligations.SealedCommandsComplete
  refine ⟨?seals, ?maps, ?unmaps, ?unseals⟩
  case seals =>
    intro s c e region q pages va r u x hready hp d p keys es nums hpart hlen hkind hhbm hring hregion hread
    exact runPacket_ok hready (by
      rw [hp]; exact runClaimed_ok (runSeal_ok hpart rfl hlen hkind hhbm hring hregion hread))
  case maps =>
    intro s c e region p n va r g hready hp d hregion hstate hzero hend keys hfree hroom
    exact runPacket_ok hready (by rw [hp]; exact runClaimed_ok (runMap_ok hregion hstate hzero hend hfree hroom))
  case unmaps =>
    intro s c e region p n va r g hready hp d hregion hmap
    exact runPacket_ok hready (by rw [hp]; exact runClaimed_ok (runUnmap_ok hregion hmap))
  case unseals =>
    intro s c e region p n va r g hready hp d hregion hmaps hzero
    exact runPacket_ok hready (by rw [hp]; exact runClaimed_ok (runUnseal_ok hregion hmaps hzero))

end Sys2Proof.Machine
end

section
/-! PROOFS (O16). The events that end zeroing. -/

namespace Sys2Proof.Machine

/-! ### Ends of zeroing (R179, R183, R354, R659) -/

theorem doBackgroundZeroDone_page {d : Dev} {t : ZeroTarget} {i : ZeroItem} (hitem : d.zeroItem t = some i)
    (hregion : i.region = none) : doBackgroundZeroDone d t = d.zeroDone i := by
  simp only [doBackgroundZeroDone, hitem, hregion]

/-- R659: a page of an unsealed region that has other pages to zero. -/
theorem doBackgroundZeroDone_regionPage {d : Dev} {t : ZeroTarget} {i : ZeroItem} {r : Nat} (hitem : d.zeroItem t = some i)
    (hregion : i.region = some r) (hmore : 2 ≤ (d.regionItems r).length) : doBackgroundZeroDone d t = d.zeroDone i := by
  simp only [doBackgroundZeroDone, hitem, hregion]
  exact if_neg (by omega)

/-- R179: with its last page the region ceases to exist. -/
theorem doUnsealZeroDone_last {d : Dev} {r : Nat} {g : Region} {i : ZeroItem} (hregion : tfind d.mem.regions r = some g)
    (hlast : d.regionItems r = [i]) (hzero : g.zeroing = true) (hitem : d.zeroItem i.target ≠ none) :
    doUnsealZeroDone d r = (d.zeroDone i).modMem (fun m => { m with regions := terase m.regions r }) := by
  simp only [doUnsealZeroDone, hregion, hlast, hzero, Option.isSome_iff_ne_none.2 hitem, Bool.and_self, if_true]

theorem doKvPageZeroDone_zeroing {d : Dev} {part pa : Nat} {g : PoolPage} (hpage : tfind (d.pool part) (pa / 65536) = some g)
    (hzero : g.zeroing = true) : doKvPageZeroDone d part pa =
      (d.pokeBlock (pa / 65536 * 65536) 65536 []).modPool part (fun t => tins t (pa / 65536) { g with zeroing := false }) := by
  simp only [doKvPageZeroDone, hpage, hzero, if_true]

/-- Settles O16: each event by its own lemma, and RELEASE_ZERO_DONE by its definition, with the errors taken (`runPut`). -/
theorem zeroingCompletes : Obligations.ZeroingCompletes := by
  unfold Obligations.ZeroingCompletes
  refine ⟨?page, ?regionPage, ?unsealed, ?released, ?kvPage⟩
  case page =>
    intro s t i hitem hregion
    exact runPut (f := (doBackgroundZeroDone · t)) (doBackgroundZeroDone_page hitem hregion)
  case regionPage =>
    intro s t i r hitem hregion hmore
    exact runPut (f := (doBackgroundZeroDone · t)) (doBackgroundZeroDone_regionPage hitem hregion hmore)
  case unsealed =>
    intro s r g i hregion hlast hzero hitem
    exact runPut (f := (doUnsealZeroDone · r)) (doUnsealZeroDone_last hregion hlast hzero hitem)
  case released =>
    intro s part d d'
    exact runPut (f := (doReleaseZeroDone · part)) rfl
  case kvPage =>
    intro s part pa g hpage hzero
    exact runPut (f := (doKvPageZeroDone · part pa)) (doKvPageZeroDone_zeroing hpage hzero)

end Sys2Proof.Machine
end

section
/-! PROOFS (O17). The commands of the vector engine: a program that ends, waits or goes on, and the flush of a tile queue. -/

namespace Sys2Proof.Machine

/-! ### Where a vector program stops (R196, R203, R223, R232) -/

/-- R232: the block with `n` more instructions counted on the command's Spindle. -/
def Dev.retireVec (d : Dev) (e : Entry) (n : Nat) : Dev :=
  d.modSpin (d.spindleOf e) (fun v => { v with vecInstr := (v.vecInstr + n) % 2 ^ 64 })

/-- R196, R203: a vector program that stops past its last instruction has run to its end. -/
theorem vecContinue_ends {d : Dev} {c : CmdRef} {e : Entry} {p : VecRun} {v w : VecCtx} {x y : Ctx}
    (hgo : vecGo p (p.instrs.drop v.pc) v x = .ok w y) (hend : p.instrs.length ≤ w.pc) :
    let sp := d.spindleOf e
    vecContinue d c e p v x = (d.retireVec e (w.pc - v.pc)).ranOk c e
      (okCounts w.pc (if w.taken = 0 then 0 else sat max32 (Config.waitCycles d.free)) w.taken)
      { y with eff := ((if y.perm then [Effect.permRange sp] else []) ++
        (if w.taken = 0 then [] else [Effect.tqRemove sp w.taken])).reverse ++ y.eff } := by
  rw [vecContinue, hgo]
  exact if_neg (Nat.not_lt.2 hend)

/-- R223: a vector program that stops before its end waits there for an entry of its tile queue. -/
theorem vecContinue_waits {d : Dev} {c : CmdRef} {e : Entry} {p : VecRun} {v w : VecCtx} {x y : Ctx}
    (hgo : vecGo p (p.instrs.drop v.pc) v x = .ok w y) (hmore : w.pc < p.instrs.length) :
    let run := (d.retireVec e (w.pc - v.pc)).issuedRun c e y
    vecContinue d c e p v x = (run.2.2.countRun e 0 0 run.2.1).setPhase c
      (.running (.vec w (runResult (okCounts 0 0 0) run.2.1 run.1.ce y))) := by
  rw [vecContinue, hgo]
  exact if_pos hmore

/-! ### The events of the vector engine (R197, R221, R224, R228) -/

/-- R197: a VEC_RUN on an idle vector engine runs its program from the first instruction. -/
theorem doVecRun_idle {d : Dev} {c : CmdRef} {e : Entry} {p : VecRun} (hentry : d.entry c = some e)
    (hphase : e.phase = .dispatched) (hroot : d.rootHolds e = false) (hp : e.payload = .vecRun p) (hidle : vecBusy d e = false) :
    doVecRun d c = vecContinue d c e p vecStart (.start d c e) := by
  rw [doVecRun, onPacket_ready _ hentry hphase hroot]
  simp only [hp, hidle, Bool.false_eq_true, if_false]

/-- R221, R223: a waiting program takes the entry and goes on behind its TQ_POP. -/
theorem doTqPop_takes {d : Dev} {c : CmdRef} {e : Entry} {p : VecRun} {v : VecCtx} {r : Result} {i : VInstr} {t : TqEntry} {k : Nat}
    (hentry : d.entry c = some e) (hphase : e.phase = .running (.vec v r)) (hp : e.payload = .vecRun p)
    (hinstr : p.instrs[v.pc]? = some i) (hfirst : untaken (d.spin (d.spindleOf e)).tq = some (t, k)) :
    let sp := d.spindleOf e
    let d' := d.setSpin sp { d.spin sp with
      tq := (d.spin sp).tq.modify k (fun t => { t with taken := true }), vecInstr := ((d.spin sp).vecInstr + 1) % 2 ^ 64 }
    doTqPop d c = vecContinue d' c e p
      { v with pc := v.pc + 1, store := popInto v.store (d.spin sp) i t, taken := v.taken + 1 } (resumeCtx d' c e r) := by
  simp only [doTqPop, hentry, hphase, hp, hinstr, hfirst]

/-- R224: a program whose wait lapses with no entry to take fails. -/
theorem doTqPopTimeout_empty {d : Dev} {c : CmdRef} {e : Entry} {v : VecCtx} {r : Result} (hentry : d.entry c = some e)
    (hphase : e.phase = .running (.vec v r)) (hnone : untaken (d.spin (d.spindleOf e)).tq = none) :
    doTqPopTimeout d c = d.ranFail c e ⟨stTqEmpty, none, none⟩ (resumeCtx d c e r) := by
  simp only [doTqPopTimeout, hentry, hphase, hnone, Option.isSome_none, Bool.false_eq_true, if_false]

/-- R228: a flush holds the removal of its entries, and cannot fail. -/
theorem runTqFlush_ok (sp count : Nat) (d : Dev) (c : CmdRef) (e : Entry) :
    runTqFlush sp count (.start d c e) = .ok (okCounts count 0 0) (.made d c e [.tqRemove sp count]) := by
  rw [runTqFlush, run_hold_bind, run_pure]
  rfl

/-- Settles O17: a VEC_RUN starts by `doVecRun_idle` and stops by `vecContinue_ends` or `vecContinue_waits`; the flush runs at once
(`runPacket_ok`), and each event of a waiting program is its own lemma, with the errors taken (`runPut`). -/
theorem vectorCommandsComplete : Obligations.VectorCommandsComplete := by
  unfold Obligations.VectorCommandsComplete
  refine ⟨?ends, ?waits, ?pop, ?timeout, ?flush⟩
  case ends =>
    intro s c e p w x hready hp hidle hgo hend sp d
    obtain ⟨hentry, hphase, hroot, hcalm⟩ := hready
    have hrun := (doVecRun_idle hentry hphase hroot hp hidle).trans (vecContinue_ends hgo hend)
    exact runCalm (f := (doVecRun · c)) hrun ((ranOk_errDue ..).trans hcalm)
  case waits =>
    intro s c e p w x hready hp hidle hgo hmore d
    obtain ⟨hentry, hphase, hroot, -⟩ := hready
    exact runPut (f := (doVecRun · c)) ((doVecRun_idle hentry hphase hroot hp hidle).trans (vecContinue_waits hgo hmore))
  case pop =>
    intro s c e p v r i t k hentry hphase hp sp hinstr hfirst d
    exact runPut (f := (doTqPop · c)) (doTqPop_takes hentry hphase hp hinstr hfirst)
  case timeout =>
    intro s c e v r hentry hphase hnone
    exact runPut (f := (doTqPopTimeout · c)) (doTqPopTimeout_empty hentry hphase hnone)
  case flush =>
    intro s c e count r hready hp hidle
    refine runPacket_ok hready ?_
    simp only [hp, hidle, Bool.false_eq_true, if_false]
    exact run_ok (runTqFlush_ok ..)

end Sys2Proof.Machine
end

section
/-! PROOFS (O42, O43). The end of a run: what it holds, what it counts, and what it leaves as it was. -/

namespace Sys2Proof.Machine

/-! ### Packets beside the one that changes -/

theorem queue_entry_modEntry_ne (k : Queue) {seq n : Nat} {f : Entry → Entry} (hf : ∀ x, (f x).hdr.seq = x.hdr.seq) (h : n ≠ seq) :
    (k.modEntry seq f).entry n = k.entry n := by
  unfold Queue.entry Queue.modEntry
  dsimp only
  induction k.entries with
  | nil => rfl
  | cons a l ih =>
    rw [List.map_cons, List.find?_cons, List.find?_cons, ih]
    by_cases ha : a.hdr.seq = seq
    · simp [ha, hf, beq_eq_false_iff_ne.2 h.symm]
    · simp [ha]

theorem queue_modQueue_of_ne (d : Dev) (q : Nat) {f : Queue → Queue} (h : f (d.queue q) ≠ Queue.off) :
    (d.modQueue q f).queue q = f (d.queue q) := queue_setQueue_of_ne d q h

/-- A change of one packet leaves every other packet. -/
theorem entry_modEntry_ne {d : Dev} {c c' : CmdRef} {e : Entry} {f : Entry → Entry} (hf : ∀ x, (f x).hdr.seq = x.hdr.seq)
    (h : d.entry c = some e) (hne : c' ≠ c) : (d.modEntry c f).entry c' = d.entry c' := by
  obtain ⟨q, n⟩ := c
  obtain ⟨q', n'⟩ := c'
  unfold Dev.entry Dev.modEntry at *
  dsimp only at *
  by_cases hq : q' = q
  · subst hq
    have hsome : ((d.queue q').modEntry n f).entries ≠ [] := by
      simpa [Queue.modEntry] using entries_ne_nil h
    rw [queue_modQueue_of_ne d q' (fun hoff => hsome (by rw [hoff]; rfl))]
    exact queue_entry_modEntry_ne _ hf (fun hn => hne (by rw [hn]))
  · rw [Dev.modQueue, queue_setQueue_ne d _ hq]

theorem entry_setPhase_ne {d : Dev} {c c' : CmdRef} {e : Entry} (p : Phase) (h : d.entry c = some e) (hne : c' ≠ c) :
    (d.setPhase c p).entry c' = d.entry c' := entry_modEntry_ne (fun _ => rfl) h hne

/-! ### What the end of a run leaves (R261, R262) -/

/-- What a run that issued marks on its packet. -/
def Entry.marked (e : Entry) (ce : Bool) : Entry := { e with ce := ce, issued := true }

/-- R239, R664: a run that issued counts its corrected errors and its cycles, and marks its packet. -/
theorem issuedRun_dev (d : Dev) (c : CmdRef) (e : Entry) (x : Ctx) (least : Nat) :
    (d.issuedRun c e x least).2.2 =
      ((d.correctAll x.ces).spend (e.marked (e.ce || !x.ces.isEmpty)) least).2.modEntry c (·.marked (e.ce || !x.ces.isEmpty)) := rfl

/-- R258: a run that fails has issued and is counted, by free values, and its packet fails. -/
theorem ranFail_dev (d : Dev) (c : CmdRef) (e : Entry) (f : Fail) (x : Ctx) : ∃ rows frozen n, d.ranFail c e f x =
    ((({ d with free := d.free + 1 } : Dev).issuedRun c e x frozen).2.2.countRun e rows frozen n).failEntry c
      (e.marked (e.ce || !x.ces.isEmpty)) f n := ⟨_, _, _, rfl⟩

/-- What no run changes of the memories: their bytes, the uses of their pages and their uncorrectable errors. -/
def Mem.outside (m : Mem) : Mem :=
  { Mem.reset with bytes := m.bytes, host := m.host, skein := m.skein, hbm := m.hbm, ddr := m.ddr, ue := m.ue }

/-- R261: what the end of a run leaves of the block: all but its packets, its partitions' accounts and fault latches, its
Spindles, and what counts or latches errors. -/
def Dev.outside (d : Dev) : Dev :=
  { d with qs := { Queues.reset with tokens := d.qs.tokens }, sp := [], mem := d.mem.outside, parts := Dev.initial.parts, errDue := [], free := 0 }

@[simp] theorem correct_outside (m : Mem) (s : Nat) : (m.correct s).outside = m.outside := by
  unfold Mem.correct
  split
  · dsimp only
    split <;> rfl
  · rfl

@[simp] theorem noteUe_outside (m : Mem) (a : Nat) : (m.noteUe a).outside = m.outside := by
  unfold Mem.noteUe
  split
  · rfl
  · split <;> rfl
  · rfl

theorem modMem_outside (d : Dev) {f : Mem → Mem} (h : (f d.mem).outside = d.mem.outside) : (d.modMem f).outside = d.outside := by
  unfold Dev.outside
  rw [modMem_mem, h]
  rfl

@[simp] theorem correctAll_outside (d : Dev) (l : List Nat) : (d.correctAll l).outside = d.outside := by
  induction l generalizing d with
  | nil => rfl
  | cons s l ih => exact (ih (d.modMem (·.correct s))).trans (modMem_outside d (correct_outside d.mem s))

@[simp] theorem account_outside (d : Dev) (q p : Nat) (f : Acct → Acct) : (d.account q p f).outside = d.outside := by
  unfold Dev.account
  dsimp only
  split <;> rfl

@[simp] theorem modEntry_outside (d : Dev) (c : CmdRef) (f : Entry → Entry) : (d.modEntry c f).outside = d.outside := rfl
@[simp] theorem setPhase_outside (d : Dev) (c : CmdRef) (p : Phase) : (d.setPhase c p).outside = d.outside := rfl
@[simp] theorem modSpin_outside (d : Dev) (s : Nat) (f : Spindle → Spindle) : (d.modSpin s f).outside = d.outside := rfl
@[simp] theorem latchFault_outside (d : Dev) (seq : Nat) (l : FaultInfo) : (d.latchFault seq l).outside = d.outside := rfl
@[simp] theorem due_outside (d : Dev) (e : ErrorInfo) : (d.due e).outside = d.outside := rfl

@[simp] theorem countRun_outside (d : Dev) (e : Entry) (rows frozen n : Nat) : (d.countRun e rows frozen n).outside = d.outside := by
  unfold Dev.countRun
  split <;> rfl

@[simp] theorem issuedRun_outside (d : Dev) (c : CmdRef) (e : Entry) (x : Ctx) (least : Nat) :
    (d.issuedRun c e x least).2.2.outside = d.outside :=
  (account_outside { d.correctAll x.ces with free := (d.correctAll x.ces).free + 1 } ..).trans (correctAll_outside d x.ces)

/-- R261: a run that ends well leaves all that `outside` names. -/
theorem ranOk_outside (d : Dev) (c : CmdRef) (e : Entry) (k : Counts) (x : Ctx) : (d.ranOk c e k x).outside = d.outside := by
  unfold Dev.ranOk
  simp

@[simp] theorem giveUp_outside (d : Dev) (e : Entry) : (d.giveUp e).outside = d.outside := by
  unfold Dev.giveUp
  split
  · rfl
  · split <;> rfl

/-- R258: outside a chain, what fails leaves all that `outside` names. -/
theorem failEntry_outside (d : Dev) (c : CmdRef) {e : Entry} (f : Fail) (n : Nat) (h : e.chain = none) :
    (d.failEntry c e f n).outside = d.outside := by
  unfold Dev.failEntry
  rw [h]
  dsimp only [Dev.abortChain]
  cases f.latch <;> cases f.ue <;> simp [modMem_outside]

theorem ranFail_outside (d : Dev) (c : CmdRef) {e : Entry} (f : Fail) (x : Ctx) (h : e.chain = none) :
    (d.ranFail c e f x).outside = d.outside := by
  obtain ⟨rows, frozen, n, hfail⟩ := ranFail_dev d c e f x
  rw [hfail, failEntry_outside _ c f n (by exact h), countRun_outside, issuedRun_outside]
  rfl

/-! ### Partitions and Spindles at the end of a run (R107, R138, R543) -/

theorem part_modPart_ne (d : Dev) {p n : Nat} (f : Partition → Partition) (h : n ≠ p) : (d.modPart p f).part n = d.part n :=
  tget_tput_ne _ _ _ h

theorem part_modPart_of_ne (d : Dev) (p : Nat) {f : Partition → Partition} (h : f (d.part p) ≠ Partition.off) :
    (d.modPart p f).part p = f (d.part p) := tget_tput_of_ne _ _ h

/-- R543: the accounting changes nothing of a partition but its account, unless the partition is FREE. -/
theorem account_part {d : Dev} {q p n : Nat} (f : Acct → Acct) (h : 14 ≤ p ∨ n ≠ p ∨ (d.part n).state ≠ .free) :
    ∃ a, (d.account q p f).part n = { d.part n with acct := a } := by
  unfold Dev.account
  dsimp only
  split
  next hp =>
    by_cases hn : n = p
    · subst hn
      refine ⟨f (d.part n).acct, part_modPart_of_ne _ n (fun hoff => ?_)⟩
      rcases h with hge | hne | hstate
      · omega
      · exact hne rfl
      · exact hstate (congrArg Partition.state hoff)
    · exact ⟨_, part_modPart_ne _ _ hn⟩
  next => exact ⟨_, rfl⟩

theorem account_sp (d : Dev) (q p : Nat) (f : Acct → Acct) : (d.account q p f).sp = d.sp := by
  unfold Dev.account
  dsimp only
  split <;> rfl

theorem issuedRun_sp (d : Dev) (c : CmdRef) (e : Entry) (x : Ctx) (least : Nat) : (d.issuedRun c e x least).2.2.sp = d.sp :=
  account_sp { d.correctAll x.ces with free := (d.correctAll x.ces).free + 1 } ..

theorem issuedRun_part {d : Dev} {e : Entry} {n : Nat} (c : CmdRef) (x : Ctx) (least : Nat)
    (h : 14 ≤ e.hdr.part ∨ n ≠ e.hdr.part ∨ (d.part n).state ≠ .free) :
    ∃ a, (d.issuedRun c e x least).2.2.part n = { d.part n with acct := a } :=
  account_part (d := { d.correctAll x.ces with free := (d.correctAll x.ces).free + 1 }) _ h

/-- What a run counts goes to the Spindle that its packet names. -/
theorem countRun_sp {d d' : Dev} {e : Entry} (rows frozen n : Nat) (hsp : d'.sp = d.sp) (hspindle : d'.spindleOf e = d.spindleOf e) :
    (d'.countRun e rows frozen n).sp = (d.countRun e rows frozen n).sp := by
  unfold Dev.countRun
  split
  · rw [modSpin_sp, modSpin_sp, hspindle, hsp]
    simp only [Dev.spin, hsp]
  · exact hsp

/-- R107, R138: of the Spindles, a run that issued and is counted changes what `countRun` gives alone. -/
theorem issuedRun_countRun_sp {d : Dev} {e : Entry} (c : CmdRef) (x : Ctx) (least rows frozen n : Nat)
    (h : 14 ≤ e.hdr.part ∨ (d.part e.hdr.part).state ≠ .free) :
    ((d.issuedRun c e x least).2.2.countRun e rows frozen n).sp = (d.countRun e rows frozen n).sp := by
  obtain ⟨a, hpart⟩ := issuedRun_part (n := e.hdr.part) c x least (h.imp_right .inr)
  refine countRun_sp rows frozen n (issuedRun_sp d c e x least) ?_
  simp only [Dev.spindleOf, hpart]

theorem countRun_parts (d : Dev) (e : Entry) (rows frozen n : Nat) : (d.countRun e rows frozen n).parts = d.parts := by
  unfold Dev.countRun
  split <;> rfl

/-! ### The packet at the end of a run -/

theorem spend_entry (d : Dev) (e : Entry) (least : Nat) (c : CmdRef) : (d.spend e least).2.entry c = d.entry c :=
  account_entry { d with free := d.free + 1 } ..

theorem issuedRun_entry {d : Dev} {c : CmdRef} {e₀ : Entry} (e : Entry) (x : Ctx) (least : Nat) (h : d.entry c = some e₀) :
    (d.issuedRun c e x least).2.2.entry c = some (e₀.marked (e.ce || !x.ces.isEmpty)) := by
  rw [issuedRun_dev]
  exact entry_modEntry (fun _ => rfl) ((spend_entry ..).trans h)

theorem issuedRun_entry_ne {d : Dev} {c c' : CmdRef} {e₀ : Entry} (e : Entry) (x : Ctx) (least : Nat) (h : d.entry c = some e₀)
    (hne : c' ≠ c) : (d.issuedRun c e x least).2.2.entry c' = d.entry c' := by
  rw [issuedRun_dev]
  have hspent := (spend_entry (d.correctAll x.ces) (e.marked (e.ce || !x.ces.isEmpty)) least c).trans h
  exact (entry_modEntry_ne (f := (·.marked _)) (fun _ => rfl) hspent hne).trans (spend_entry (d.correctAll x.ces) _ least c')

/-- A run that ends well leaves every other packet. -/
theorem ranOk_entry_ne {d : Dev} {c c' : CmdRef} {e₀ : Entry} (e : Entry) (k : Counts) (x : Ctx) (h : d.entry c = some e₀)
    (hne : c' ≠ c) : (d.ranOk c e k x).entry c' = d.entry c' := by
  unfold Dev.ranOk
  dsimp only
  rw [entry_setPhase_ne _ ((countRun_entry ..).trans (issuedRun_entry e x _ h)) hne, countRun_entry, issuedRun_entry_ne e x _ h hne]

theorem giveUp_qs (d : Dev) (e : Entry) : (d.giveUp e).qs = d.qs := by
  unfold Dev.giveUp
  split
  · rfl
  · split <;> rfl

theorem failEntry_qs (d : Dev) (c : CmdRef) {e : Entry} (f : Fail) (n : Nat) (h : e.chain = none) :
    (d.failEntry c e f n).qs = (d.setPhase c (.done (e.failure f.status n))).qs := by
  unfold Dev.failEntry
  rw [h]
  cases f.latch <;> cases f.ue <;> exact giveUp_qs ..

/-- R258: a packet outside a chain that fails ends with its failure. -/
theorem failEntry_entry {d : Dev} {c : CmdRef} {e e₀ : Entry} (f : Fail) (n : Nat) (h : e.chain = none) (hentry : d.entry c = some e₀) :
    (d.failEntry c e f n).entry c = some { e₀ with phase := .done (e.failure f.status n) } := by
  rw [← entry_setPhase _ hentry]
  exact congrArg (fun t : Queues => (tget Queue.off t.q c.queue).entry c.seq) (failEntry_qs d c f n h)

theorem failure_status (e : Entry) (status n : Nat) : (e.failure status n).status = status ∧ (e.failure status n).effects = [] := by
  unfold Entry.failure
  dsimp only
  split
  · split <;> exact ⟨rfl, rfl⟩
  · exact ⟨rfl, rfl⟩

theorem giveUp_sp {d : Dev} {e : Entry} (h : ∀ p, e.payload ≠ .vecRun p) : (d.giveUp e).sp = d.sp := by
  unfold Dev.giveUp
  split
  · rfl
  · split
    next p hp => exact absurd hp (h p)
    next => rfl

/-- R223: only a vector program's failure gives back tile-queue entries. -/
theorem failEntry_sp {d : Dev} (c : CmdRef) {e : Entry} (f : Fail) (n : Nat) (h : e.chain = none) (hp : ∀ p, e.payload ≠ .vecRun p) :
    (d.failEntry c e f n).sp = d.sp := by
  unfold Dev.failEntry
  rw [h]
  cases f.latch <;> cases f.ue <;> exact giveUp_sp hp

/-! ### Runs that end well and runs that fail -/

/-- Settles O42: `ranOk_outside` for all that a run leaves, `issuedRun_countRun_sp` for the Spindles, `issuedRun_part` for the
partitions, `ranOk_entry` and `ranOk_entry_ne` for the packets. -/
theorem runHoldsItsEffects : Obligations.RunHoldsItsEffects := by
  unfold Obligations.RunHoldsItsEffects
  intro s c e m k x hentry hrun
  rw [run_ok hrun]
  intro d
  have hout : d.outside = s.dev.outside := ranOk_outside s.dev c e k x
  refine ⟨congrArg (·.qs.tokens) hout, congrArg (·.wick) hout, congrArg (·.reqs) hout, congrArg (·.links) hout,
    congrArg (·.xch) hout, congrArg (·.train) hout, congrArg (·.lamp) hout, congrArg (·.power) hout, congrArg (·.clk) hout,
    congrArg (·.paths) hout, congrArg (·.mem.bytes) hout, congrArg (·.mem.host) hout, congrArg (·.mem.skein) hout,
    congrArg (·.mem.hbm) hout, congrArg (·.mem.ddr) hout, congrArg (·.mem.ue) hout,
    issuedRun_countRun_sp c x _ _ _ _, ?parts, ⟨_, ranOk_entry hentry, _, rfl, rfl, rfl⟩,
    fun n hn => ranOk_entry_ne e k x hentry (fun h => hn (congrArg CmdRef.seq h))⟩
  case parts =>
    intro p hp
    obtain ⟨a, hpart⟩ := issuedRun_part c x (k.frozen e) (.inr hp)
    have hd : d.part p = { s.dev.part p with acct := a } :=
      (congrArg (fun t : Parts => tget Partition.off t.p p) (countRun_parts ..)).trans hpart
    exact ⟨congrArg (·.pt) hd, congrArg (·.state) hd, congrArg (·.spindles) hd⟩

/-- Settles O43: `ranFail_outside` for all that a failing run leaves, `failEntry_sp` for the Spindles, `failEntry_entry` for the
packet. -/
theorem failedRunChangesNothing : Obligations.FailedRunChangesNothing := by
  unfold Obligations.FailedRunChangesNothing
  intro s c e m f x hentry hchain hrun
  obtain ⟨rows, frozen, n, hfail⟩ := ranFail_dev s.dev c e f x
  have hchain' : (e.marked (e.ce || !x.ces.isEmpty)).chain = none := hchain
  have hout := ranFail_outside s.dev c f x hchain
  rw [run_error hrun]
  intro d
  refine ⟨congrArg (·.qs.tokens) hout, congrArg (·.mem.bytes) hout, congrArg (·.mem.host) hout, congrArg (·.wick) hout,
    congrArg (·.reqs) hout, congrArg (·.links) hout, congrArg (·.clk) hout, fun hp hpart => ⟨rows, frozen, n, ?spindles⟩, ?packet⟩
  case spindles =>
    show (s.dev.ranFail c e f x).sp = _
    rw [hfail, failEntry_sp c f n hchain' hp, issuedRun_countRun_sp c x _ _ _ _ (by exact hpart)]
    exact countRun_sp rows frozen n rfl rfl
  case packet =>
    show ∃ e', (s.dev.ranFail c e f x).entry c = some e' ∧ _
    rw [hfail, failEntry_entry f n hchain' ((countRun_entry ..).trans (issuedRun_entry e x frozen (by exact hentry)))]
    exact ⟨_, rfl, _, rfl, failure_status ..⟩

end Sys2Proof.Machine
end

section
/-! PROOFS (O41, O55). The commit point: a signal, and a write of memory. -/

namespace Sys2Proof.Machine

/-! ### Signals (R255, R256) -/

/-- R256: a signal changes tokens alone. -/
theorem signal_dev (d : Dev) (set t v : Nat) : ∃ ts, d.signal set t v = { d with qs := { d.qs with tokens := ts } } := by
  unfold Dev.signal
  split
  · exact ⟨_, rfl⟩
  · exact ⟨_, rfl⟩

theorem token_setToken_ne (d : Dev) {set t p n : Nat} (v : Nat) (ht : t < 64) (hn : n < 64) (hne : (p, n) ≠ (set, t)) :
    (d.setToken set t v).token p n = d.token p n := by
  refine tget_tput_ne _ _ _ fun hkey => hne ?_
  have hset : p = set := by omega
  have htok : n = t := by omega
  rw [hset, htok]

/-- R255, R256: a signal leaves every token but its own. -/
theorem token_signal_ne (d : Dev) {set t p n : Nat} (v : Nat) (hn : n < 64) (hne : (p, n) ≠ (set, t)) :
    (d.signal set t v).token p n = d.token p n := by
  unfold Dev.signal
  split
  next ht => exact token_setToken_ne d _ ht hn hne
  next => rfl

/-- R256: a token after its signal is the larger of the two values. -/
theorem token_signal_self (d : Dev) {set t v : Nat} (ht : t < 64) (hpos : 0 < max (d.token set t) (v % 2 ^ 64)) :
    (d.signal set t v).token set t = max (d.token set t) (v % 2 ^ 64) := by
  rw [Dev.signal, if_pos ht]
  exact tget_tput_of_ne _ _ hpos.ne'

/-! ### What a commit meets (R263, R268) -/

/-- R263: old bytes are kept, or let go, beside the memory that readers see. -/
theorem keepOld_dev (d : Dev) (c : Option CmdRef) (rs : List (Nat × Nat)) :
    ∃ n l, d.keepOld c rs = { d with qs := { d.qs with nextOrder := n }, mem := { d.mem with stale := l } } := by
  unfold Dev.keepOld
  dsimp only
  split
  · exact ⟨_, _, rfl⟩
  · exact ⟨_, _, rfl⟩

/-- A commit that writes nothing lets old bytes go and changes nothing else. -/
theorem keepOld_nil (d : Dev) (c : Option CmdRef) : ∃ l, d.keepOld c [] = { d with mem := { d.mem with stale := l } } := by
  unfold Dev.keepOld
  rw [if_pos (by simp)]
  exact ⟨_, rfl⟩

theorem clearCovered_clean {d : Dev} (es : List Effect) (hue : d.mem.ue = []) (hces : d.mem.ces = []) : d.clearCovered es = d := by
  simp only [Dev.clearCovered, hue, hces, List.isEmpty_nil, Bool.and_self, if_true]

/-- R268: where no sector holds an uncorrectable error, only a held effect's own check can end a command at its commit point. -/
theorem commitFail_clean {d : Dev} {r : Result} (hue : d.mem.ue = []) (hok : ∀ x ∈ r.effects, d.effectStatus x = stOk) :
    d.commitFail r = none := by
  have hnone : (r.effects.map d.effectStatus).find? (fun st => st != stOk) = none := by
    simpa [List.find?_eq_none] using hok
  simp only [Dev.commitFail, Dev.partialUe, hue, hnone, List.find?_nil, Option.map_none]

theorem partialCe_clean {d : Dev} (es : List Effect) (hces : d.mem.ces = []) : d.partialCe es = false := by
  simp only [Dev.partialCe, hces, List.any_nil]

theorem logCommand_off {e : Entry} (d : Dev) (status : Nat) (h : e.hdr.log = false) : d.logCommand e status = d := by
  simp only [Dev.logCommand, h, Bool.false_eq_true, if_false]

/-- R503: bytes published where no sector holds an error; what else changes is the dirty bits of snapshot sets. -/
theorem poke_clean {d : Dev} (trd : Bool) (pa : Nat) (data : List Byte) (hue : d.mem.ue = []) (hces : d.mem.ces = []) :
    d.poke trd pa data = { d with
      mem := { d.mem with bytes := putBytes d.mem.bytes pa data }, train := (d.markDirty trd pa data).train } := by
  have hmerge : d.mergePartial pa data.length = d := by
    simp only [Dev.mergePartial, hces, List.filter_nil, Dev.correctAll, List.foldl_nil, modMem_mem, hue]
    rfl
  rw [Dev.poke, hmerge]
  simp only [Dev.markDirty, Dev.modTraining, Dev.modMem, hue, hces, List.filter_nil]

theorem finalCounts_status (before after : Dev) (e : Entry) (r : Result) : (finalCounts before after e r).status = r.status := by
  unfold finalCounts
  split <;> rfl

/-! ### Commits (R256, R261) -/

/-- R256, R261: the commit of a NOP is its signal, and its outcome is its result. -/
theorem publish_nop {d : Dev} {c : CmdRef} {e : Entry} {r : Result} (hp : e.payload = .nop) (heff : r.effects = [])
    (hue : d.mem.ue = []) (hces : d.mem.ces = []) (hlog : e.hdr.log = false) :
    d.publish c e r = ((d.keepOld (some c) []).signalFor e).modEntry c (fun x => { x with phase := .done r }) := by
  obtain ⟨l, hkeep⟩ := keepOld_nil d (some c)
  have hr : { r with ce := r.ce || false, effects := [] } = r := by rw [Bool.or_false, ← heff]
  simp only [Dev.publish, heff, writeRanges, List.filterMap_nil, List.filter_nil, List.foldl_nil, Dev.killHeldOf, logCommand_off _ _ hlog,
    finalCounts, hp, partialCe_clean _ hces, hr, hkeep]
  rw [clearCovered_clean [] (by exact hue) (by exact hces)]

/-- Settles O41: the commit of a NOP is its signal (`publish_nop`), which raises its own token alone (`token_setToken_ne`). -/
theorem commitSignals : Obligations.CommitSignals := by
  unfold Obligations.CommitSignals
  intro s c e r hcalm hentry hphase hchain heff hue hces hlog hp set d₀ d
  obtain ⟨l, hkeep⟩ := keepOld_nil s.dev (some c)
  have hd₀ : d₀ = { s.dev with mem := { s.dev.mem with stale := l } } := hkeep
  have hsignal : d₀.signalFor e = d := by
    show d₀.signal set e.hdr.sig e.hdr.sigVal = d
    have htoken : d₀.token set e.hdr.sig = s.dev.token set e.hdr.sig := by rw [hd₀]; rfl
    rw [Dev.signal, htoken]
  have hmore : s.dev.moreToFlush e = false := by rw [Dev.moreToFlush, hp]
  have hok : s.dev.commitFail r = none := commitFail_clean hue (by rw [heff]; exact fun _ h => absurd h List.not_mem_nil)
  refine ⟨runCalm (f := (doCommandCommit · c)) ?commit ?calm, fun p t hne ht hsig => ?others⟩
  case commit =>
    rw [doCommandCommit_unchained hentry hchain hmore, commitOne_publishes hentry hphase hok, publish_nop hp heff hue hces hlog]
    exact congrArg (fun b : Dev => b.modEntry c _) hsignal
  case calm =>
    obtain ⟨ts, hts⟩ := signal_dev d₀ set e.hdr.sig e.hdr.sigVal
    rw [modEntry_errDue, ← hsignal, Dev.signalFor, hts, hd₀]
    exact hcalm
  case others =>
    show (if e.hdr.sig < 64 then _ else d₀).token p t = _
    rw [if_pos hsig, token_setToken_ne _ _ hsig ht hne, hd₀]
    rfl

/-- The block with other bytes in device memory, with what a commit keeps for readers and for snapshot sets. -/
def Dev.rewritten (d : Dev) (bytes : List Host.Cell) (n : Nat) (l : List Stale) (t : Training) : Dev :=
  { d with qs := { d.qs with nextOrder := n }, mem := { d.mem with bytes := bytes, stale := l }, train := t }

/-- R261, R263: the commit of one write of memory stores its bytes, then signals. -/
theorem publish_write {d : Dev} {e : Entry} {r : Result} {pa : Nat} {data : List Byte} (c : CmdRef) (heff : r.effects = [.mem pa data])
    (hue : d.mem.ue = []) (hces : d.mem.ces = []) (hlog : e.hdr.log = false) : ∃ n l t r', r'.status = r.status ∧ d.publish c e r =
    ((d.rewritten (putBytes d.mem.bytes pa data) n l t).signalFor e).modEntry c (fun x => { x with phase := .done r' }) := by
  obtain ⟨n, l, hkeep⟩ := keepOld_dev d (some c) (writeRanges r.effects)
  rw [Dev.publish, hkeep, clearCovered_clean _ (by exact hue) (by exact hces), heff]
  simp only [List.filter_cons, isLate, Bool.not_false, if_true, List.filter_nil, List.foldl_cons, List.foldl_nil, Dev.apply, Dev.killHeldOf,
    logCommand_off _ _ hlog]
  rw [poke_clean _ _ _ (by exact hue) (by exact hces)]
  refine ⟨n, l, _, _, ?_, rfl⟩
  exact finalCounts_status ..

/-- Settles O55: the commit is `publish_write`; a byte after it is that of `getByte_putBytes`, a token that of `token_signal_self` or
`token_signal_ne`, a packet that of `entry_modEntry` or `entry_modEntry_ne`. -/
theorem commitWritesMemory : Obligations.CommitWritesMemory := by
  unfold Obligations.CommitWritesMemory
  intro s c e r pa data hcalm hentry hphase hchain heff hmore hue hces hlog set
  obtain ⟨n, l, t, r', hstatus, hpub⟩ := publish_write c heff hue hces hlog
  have hok : s.dev.commitFail r = none := commitFail_clean hue (by rw [heff]; simp [Dev.effectStatus])
  have hcommit := (doCommandCommit_unchained hentry hchain hmore).trans ((commitOne_publishes hentry hphase hok).trans hpub)
  let w := s.dev.rewritten (putBytes s.dev.mem.bytes pa data) n l t
  obtain ⟨ts, hsignal⟩ := signal_dev w set e.hdr.sig e.hdr.sigVal
  have hmine : (w.signalFor e).entry c = some e := by rw [Dev.signalFor, hsignal]; exact hentry
  have htoken : ∀ p i, (({ w with qs := { w.qs with tokens := ts } } : Dev).modEntry c (fun x => { x with phase := .done r' })).token p i =
    (w.signal set e.hdr.sig e.hdr.sigVal).token p i := fun p i => by rw [hsignal]; rfl
  rw [Dev.signalFor, hsignal] at hcommit hmine
  refine ⟨_, runCalm (f := (doCommandCommit · c)) hcommit hcalm, rfl, getByte_putBytes _ pa data, rfl, rfl, rfl, rfl, hue, hces,
    fun hsig hpos => (htoken ..).trans (token_signal_self w hsig hpos),
    fun p i hi hne => (htoken ..).trans (token_signal_ne w _ hi hne), ⟨r', entry_modEntry (fun _ => rfl) hmine, hstatus⟩, ?others,
    rfl, rfl, rfl, rfl, rfl, rfl, rfl, rfl, rfl⟩
  intro i hi
  exact (entry_modEntry_ne (f := fun x => { x with phase := .done r' }) (fun _ => rfl) hmine (fun h => hi (congrArg CmdRef.seq h)))

end Sys2Proof.Machine
end

section
/-! PROOFS (O38, O39, O44). Doorbells, and the writing of a record. -/

namespace Sys2Proof.Machine

/-! ### Doorbells (R248 to R250) -/

/-- R248: a doorbell message of a kind that its command does not take. -/
theorem doSubmissionDoorbell_other {d : Dev} {head : Nat} (value : Nat) (h : head / 256 % 256 ≠ 0) :
    doSubmissionDoorbell d head value = d := if_neg h

theorem doCompletionDoorbell_other {d : Dev} {head : Nat} (value : Nat) (h : head / 256 % 256 ≠ 1) :
    doCompletionDoorbell d head value = d := if_neg h

theorem doSubmissionDoorbell_rings {d : Dev} {head : Nat} (value : Nat) (h : head / 256 % 256 = 0) :
    doSubmissionDoorbell d head value = d.modQueue (head % 256) (·.ringTail value) := by
  have hkind : bellKind head = 0 := h
  simp only [doSubmissionDoorbell, Dev.doorbell, hkind, if_true]
  rfl

theorem doCompletionDoorbell_rings {d : Dev} {head : Nat} (value : Nat) (h : head / 256 % 256 = 1) :
    doCompletionDoorbell d head value = d.modQueue (head % 256) (·.ringHead value) := by
  have hkind : bellKind head = 1 := h
  simp only [doCompletionDoorbell, Dev.doorbell, hkind, if_true]
  rfl

/-- R249, R250: a doorbell that changes its queue leaves no error waiting. -/
theorem runBell {s : State} {f : Dev → Dev} {q : Nat} {g : Queue → Queue} {v : Queue} (hcalm : s.dev.errDue = [])
    (hf : f s.dev = s.dev.modQueue q g) (hg : g (s.dev.queue q) = v) : s.runDev f = .next (s.withDev (s.dev.setQueue q v)) :=
  runCalm (hf.trans (congrArg (s.dev.setQueue q) hg)) hcalm

theorem ignoreDoorbell_plain (k : Queue) : k.ignoreDoorbell false = { k with dbIgnored := min 0xFFFFFFFF (k.dbIgnored + 1) } := by
  simp only [Queue.ignoreDoorbell, Bool.or_false, max32]

theorem ignoreDoorbell_over (k : Queue) :
    k.ignoreDoorbell true = { k with dbIgnored := min 0xFFFFFFFF (k.dbIgnored + 1), overrun := true } := by
  simp only [Queue.ignoreDoorbell, Bool.or_true, max32]

/-- Settles O38: the message of another kind by `doSubmissionDoorbell_other`, the rows of R249 by the branches of `ringTail`. -/
theorem submissionDoorbellRule : Obligations.SubmissionDoorbellRule := by
  unfold Obligations.SubmissionDoorbellRule
  refine ⟨fun s hi lo hcalm hkind => runSame (f := (doSubmissionDoorbell · hi.toNat lo.toNat)) hcalm (doSubmissionDoorbell_other _ hkind), ?_⟩
  intro s hi lo hcalm hkind q v k d
  have hbell := doSubmissionDoorbell_rings (d := s.dev) lo.toNat hkind
  have hv : lo.toNat % 2 ^ 32 = v := Nat.mod_eq_of_lt lo.isLt
  refine ⟨fun hstale => ?stale, fun hfresh hover => ?overrun, fun hfresh hroom => ?taken⟩ <;>
    refine runBell (f := (doSubmissionDoorbell · hi.toNat lo.toNat)) hcalm hbell ?_ <;>
    simp only [Queue.ringTail, hv]
  case stale => exact (if_pos hstale).trans (ignoreDoorbell_plain k)
  case overrun => exact (if_neg hfresh).trans ((if_pos hover).trans (ignoreDoorbell_over k))
  case taken => exact (if_neg hfresh).trans (if_neg (Nat.not_lt.2 hroom))

/-- Settles O39: the message of another kind by `doCompletionDoorbell_other`, the rest by the branches of `ringHead`. -/
theorem completionDoorbellRule : Obligations.CompletionDoorbellRule := by
  unfold Obligations.CompletionDoorbellRule
  refine ⟨fun s hi lo hcalm hkind => runSame (f := (doCompletionDoorbell · hi.toNat lo.toNat)) hcalm (doCompletionDoorbell_other _ hkind), ?_⟩
  intro s hi lo hcalm hkind q v k d past
  have hbell := doCompletionDoorbell_rings (d := s.dev) lo.toNat hkind
  have hv : lo.toNat % 2 ^ 32 = v := Nat.mod_eq_of_lt lo.isLt
  refine ⟨fun hstale => ?stale, fun hfresh hne hover => ?overrun, fun hfresh hroom => ?taken⟩ <;>
    refine runBell (f := (doCompletionDoorbell · hi.toNat lo.toNat)) hcalm hbell ?_ <;>
    simp only [Queue.ringHead, hv]
  case stale => exact (if_pos hstale).trans (ignoreDoorbell_plain k)
  case overrun => exact (if_neg hfresh).trans ((if_pos ⟨hne, hover⟩).trans (ignoreDoorbell_over k))
  case taken =>
    have hin : ¬(past ≠ 0 ∧ past < 2 ^ 31) := by omega
    exact (if_neg hfresh).trans (if_neg hin)

/-! ### What the writing of a record changes of the queues (R246, R267) -/

theorem mergePartial_clean {d : Dev} (pa n : Nat) (hue : d.mem.ue = []) :
    d.mergePartial pa n = d.correctAll (d.mem.ces.filter (partSector pa n)) := by
  have hnone : (d.correctAll (d.mem.ces.filter (partSector pa n))).mem.ue = [] :=
    (congrArg (·.mem.ue) (correctAll_outside d _)).trans hue
  simp only [Dev.mergePartial, hnone, List.filter_nil, List.foldl_nil]

/-- `d'` has the queues of `d`, and no error waits in it that does not wait in `d`. -/
def SameQueues (d d' : Dev) : Prop := d'.qs.q = d.qs.q ∧ d'.errDue = d.errDue

theorem sameQueues_poke {d : Dev} (trd : Bool) (pa : Nat) (data : List Byte) (hue : d.mem.ue = []) : SameQueues d (d.poke trd pa data) := by
  rw [Dev.poke, mergePartial_clean pa data.length hue]
  exact ⟨rfl, rfl⟩

theorem sameQueues_account (d : Dev) (q p : Nat) (f : Acct → Acct) : SameQueues d (d.account q p f) :=
  ⟨account_q d q p f, account_errDue d q p f⟩

theorem sameQueues_linksOnly {f : Dev → Dev} (hf : LinksOnly f) (d : Dev) : SameQueues d (f d) := by
  rw [hf d]
  exact ⟨rfl, rfl⟩

/-- R600, R601: a notify goes to the host, to the bridge, or waits. -/
theorem sameQueues_notify (d : Dev) (vec : Nat) : SameQueues d (d.notify vec) := by
  unfold Dev.notify Dev.hostBound
  split
  · exact ⟨rfl, rfl⟩
  · split
    · exact ⟨rfl, rfl⟩
    · exact sameQueues_linksOnly (linksOnly_sendMsg none _ _) d

theorem sameQueues_noteUpdate (d : Dev) (e : Entry) (r : Result) : SameQueues d (d.noteUpdate e r) := by
  unfold Dev.noteUpdate
  split
  · split <;> exact ⟨rfl, rfl⟩
  · exact ⟨rfl, rfl⟩

theorem SameQueues.trans {a b c : Dev} (h : SameQueues a b) (h' : SameQueues b c) : SameQueues a c :=
  ⟨h'.1.trans h.1, h'.2.trans h.2⟩

theorem sameQueues_ite {d a : Dev} (b : Bool) (h : SameQueues d a) : SameQueues d (if b then a else d) := by
  cases b
  · exact ⟨rfl, rfl⟩
  · exact h

/-- R246: one more record is written. -/
def Queue.counted (k : Queue) : Queue := { k with written := (k.written + 1) % 2 ^ 32 }

/-- R259, R267: the record of the first packet, whose outcome is `r`, takes it; the other packets are `rest`. -/
def Queue.taken (k : Queue) (rest : List Entry) (r : Result) (bad halts : Bool) : Queue :=
  { k with
    entries := rest, lastStatus := r.status, badHeader := k.badHeader || bad,
    state := if halts && k.state == .running then .halted else k.state, haltDue := k.haltDue && !halts }

theorem taken_live {k : Queue} (rest : List Entry) (r : Result) (bad halts : Bool) (h : k.state ≠ .disabled) :
    (k.taken rest r bad halts).state ≠ .disabled := by
  unfold Queue.taken
  dsimp only
  split
  · decide
  · exact h

/-- R246: a record is stored in its ring and counted in its queue. -/
theorem putRecord_plain (d : Dev) {q : Nat} (seq : Nat) (rec out : List Byte) (hq : q ≠ 1) : d.putRecord q seq rec out =
    (d.poke false (ringAddr (d.queue q).cqPages (32 * ((d.queue q).written % 2 ^ (d.queue q).cqLog2))) rec).modQueue q (·.counted) := by
  have hlocal : d.localQueue q = false := by simp [Dev.localQueue, hq]
  simp only [Dev.putRecord, Dev.putRing, Dev.sbRecord, hlocal, hq, Bool.false_eq_true, if_false]
  rfl

/-- R267, R510, R543: what follows a record: its yield is counted, its notify goes, and an update is noted. -/
def Dev.recordEnds (d : Dev) (q vec : Nat) (e : Entry) (r : Result) : Dev :=
  let d := if e.yielded then d.account q e.hdr.part countYield else d
  let d := if e.hdr.notify then d.notify vec else d
  d.noteUpdate e r

theorem sameQueues_recordEnds (d : Dev) (q vec : Nat) (e : Entry) (r : Result) : SameQueues d (d.recordEnds q vec e r) :=
  ((sameQueues_ite e.yielded (sameQueues_account ..)).trans (sameQueues_ite e.hdr.notify (sameQueues_notify ..))).trans
    (sameQueues_noteUpdate ..)

/-- The block once the record of a queue's first packet is stored and counted, and the packet taken. -/
def Dev.stored (d : Dev) (q pa : Nat) (rec : List Byte) (rest : List Entry) (r : Result) (bad halts : Bool) : Dev :=
  ((d.poke false pa rec).modQueue q (·.counted)).modQueue q (·.taken rest r bad halts)

/-- R246, R267: the record of a packet without request records; a removed queue that it empties is forgotten. -/
theorem writeFirst_plain (d : Dev) {q : Nat} {e : Entry} (rest : List Entry) (r : Result) (hq : q ≠ 1) (hreq : e.reqRecords = []) :
    ∃ pa rec bad halts t, t = (d.stored q pa rec rest r bad halts).recordEnds q (d.queue q).vec e r ∧ d.writeFirst q e rest r =
      if (t.queue q).state = .disabled ∧ rest.isEmpty then { t with qs := { t.qs with q := terase t.qs.q q } } else t := by
  have hnoreq : d.putReqRecords q e = d := by rw [Dev.putReqRecords, hreq, List.foldl_nil]
  unfold Dev.writeFirst
  simp only [hnoreq, putRecord_plain _ _ _ _ hq, hq, if_false]
  exact ⟨_, _, _, _, _, rfl, rfl⟩

theorem ne_off_of_live {k : Queue} (h : k.state ≠ .disabled) : k ≠ Queue.off := fun hoff => h (by rw [hoff]; rfl)

theorem sameQueues_queue {d d' : Dev} (h : SameQueues d d') (q : Nat) : d'.queue q = d.queue q := by
  simp only [Dev.queue, h.1]

/-- R246, R267: the queue after the record of its first packet. -/
theorem writeFirst_queue {d : Dev} {q : Nat} {e : Entry} (rest : List Entry) (r : Result) (hue : d.mem.ue = []) (hq : q ≠ 1)
    (hlive : (d.queue q).state ≠ .disabled) (hreq : e.reqRecords = []) : ∃ bad halts,
    (d.writeFirst q e rest r).queue q = (d.queue q).counted.taken rest r bad halts ∧ (d.writeFirst q e rest r).errDue = d.errDue := by
  obtain ⟨pa, rec, bad, halts, t, ht, hwrite⟩ := writeFirst_plain d rest r hq hreq
  have hpoke := sameQueues_poke false pa rec hue
  have hafter := taken_live (k := (d.queue q).counted) rest r bad halts hlive
  have hcounted : ((d.poke false pa rec).modQueue q (·.counted)).queue q = (d.queue q).counted := by
    rw [queue_modQueue_of_ne, sameQueues_queue hpoke]
    exact ne_off_of_live (by rw [sameQueues_queue hpoke]; exact hlive)
  have hstored : (d.stored q pa rec rest r bad halts).queue q = (d.queue q).counted.taken rest r bad halts := by
    rw [Dev.stored, queue_modQueue_of_ne, hcounted]
    rw [hcounted]
    exact ne_off_of_live hafter
  have hends := sameQueues_recordEnds (d.stored q pa rec rest r bad halts) q (d.queue q).vec e r
  have hqueue : t.queue q = (d.queue q).counted.taken rest r bad halts := by rw [ht, sameQueues_queue hends, hstored]
  rw [hwrite, if_neg (fun h => hafter (by rw [← hqueue]; exact h.1))]
  exact ⟨bad, halts, hqueue, by rw [ht, hends.2]; exact hpoke.2⟩

/-- Settles O44: the record is the queue's first (`doRecordWrite_first`), and the queue after it is that of `writeFirst_queue`. -/
theorem recordAdvancesQueue : Obligations.RecordAdvancesQueue := by
  unfold Obligations.RecordAdvancesQueue
  intro s q e rest r hcalm hue hq hchain hentries hphase hstate hreq
  have hsaved : (s.dev.queue q).state ≠ .saved := by rcases hstate with h | h <;> rw [h] <;> decide
  have hlive : (s.dev.queue q).state ≠ .disabled := by rcases hstate with h | h <;> rw [h] <;> decide
  have howes : s.dev.chainOwes e = false := by rw [Dev.chainOwes, hchain]; rfl
  obtain ⟨bad, halts, hqueue, hdue⟩ := writeFirst_queue rest r hue hq hlive hreq
  refine ⟨_, runCalm (f := (doRecordWrite · q)) (doRecordWrite_first hentries hphase hsaved howes) (hdue.trans hcalm), ?_⟩
  rw [withDev_dev, hqueue]
  exact ⟨rfl, rfl, rfl, rfl, rfl, rfl⟩

end Sys2Proof.Machine
end

section
/-! PROOFS (O1 to O4). NOP, TIMESTAMP, and the commands that create, destroy and resume a queue. -/

namespace Sys2Proof.Machine

/-! ### NOP and TIMESTAMP (R240) -/

/-- Settles O1: either run makes what it holds and cannot fail (`run_ok`). -/
theorem simplePacketsComplete : Obligations.SimplePacketsComplete := by
  unfold Obligations.SimplePacketsComplete
  refine ⟨?nop, ?timestamp⟩
  case nop =>
    intro s c e hready hp
    exact runPacket_ok hready (by rw [hp]; exact run_ok (x := .made s.dev c e []) rfl)
  case timestamp =>
    intro s c e hready hp
    exact runPacket_ok hready (by rw [hp]; exact run_ok (x := .made s.dev c e [.tick]) rfl)

/-! ### QUEUE_CREATE (R241 to R243, R283) -/

/-- R243, R283: the run of a creation whose number is free, with room in its partition and fit rings. -/
theorem runQueueCreate_ok {d : Dev} {q part sz cz sqVa cqVa : Nat} (c : CmdRef) (e : Entry) (share vec attr first : Nat)
    (hfree : d.hasQueue q = false) (hroom : (d.queuesOf part).length < 64)
    (hsq : d.ringRangeOk part sqVa (64 * 2 ^ sz) = true) (hcq : d.ringRangeOk part cqVa (32 * 2 ^ cz) = true)
    (hapart : sqVa + 64 * 2 ^ sz ≤ cqVa ∨ cqVa + 32 * 2 ^ cz ≤ sqVa) :
    runQueueCreate q part sz cz share vec attr sqVa cqVa first (.start d c e) = .ok (okCounts 0 0 0) (.made d c e
      [.queueNew q part share vec sz cz sqVa cqVa first (bit attr 0) (d.ringPieces part sqVa (64 * 2 ^ sz))
        (d.ringPieces part cqVa (32 * 2 ^ cz))]) := by
  have hdisjoint : (decide (sqVa + 64 * 2 ^ sz ≤ cqVa) || decide (cqVa + 32 * 2 ^ cz ≤ sqVa)) = true := by
    simpa only [Bool.or_eq_true, decide_eq_true_eq] using hapart
  rw [runQueueCreate, run_getDev_bind]
  simp only [start_dev, seenBy_hasQueue, seenBy_queuesOf, seenBy_ringRangeOk, seenBy_ringPieces, hfree, decide_eq_true hroom, hsq, hcq,
    hdisjoint, Bool.not_false, Bool.and_self, run_require_true_bind, run_hold_bind, run_pure]
  rfl

/-- Settles O2: the creation runs on the block with what waits taken (`runClaimed_ok`), and `runQueueCreate_ok` is its run. -/
theorem queueCreateCompletes : Obligations.QueueCreateCompletes := by
  unfold Obligations.QueueCreateCompletes
  intro s c e q part sz cz share vec attr sqVa cqVa first r hready hp d hfree hroom hsq hcq hapart
  exact runPacket_ok hready (by rw [hp]; exact runClaimed_ok (runQueueCreate_ok c e share vec attr first hfree hroom hsq hcq hapart))

/-! ### Commands in stages -/

/-- A command that has done its work leaves no error that did not wait before. -/
theorem endStages_errDue (d : Dev) (c : CmdRef) (r : Result) : (d.endStages c r).errDue = d.errDue := by
  unfold Dev.endStages
  split
  next e _ => exact account_errDue { d with free := d.free + 1 } ..
  next => rfl

/-! ### QUEUE_DESTROY (R284) -/

/-- R284: the first visit of a destroy kills, in mode 1, what its queue has read, and begins to flush. -/
theorem doQueueDestroy_starts {d : Dev} {c : CmdRef} {e : Entry} {q mode : Nat} {r : Bool} (hentry : d.entry c = some e)
    (hphase : e.phase = .dispatched) (hp : e.payload = .queueDestroy q mode r) (hq : 2 ≤ q) (hlive : (d.queue q).state ≠ .disabled) :
    let mine := fun (x : Entry) => x.hdr.queue == q && x.ref != c
    doQueueDestroy d c = ((if mode = 1 then
        (d.commitTerms mine).killFinally stKilled false ((d.commitTerms mine).killable (fun x => mine x && !x.isWaiting))
      else d).toStage c 1 Result.fresh).destroyGoes c q := by
  have hok : ¬(q < 2 ∨ (d.queue q).state = .disabled) := fun h => h.elim (Nat.not_lt.2 hq) hlive
  simp only [doQueueDestroy, hentry, hp, hphase, if_true, if_neg hok]

/-- R284: a later visit of a destroy. -/
theorem doQueueDestroy_goes {s : State} {c : CmdRef} {e : Entry} {q mode n : Nat} {r : Bool} {res : Result} (h : AtStage s c e n res)
    (hp : e.payload = .queueDestroy q mode r) : doQueueDestroy s.dev c = s.dev.destroyGoes c q := by
  obtain ⟨hentry, hrunning⟩ := h
  have hstage : e.stage.isSome = true := by rw [Entry.stage, hrunning]; rfl
  simp only [doQueueDestroy, hentry, hp, hrunning, reduceCtorEq, if_false, hstage, if_true]

/-- R284: a visit that leaves no packet to read and no record to write is the last one. -/
theorem destroyGoes_ends {d : Dev} {c : CmdRef} {q : Nat} (hwritten : (d.flushAll q false false).dev.recordsWritten q c = true)
    (hread : (d.flushAll q false false).bad = true ∨ (d.flushAll q false false).dev.fetch q = none) :
    d.destroyGoes c q = (d.flushAll q false false).dev.endStages c { Result.fresh with effects := [.queueGone q] } := by
  have hdone : ((d.flushAll q false false).dev.recordsWritten q c &&
      ((d.flushAll q false false).bad || ((d.flushAll q false false).dev.fetch q).isNone)) = true := by
    simpa only [hwritten, Bool.true_and, Bool.or_eq_true, Option.isNone_iff_eq_none] using hread
  exact if_pos hdone

/-- Settles O3: the first visit by `doQueueDestroy_starts`, the last one by `destroyGoes_ends`. -/
theorem queueDestroyCompletes : Obligations.QueueDestroyCompletes := by
  unfold Obligations.QueueDestroyCompletes
  refine ⟨?starts, ?ends⟩
  case starts =>
    intro s c e q mode r hready hp hq hlive mine d
    obtain ⟨hentry, hphase, -, -⟩ := hready
    exact runPut (f := (doQueueDestroy · c)) (doQueueDestroy_starts hentry hphase hp hq hlive)
  case ends =>
    intro s c e q mode r n res hstage hp hcalm hwritten hread
    have hgo := (doQueueDestroy_goes hstage hp).trans (destroyGoes_ends hwritten hread)
    exact runCalm (f := (doQueueDestroy · c)) hgo ((endStages_errDue ..).trans hcalm)

/-! ### QUEUE_RESUME (R260, R285, R286) -/

/-- R260, R285: the first visit of a resume whose queue is halted, with its units at work. -/
theorem doQueueResume_starts {d : Dev} {c : CmdRef} {e : Entry} {q mode head seq : Nat} {r : Bool} (hentry : d.entry c = some e)
    (hphase : e.phase = .dispatched) (hp : e.payload = .queueResume q mode head seq r) (hhalted : (d.queue q).state = .halted)
    (hbad : mode = 2 ∨ (d.queue q).badHeader = false) (hunits : d.queueStopped q = false) :
    doQueueResume d c = d.resumeGoes c q mode head seq { Result.fresh with c1 := (d.queue q).tail } := by
  have hok : ¬((d.queue q).state ≠ .halted ∨ ((d.queue q).badHeader = true ∧ mode ≠ 2) ∨ d.queueStopped q = true) := by
    rintro (h | ⟨hb, hm⟩ | h)
    · exact h hhalted
    · rcases hbad with h | h
      · exact hm h
      · rw [h] at hb; exact absurd hb (by decide)
    · rw [hunits] at h; exact absurd h (by decide)
  simp only [doQueueResume, hentry, hp, hphase, if_true, if_neg hok]

/-- What a resume's flush of mode 0, 1 or 2 takes in one visit. -/
def Dev.resumeFlush (d : Dev) (q mode tail : Nat) : Flushed :=
  match mode with
  | 0 => ⟨d, 0, 0, false⟩
  | 1 => d.flushTo q tail
  | _ => ⟨d.flushWaiting q false, d.waitingIn q, 0, false⟩

/-- R285, R286: the visit of a resume that leaves nothing to flush and no record to write is the last one. -/
theorem resumeGoes_ends {d d' : Dev} {c : CmdRef} {q mode : Nat} (head seq : Nat) {r : Result} {f : Flushed}
    (hf : d.resumeFlush q mode r.c1 = f) (hd : f.dev.toStage c 1 { r with c0 := r.c0 + f.flushed } = d')
    (hwritten : mode ≠ 0 → d'.recordsWritten q c = true) (hmode : mode = 1 → f.bad = false ∧ (d'.queue q).head = r.c1) :
    d.resumeGoes c q mode head seq r = d'.endStages c
      { r with c0 := r.c0 + f.flushed, c1 := 0, effects := [.queueResume q mode head seq] } := by
  have hgoes : d.resumeGoes c q mode head seq r = match d'.entry c with
      | none => d'
      | some e =>
        if mode ≠ 0 ∧ !d'.recordsWritten q c then d'
        else if mode = 1 ∧ f.bad then d'.refuse c e stBadParam
        else if mode = 1 ∧ (d'.queue q).head ≠ r.c1 then d'
        else d'.endStages c { r with c0 := r.c0 + f.flushed, c1 := 0, effects := [.queueResume q mode head seq] } := by
    subst hd hf
    rfl
  rw [hgoes]
  split
  next hnone => simp only [Dev.endStages, hnone]
  next e _ =>
    have hrecords : ¬(mode ≠ 0 ∧ (!d'.recordsWritten q c) = true) := fun ⟨h, h'⟩ => by simp [hwritten h] at h'
    have hheader : ¬(mode = 1 ∧ f.bad = true) := fun ⟨h, h'⟩ => by simp [(hmode h).1] at h'
    have hhead : ¬(mode = 1 ∧ (d'.queue q).head ≠ r.c1) := fun ⟨h, h'⟩ => h' (hmode h).2
    rw [if_neg hrecords, if_neg hheader, if_neg hhead]

/-- R285, R286: a resume that ends in its first visit, with its errors taken. -/
theorem runResume {s : State} {c : CmdRef} {e : Entry} {q mode head seq : Nat} {r : Bool} {f : Flushed} {d : Dev} (hready : Ready s c e)
    (hp : e.payload = .queueResume q mode head seq r) (hhalted : (s.dev.queue q).state = .halted)
    (hbad : mode = 2 ∨ (s.dev.queue q).badHeader = false) (hunits : s.dev.queueStopped q = false)
    (hf : s.dev.resumeFlush q mode (s.dev.queue q).tail = f)
    (hd : f.dev.toStage c 1 { Result.fresh with c0 := f.flushed, c1 := (s.dev.queue q).tail } = d)
    (hwritten : mode ≠ 0 → d.recordsWritten q c = true) (hmode : mode = 1 → f.bad = false ∧ (d.queue q).head = (s.dev.queue q).tail)
    (hcalm : d.errDue = []) : exec (.QUEUE_RESUME c) s = .next (s.withDev (d.endStages c
      { Result.fresh with c0 := f.flushed, effects := [.queueResume q mode head seq] })) := by
  obtain ⟨hentry, hphase, -, -⟩ := hready
  have hzero : Result.fresh.c0 + f.flushed = f.flushed := Nat.zero_add _
  have hends := resumeGoes_ends (r := { Result.fresh with c1 := (s.dev.queue q).tail }) head seq hf (by rw [hzero]; exact hd) hwritten hmode
  have hgo := (doQueueResume_starts hentry hphase hp hhalted hbad hunits).trans hends
  rw [hzero] at hgo
  exact runCalm (f := (doQueueResume · c)) hgo ((endStages_errDue ..).trans hcalm)

/-- Settles O4: each mode is `runResume` with its own flush. -/
theorem queueResumeCompletes : Obligations.QueueResumeCompletes := by
  unfold Obligations.QueueResumeCompletes
  refine ⟨?continues, ?flushes, ?moves⟩
  case continues =>
    intro s c e q head seq r hready hp hhalted hbad hunits
    exact runResume (f := ⟨s.dev, 0, 0, false⟩) hready hp hhalted (.inr hbad) hunits rfl rfl (fun h => absurd rfl h)
      (fun h => absurd h (by decide)) hready.calm
  case flushes =>
    intro s c e q head seq r f d hready hp hhalted hbad hunits hf hclean hd hwritten hhead hcalm
    exact runResume hready hp hhalted (.inr hbad) hunits hf hd (fun _ => hwritten) (fun _ => ⟨hclean, hhead⟩) hcalm
  case moves =>
    intro s c e q head seq r d hready hp hhalted hunits hd hwritten hcalm
    exact runResume (f := ⟨s.dev.flushWaiting q false, s.dev.waitingIn q, 0, false⟩) hready hp hhalted (.inl rfl) hunits rfl hd
      (fun _ => hwritten) (fun h => absurd h (by decide)) hcalm

end Sys2Proof.Machine
end

section
/-! PROOFS (O6). KILL. -/

namespace Sys2Proof.Machine

/-- R537: a command of class 0x1 with no earlier one at work on its partition starts. -/
theorem onPart_ready {s : State} {c : CmdRef} {e : Entry} (start more : Entry → Dev) (h : ReadyPart s c e) :
    s.dev.onPart c start more = start e := by
  simp only [Dev.onPart, h.entry, h.dispatched, if_true, h.first, Bool.false_eq_true, if_false]

/-- Settles O6: the KILL starts (`onPart_ready`), its target exists, and its one visit is `killNow`. -/
theorem killCompletes : Obligations.KillCompletes := by
  unfold Obligations.KillCompletes
  intro s c e scope queue part halt seq r hready hp htarget sel begun d all stopped halted
  have hexists : s.dev.killTarget scope queue part seq = true := by
    unfold Dev.killTarget
    split at htarget
    · exact htarget
    · exact htarget
    · exact decide_eq_true htarget
  have hstarts : doKill s.dev c = (s.dev.toStage c 1 Result.fresh).killNow c scope queue part seq halt := by
    rw [doKill, onPart_ready _ _ hready]
    simp only [hp, hexists, if_true]
  exact runPut (f := (doKill · c)) hstarts

end Sys2Proof.Machine
end

section
/-! PROOFS (O26). The gradient exchange: its contexts, the SEND of a step, and what reaches an owner or a sender. -/

namespace Sys2Proof.Machine

/-! ### What a run sees of the exchange (R263) -/

@[simp] theorem seenBy_xchOf (d : Dev) (e : Entry) (ctx : Nat) : (d.seenBy e).xchOf ctx = d.xchOf ctx :=
  seenBy_same (·.xchOf ctx) (fun _ _ => rfl) d e

@[simp] theorem seenBy_xchBusy (d : Dev) (e : Entry) (ctx : Nat) : (d.seenBy e).xchBusy ctx = d.xchBusy ctx :=
  seenBy_same (·.xchBusy ctx) (fun _ _ => rfl) d e

@[simp] theorem seenBy_groupOf (d : Dev) (e : Entry) (part group : Nat) : (d.seenBy e).groupOf part group = d.groupOf part group :=
  seenBy_same (·.groupOf part group) (fun _ _ => rfl) d e

@[simp] theorem seenBy_inDataPages (d : Dev) (e : Entry) (part va n : Nat) : (d.seenBy e).inDataPages part va n = d.inDataPages part va n :=
  seenBy_same (·.inDataPages part va n) (fun _ _ => rfl) d e

@[simp] theorem seenBy_routeOk (d : Dev) (e : Entry) (dst : Nat) : (d.seenBy e).routeOk dst = d.routeOk dst :=
  seenBy_same (·.routeOk dst) (fun _ _ => rfl) d e

/-! ### Packets of a die's units (R422) -/

/-- R422: a packet that holds its die's datapath starts. -/
theorem onDie_ready {s : State} {c : CmdRef} {e : Entry} (f : Entry → Dev) (h : ReadyDie s c e) : s.dev.onDie c f = f e :=
  (onPacket_ready _ h.entry h.dispatched h.noRoot).trans (if_pos h.die)

/-- R261, R422: a packet of a die's units whose run reaches its end holds what it made for its commit point. -/
theorem runDie_ok {s : State} {c : CmdRef} {e : Entry} {k : Counts} {x : Ctx} {f : Dev → Entry → Dev} (h : ReadyDie s c e)
    (hf : f s.dev e = s.dev.ranOk c e k x) : s.runDev (fun d => d.onDie c (f d)) = .next (s.ran c e k x) :=
  runDev_ran h.calm ((onDie_ready (f s.dev) h).trans hf)

/-! ### GRAD_EXCHANGE_CONFIG and REMOVE (R419 to R422, R444) -/

/-- R419, R420: the run of a configuration of an unbound context. -/
theorem runXchConfig_ok {d : Dev} {part pos : Nat} {x : XchConfig} {ms : List GroupMember} (c : CmdRef) (e : Entry)
    (hfree : d.xchOf x.ctx = none) (hgroup : d.groupOf part x.group = some (ms, pos)) (hlen : ms.length ≤ 4096)
    (hmin : x.minPresent ≤ ms.length)
    (hgrad : d.inDataPages part x.gradVa (ms.length * x.shardBlocks * 1024 * x.gradLen) = true)
    (hresid : x.comp = 2 ∨ d.inDataPages part x.residVa (8 * (ms.length * x.shardBlocks * 1024)) = true)
    (hinbox : d.inDataPages part x.inboxVa (3 * ms.length * x.cs) = true)
    (hsum : d.inDataPages part x.sumVa (4096 * x.shardBlocks) = true) :
    runXchConfig part x (.start d c e) = .ok (okCounts x.cs ms.length 0) (.made d c e
      [.train (.xchNew x.ctx
        { cfg := x, part := part, members := ms.length, pos := pos, step := x.firstStep, epoch := 0, stored := [], held := []
          ownTick := none, issueTick := none, decision := none, replay := false, lastPresent := 0, dropped := 0, heldCount := 0
          shadows := [], waiters := [] })]) := by
  have hresid' : (x.comp == 2 || d.inDataPages part x.residVa (8 * (ms.length * x.shardBlocks * 1024))) = true := by
    simpa only [Bool.or_eq_true, beq_iff_eq] using hresid
  rw [runXchConfig, run_getDev_bind]
  simp only [start_dev, seenBy_xchOf, seenBy_groupOf, seenBy_inDataPages, hfree, hgroup, decide_eq_true hlen, decide_eq_true hmin, hgrad,
    hresid', hinbox, hsum, Option.isNone_none, Bool.and_self, run_require_true_bind, run_hold_bind, run_pure]
  rfl

/-- A context of the issuing partition is found. -/
theorem xchFor_ok {part ctx : Nat} {x : Xch} {y : Ctx} (hctx : y.dev.xchOf ctx = some x) (hpart : x.part = part) :
    xchFor part ctx y = .ok x y := by
  simp only [xchFor, run_getDev_bind, hctx, hpart, beq_self_eq_true, run_require_true_bind, run_pure]

/-- R444: the run of a removal of a context without work. -/
theorem runXchRemove_ok {d : Dev} {part ctx : Nat} {x : Xch} (c : CmdRef) (e : Entry) (hctx : d.xchOf ctx = some x) (hpart : x.part = part)
    (hidle : d.xchBusy ctx = false) :
    runXchRemove part ctx (.start d c e) = .ok (okCounts x.stored.length 0 0) (.made d c e [.train (.xchGone ctx)]) := by
  rw [runXchRemove, run_bind_ok (xchFor_ok (by rw [start_dev, seenBy_xchOf]; exact hctx) hpart)]
  simp only [run_getDev_bind, start_dev, seenBy_xchBusy, hidle, Bool.not_false, run_require_true_bind, run_hold_bind, run_pure]
  rfl

/-! ### SEND (R423 to R425, R428) -/

/-- R423, R424: the run of a SEND of the present step whose routes are up: it holds its own contribution. -/
theorem runSend_ok {d : Dev} {c : CmdRef} {e : Entry} {part ctx pos : Nat} {x : Xch} {ms : List GroupMember}
    {shards : List (List Byte × Nat)} {y : Ctx} (hctx : d.xchOf ctx = some x) (hpart : x.part = part)
    (hgroup : d.groupOf part x.cfg.group = some (ms, pos)) (hroutes : ∀ p < x.members, p = x.pos ∨ d.routeOk (memberAt ms p) = true)
    (hshards : (List.range x.members).mapM (sendShard x) (.start d c e) = .ok shards y) :
    runSend part ctx x.step (.start d c e) =
      .ok (okCounts (min (shards.map (·.2)).sum max32) x.epoch x.members, sendMsgs x ms ctx x.step shards)
        { y with eff := .train (.contrib ctx x.step x.pos ((shards.map (·.1)).getD x.pos [])) :: y.eff } := by
  have hup : (List.range x.members).all (fun p => p == x.pos || d.routeOk (memberAt ms p)) = true := by
    simpa only [List.all_eq_true, List.mem_range, Bool.or_eq_true, beq_iff_eq] using hroutes
  rw [runSend, run_bind_ok (xchFor_ok (by rw [start_dev, seenBy_xchOf]; exact hctx) hpart)]
  simp only [beq_self_eq_true, run_require_true_bind, run_getDev_bind, start_dev, seenBy_groupOf, seenBy_routeOk, hgroup, hup]
  exact (run_bind_ok hshards).trans rfl

/-- R579: a run that sends nothing has run; one that sends messages waits for their acknowledgements. -/
theorem runThenSend_ok {d : Dev} {c : CmdRef} {e : Entry} {m : Run (Counts × List (Nat × MsgBody))} {k : Counts}
    {msgs : List (Nat × MsgBody)} {x : Ctx} (h : m (.start d c e) = .ok (k, msgs) x) :
    d.runThenSend c e [] m = if msgs = [] then d.ranOk c e k x
      else msgs.foldl (fun d m => d.sendMsg (some c) m.1 m.2) (d.sending c e k x) := by
  simp only [Dev.runThenSend, h, List.isEmpty_iff]
  rfl

/-! ### Arrivals (R428, R433) -/

/-- R428: a contribution of a member is kept, or waits at its sender. -/
theorem contribData_bound {d : Dev} {ctx p : Nat} {x : Xch} {data : List Byte} (m : Message) (step : Nat) (hctx : d.xchOf ctx = some x)
    (hp : p < x.members) (hlen : data.length = x.cfg.cs) : d.contribData m x.cfg.group ctx step p data =
      if x.fate step p = .waits then d.tellWait m ctx step else (d.modXch ctx (fun x => x.keepShadow step p data)).ackMsg m := by
  have hfit : ¬(x.cfg.group ≠ x.cfg.group ∨ x.members ≤ p ∨ data.length ≠ x.cfg.cs) := by simp [hp, hlen]
  simp only [Dev.contribData, hctx, if_neg hfit]

/-- R428, R433: the commit of a SEND publishes what was kept of it. -/
theorem contribCommits_kept {d : Dev} {ctx step p : Nat} {x : Xch} {y : (Nat × Nat) × List Byte} (m : Message) (hctx : d.xchOf ctx = some x)
    (hkept : x.shadows.find? (fun y => y.1 == (step, p)) = some y) (hfate : x.fate step p ≠ .waits) :
    d.contribCommits m x.cfg.group ctx step p =
      ((d.modXch ctx (fun x => { x with shadows := x.shadows.filter (fun y => y.1 != (step, p)) })).contribArrives ctx step p y.2).ackMsg m := by
  simp only [Dev.contribCommits, hctx, hkept, if_neg hfate, ne_eq, not_true_eq_false, if_false]

/-- Settles O26: the packets of a die's units run by `runDie_ok`, a SEND with other members by `runThenSend_ok`, and each arrival by
its own lemma, with the errors taken (`runPut`). -/
theorem exchangeCommandsComplete : Obligations.ExchangeCommandsComplete := by
  unfold Obligations.ExchangeCommandsComplete
  refine ⟨?config, ?remove, ?send, ?data, ?commits, ?holds, ?goes⟩
  case config =>
    intro s c e x ms pos hready hp d hfree hgroup hlen hmin n hgrad hresid hinbox hsum
    exact runDie_ok hready (by rw [hp]; exact runClaimed_ok (runXchConfig_ok c e hfree hgroup hlen hmin hgrad hresid hinbox hsum))
  case remove =>
    intro s c e ctx r x hready hp d hctx hpart hidle
    exact runDie_ok hready (by rw [hp]; exact runClaimed_ok (runXchRemove_ok c e hctx hpart hidle))
  case send =>
    intro s c e ctx r x ms pos shards y hready hp hctx hpart hgroup hroutes hshards k y' out
    have hgo : doSend s.dev c = s.dev.runThenSend c e [] (runSend e.hdr.part ctx x.step) := by
      rw [doSend, onDie_ready _ hready, hp]
    have hrun := hgo.trans (runThenSend_ok (runSend_ok hctx hpart hgroup hroutes hshards))
    by_cases hout : out = []
    · rw [if_pos hout]
      exact runDev_ran (f := (doSend · c)) hready.calm (hrun.trans (if_pos hout))
    · rw [if_neg hout]
      exact runPut (f := (doSend · c)) (hrun.trans (if_neg hout))
  case data =>
    intro s m group ctx step p data x hbody hctx hgroup hp hlen
    subst hgroup
    exact runPut (f := (doContribArrive · m)) (by rw [doContribArrive, hbody]; exact contribData_bound m step hctx hp hlen)
  case commits =>
    intro s m group ctx step p x y hbody hctx hgroup hkept hfate
    subst hgroup
    exact runPut (f := (doContribArrive · m)) (by rw [doContribArrive, hbody]; exact contribCommits_kept m hctx hkept hfate)
  case holds =>
    intro s m msg hbody
    exact runPut (f := (doContribArrive · m)) (by rw [doContribArrive, hbody])
  case goes =>
    intro s m msg hbody
    exact runPut (f := (doContribArrive · m)) (by rw [doContribArrive, hbody])

end Sys2Proof.Machine
end

section
/-! PROOFS (O53). Errors: how one is taken, and what ends or follows the restart of a unit. -/

namespace Sys2Proof.Machine

/-! ### The level of an error (R624 to R626) -/

/-- R626: an error of a unit that is not recovering starts at the level of its code. -/
theorem takeError_first {d : Dev} {e : ErrorInfo} (hon : d.lamp.on = true) (hnew : d.recoveringOf e.unit = none) :
    d.takeError e = d.actOn e (startLevel e.code 0) false := by
  simp only [Dev.takeError, hon, hnew, Bool.not_true, Bool.false_eq_true, if_false]

/-- R626: an error of a recovering unit is taken above the unit's present level. -/
theorem takeError_again {d : Dev} {e : ErrorInfo} {r : Recovering} (hon : d.lamp.on = true) (hrec : d.recoveringOf e.unit = some r) :
    d.takeError e = d.actOn e (max (startLevel e.code r.level) (min 3 (r.level + 1))) true := by
  simp only [Dev.takeError, hon, hrec, Bool.not_true, Bool.false_eq_true, if_false]

theorem actOn_record {d : Dev} {e : ErrorInfo} (escalated : Bool) (hcode : e.code ≠ 0x0D) :
    d.actOn e 0 escalated = d.fileError e 0 escalated false := if_neg hcode

theorem actOn_restart {d : Dev} {e : ErrorInfo} (escalated : Bool) (hcode : e.code ≠ 0x0D) :
    d.actOn e 1 escalated = (d.fileError e 1 escalated false).restartUnit e.unit := if_neg hcode

theorem actOn_tear {d : Dev} {e : ErrorInfo} (escalated : Bool) (hcode : e.code ≠ 0x0D) :
    d.actOn e 2 escalated = (d.fileError e 2 escalated false).tearUnit e.unit := if_neg hcode

/-- R630: a lockstep fault is device-fatal, whatever its level. -/
theorem actOn_lockstep {d : Dev} {e : ErrorInfo} (level : Nat) (escalated : Bool) (hcode : e.code = 0x0D) :
    d.actOn e level escalated = (d.setRecovering ⟨e.unit, 3, d.clk.tick, []⟩).fatalError e escalated := if_pos hcode

/-! ### The command that an error names (R269, R271) -/

/-- An uncorrectable error ends the command in flight that it names. -/
theorem failNamed_inFlight {d : Dev} {e : ErrorInfo} {x : Entry} (hcode : e.code = 0x01) (hentry : d.entry ⟨e.queue, e.seq⟩ = some x)
    (hflight : x.inFlight = true) (hheld : x.isHeld = false) (hrel : x.released = false) :
    d.failNamed e = (((((d.untakeFor x).forget x.ref).unwait x).unsave x).untakeKv x).failEntry x.ref x
      ⟨stUncorrectable, none, none⟩ x.runCycles := by
  simp only [Dev.failNamed, hcode, if_true, hentry, hflight, hheld, hrel, Bool.not_false, Bool.and_self]

/-! ### Restarts, their time limit, and the watchdog (R624, R625, R628) -/

/-- R625: a level-1 action ends, and what waited for its unit issues again. -/
theorem doUnitRestartDone_level1 {d : Dev} {u : UnitId} {r : Recovering} (hrec : d.recoveringOf u = some r) (hlevel : r.level = 1) :
    doUnitRestartDone d u = ((d.live.map (·.2)).filter (fun e => e.heldBy == some u)).foldl (fun d e => d.reissue e.ref)
      (d.modLamp (fun l => { l with recovering := l.recovering.filter (fun x => x.unit != u) })) := by
  simp only [doUnitRestartDone, hrec, hlevel, if_true]

/-- R628: a level-1 action that has lasted more than 10,000 ticks. -/
theorem doRecoveryTimeout_late {d : Dev} {u : UnitId} {r : Recovering} (hrec : d.recoveringOf u = some r) (hlevel : r.level = 1)
    (hlate : r.since + 10000 < d.clk.tick) : doRecoveryTimeout d u = d.takeError ⟨u, unitIsland u, 0x05, 0xFF, 0xFF, 0, 0⟩ := by
  simp only [doRecoveryTimeout, hrec, if_pos (And.intro hlevel hlate)]

/-- R624: the watchdog of a command in flight is an error of its unit. -/
theorem doWatchdog_inFlight {d : Dev} {c : CmdRef} {e : Entry} (hentry : d.entry c = some e) (hflight : e.inFlight = true)
    (hheld : e.phase ≠ .rerun) (hterm : d.inTerm e = false) : doWatchdog d c = d.takeError
      ⟨d.unitOf e, unitIsland (d.unitOf e), 0x04, e.hdr.part, e.hdr.queue, e.hdr.seq, e.hdr.opcode⟩ := by
  simp only [doWatchdog, hentry, hflight, Entry.isHeld, hheld, hterm, decide_false, Bool.not_false, and_self, if_true]

/-- Settles O53: an error is taken by `takeError_first` or `takeError_again` at the level whose action is `actOn_record`,
`actOn_restart`, `actOn_tear` or `actOn_lockstep`; each other event is its own lemma, with the errors taken (`runPut`). -/
theorem errorsComplete : Obligations.ErrorsComplete := by
  unfold Obligations.ErrorsComplete
  refine ⟨?levels, ?named, ?escalates, ?restarted, ?late, ?watchdog, ?lockstep⟩
  case levels =>
    intro s e hcalm hon hnew hcode hnamed
    have htaken : doErrorTaken s.dev e = s.dev.actOn e (startLevel e.code 0) false := by
      rw [doErrorTaken, hnamed, takeError_first hon hnew]
    refine ⟨fun hlevel => ?record, fun hlevel => ?restart, fun hlevel => ?tear⟩ <;> rw [hlevel] at htaken
    case record => exact runCalm (f := (doErrorTaken · e)) (htaken.trans (actOn_record false hcode)) hcalm
    case restart => exact runPut (f := (doErrorTaken · e)) (htaken.trans (actOn_restart false hcode))
    case tear => exact runPut (f := (doErrorTaken · e)) (htaken.trans (actOn_tear false hcode))
  case named =>
    intro s e x hon hnew hcode hentry hflight hheld hrel
    exact runPut (f := (doErrorTaken · e)) (congrArg (·.takeError e) (failNamed_inFlight hcode hentry hflight hheld hrel))
  case escalates =>
    intro s e r hon hrec hnamed
    exact runPut (f := (doErrorTaken · e)) ((congrArg (·.takeError e) hnamed).trans (takeError_again hon hrec))
  case restarted =>
    intro s u r hrec hlevel
    exact runPut (f := (doUnitRestartDone · u)) (doUnitRestartDone_level1 hrec hlevel)
  case late =>
    intro s u r hrec hlevel hlate
    exact runPut (f := (doRecoveryTimeout · u)) (doRecoveryTimeout_late hrec hlevel hlate)
  case watchdog =>
    intro s c e hentry hflight hheld hterm
    exact runPut (f := (doWatchdog · c)) (doWatchdog_inFlight hentry hflight hheld hterm)
  case lockstep =>
    intro s hon hnew
    exact runPut (f := doLockstepFault) ((takeError_first hon hnew).trans (actOn_lockstep _ false rfl))

end Sys2Proof.Machine
end

section
/-! PROOFS (O19). The tables of the Wick: descriptors, their removal, and token maps. -/

namespace Sys2Proof.Machine

/-! ### What a run sees of the Wick's tables (R263) -/

@[simp] theorem seenBy_wickLive (d : Dev) (e : Entry) (part idx : Nat) : (d.seenBy e).wickLive part idx = d.wickLive part idx :=
  seenBy_same (·.wickLive part idx) (fun _ _ => rfl) d e

@[simp] theorem seenBy_wickGroup (d : Dev) (e : Entry) (part group : Nat) :
    (d.seenBy e).wickGroup part group = d.wickGroup part group :=
  seenBy_same (·.wickGroup part group) (fun _ _ => rfl) d e

/-! ### The checks of a descriptor (R295) -/

/-- R295: the entries of a token map are ids within a bound or marked as none. -/
theorem mapEntries_check {l : List Nat} {n : Nat} (h : ∀ i ∈ l, i = noId ∨ i < n) :
    l.all (fun i => i == noId || decide (i < n)) = true := by
  simpa only [List.all_eq_true, Bool.or_eq_true, beq_iff_eq, decide_eq_true_eq] using h

section
variable {d : Dev} {part g pos : Nat} {x : WickDesc} (h : WickDescFits d part x g pos)
include h

/-- R295: the slices of both vocabularies are whole column blocks. -/
theorem wickDescFits_slices : (x.vocabT % (256 * g) == 0 && x.vocabS % (256 * g) == 0) = true := by
  simp [h.teacher, h.student]

/-- R295: the range of the descriptor is mapped with Wick pages. -/
theorem wickDescFits_pages :
    (rangeKeys x.va x.pages false).all (fun k => ((d.part part).pteAt k).any (fun e => e.kind == .wick)) = true := by
  refine List.all_eq_true.2 fun k hk => ?_
  obtain ⟨p, hp, hkind⟩ := h.pages k hk
  simp [hp, hkind]

/-- R295: no other descriptor of the partition has a part of the range. -/
theorem wickDescFits_apart :
    (d.wick.descs.filter (fun kv => kv.1 / 16 == part && kv.1 % 16 != x.index)).any (fun kv =>
      decide (kv.2.desc.va < x.va + x.pages * pageBytes) && decide (x.va < kv.2.desc.va + kv.2.desc.pages * pageBytes)) = false := by
  refine List.any_eq_false.2 fun kv hkv => ?_
  obtain ⟨hmem, hother⟩ := List.mem_filter.1 hkv
  rw [Bool.and_eq_true, beq_iff_eq, bne_iff_ne] at hother
  have hapart := h.apart kv hmem hother.1 hother.2
  rw [Bool.and_eq_true, decide_eq_true_eq, decide_eq_true_eq]
  omega

/-- R295: a descriptor with a map finds one that covers its vocabularies. -/
theorem wickDescFits_map :
    (!x.map || (decide (x.vocabT ≤ (tget [] d.wick.maps (4 * part + x.mapSlot)).length) &&
      (tget [] d.wick.maps (4 * part + x.mapSlot)).all (fun e => e == noId || decide (e < x.vocabS)))) = true := by
  cases hm : x.map with
  | false => rfl
  | true =>
    obtain ⟨hlen, hids⟩ := h.map hm
    simp [hlen, mapEntries_check hids]

/-- R295: no command in flight of the partition signals the release token. -/
theorem wickDescFits_token :
    d.live.any (fun qe => qe.2.hdr.part == part && qe.2.order != 0 && qe.2.hdr.sig == x.relTok) = false := by
  refine List.any_eq_false.2 fun qe hqe => ?_
  simp only [Bool.and_eq_true, beq_iff_eq, bne_iff_ne, not_and]
  exact fun ⟨hpart, horder⟩ => h.token qe hqe hpart horder

/-- R295: a descriptor that fits passes its checks, where its index is free or the command removes it. -/
theorem wickDescCheck_fits (c : CmdRef) (e : Entry) (hindex : x.remove = true ∨ d.wickLive part x.index = none) :
    wickDescCheck part x (.start d c e) = .ok (g, pos, wickFramePages x g) (.start d c e) := by
  have hfree : (x.remove || (d.wickLive part x.index).isNone) = true := by
    rwa [Bool.or_eq_true, Option.isNone_iff_eq_none]
  simp only [wickDescCheck, run_getDev_bind, start_dev, seenBy_wickGroup, seenBy_part, seenBy_wick, seenBy_wickLive, seenBy_live,
    h.group, wickDescFits_slices h, wickDescFits_pages h, wickDescFits_apart h, hfree, decide_eq_true h.frames, wickDescFits_map h,
    wickDescFits_token h, Bool.not_false, run_require_true_bind, run_pure]

/-- R295: the run of a descriptor's creation at a free index. -/
theorem runWickDesc_ok (c : CmdRef) (e : Entry) (hfree : d.wickLive part x.index = none) :
    runWickDesc part x (.start d c e) = .ok (okCounts (x.depth * wickFramePages x g) (wickFramePages x g) 0) (.made d c e
      [.wickNew part x.index ⟨x, x.depth * wickFramePages x g, wickFramePages x g,
        d.token part x.relTok, 0, g, pos, List.replicate x.depth Frame.empty⟩]) := by
  rw [runWickDesc, run_bind_ok (wickDescCheck_fits h c e (.inr hfree))]
  simp only [run_getDev_bind, start_dev, seenBy_token, run_hold_bind, run_pure]
  rfl

/-- R296: the run of a removal of a live descriptor whose frames are all empty. -/
theorem runWickRemove_ok (c : CmdRef) (e : Entry) {w : WickLive} (hremove : x.remove = true)
    (hlive : d.wickLive part x.index = some w) (hempty : ∀ f ∈ w.frames, f.phase = 0) :
    runWickRemove part x (.start d c e) = .ok (okCounts w.p w.f 0) (.made d c e [.wickGone part x.index]) := by
  have hidle : w.frames.all (fun f => f.phase == 0) = true := by simpa using hempty
  rw [runWickRemove, run_bind_ok (wickDescCheck_fits h c e (.inl hremove))]
  simp only [run_getDev_bind, start_dev, seenBy_wickLive, hlive, hidle, run_require_true_bind, run_hold_bind, run_pure]
  rfl

end

/-! ### Token maps (R319, R326) -/

/-- R319: the run of a token map whose entries read and are in range, for a slot that no live descriptor uses. -/
theorem runTokmap_ok {d : Dev} {c : CmdRef} {e : Entry} {part slot n : Nat} {src : Desc} {b : List Byte} {x : Ctx}
    (hslot : d.wick.descs.any (fun kv => kv.1 / 16 == part && kv.2.desc.map && kv.2.desc.mapSlot == slot) = false)
    (hread : readVa accPlain src.va (4 * n) (.start d c e) = .ok b x) (hids : ∀ i ∈ rowCodes 0 n b, i = noId ∨ i < 262144) :
    runTokmap part slot n src (.start d c e) = .ok (okCounts n ((rowCodes 0 n b).filter (· != noId)).length 0)
      { x with eff := .wickMap part slot (rowCodes 0 n b) :: x.eff } := by
  rw [runTokmap, run_getDev_bind]
  simp only [start_dev, seenBy_wick, hslot, Bool.not_false, run_require_true_bind]
  rw [run_bind_ok hread, run_require_bind (mapEntries_check hids), run_hold_bind, run_pure]

/-- Settles O19: each command runs on the block with what waits taken (`runClaimed_ok`), and its run ends by its own lemma. -/
theorem wickTablesComplete : Obligations.WickTablesComplete := by
  unfold Obligations.WickTablesComplete
  refine ⟨?creates, ?removes, ?maps⟩
  case creates =>
    intro s c e x g pos hready hp hremove d hfits hfree
    refine runPacket_ok hready ?_
    simp only [hp, hremove, Bool.false_eq_true, if_false]
    exact runClaimed_ok (runWickDesc_ok hfits c e hfree)
  case removes =>
    intro s c e x g pos w hready hp hremove d hfits hlive hempty
    refine runPacket_ok hready ?_
    simp only [hp, hremove, if_true]
    exact runClaimed_ok (runWickRemove_ok hfits c e hremove hlive hempty)
  case maps =>
    intro s c e slot n src r b x hready hp d hslot hread hids
    exact runPacket_ok hready (by rw [hp]; exact runClaimed_ok (runTokmap_ok hslot hread hids))

end Sys2Proof.Machine
end

section
/-! PROOFS (O20). The steps of a micro-batch, and its release. -/

namespace Sys2Proof.Machine

/-! ### Steps on the vector engine (R197, R302 to R304) -/

/-- R197: a step of the Wick on an idle vector engine whose run reaches its end holds what it made for its commit point. -/
theorem runWickStep_ok {s : State} {c : CmdRef} {e : Entry} {idx op mb : Nat} {r : Bool} {k : Counts} {x : Ctx}
    {f : Entry → Nat → Nat → Run Counts} (h : Ready s c e) (hidle : vecBusy s.dev e = false) (hp : e.payload = .wickStep idx op mb r)
    (hrun : f e idx mb (.start s.dev c e) = .ok k x) : s.runDev (fun d => d.onWickStep c op f) = .next (s.ran c e k x) := by
  refine runPacket_ok h ?_
  simp only [hp, hidle, ne_eq, not_true_eq_false, Bool.false_eq_true, or_self, if_false]
  exact run_ok hrun

/-- R302 to R304: a frame in the phase that a command needs is found. -/
theorem wickFrame_ok {d : Dev} {part idx mb phase : Nat} {w : WickLive} {f : Frame} (c : CmdRef) (e : Entry)
    (h : InFrame d part idx mb phase w f) : wickFrame part idx mb phase (.start d c e) = .ok (w, f) (.start d c e) := by
  simp only [wickFrame, run_getDev_bind, start_dev, seenBy_wickLive, h.live, h.frame, decide_eq_true h.window, h.phase, h.batch,
    beq_self_eq_true, Bool.and_self, run_require_true_bind, run_pure]

/-- R302 to R304: a frame in another phase, or of another micro-batch, is refused, inside the window as outside it. -/
theorem wickFrame_refused {d : Dev} {part idx mb phase : Nat} {w : WickLive} {f : Frame} (c : CmdRef) (e : Entry)
    (hlive : d.wickLive part idx = some w) (hframe : w.frames[mb % w.desc.depth]? = some f) (hother : f.phase ≠ phase ∨ f.mb ≠ mb) :
    wickFrame part idx mb phase (.start d c e) = .error ⟨stBadParam, none, none⟩ (.start d c e) := by
  have hphase : (f.phase == phase && f.mb == mb) = false := by
    simpa only [Bool.and_eq_false_iff, beq_eq_false_iff_ne] using hother
  simp only [wickFrame, run_getDev_bind, start_dev, seenBy_wickLive, hlive, hframe, hphase]
  cases decide ((mb + (4096 - w.r % 4096)) % 4096 < w.desc.depth) with
  | false => rw [run_require_false_bind]
  | true => rw [run_require_true_bind, run_require_false_bind]

theorem blocksPresent_iff {present want : List Nat} : blocksPresent present want = true ↔ ∀ b ∈ want, b ∈ present := by
  simp [blocksPresent]

/-! ### The runs of the steps (R307, R312, R314, R316, R318, R327) -/

section
variable {d : Dev} {c : CmdRef} {e : Entry} {part idx mb rank : Nat} {w : WickLive} {f : Frame} {labels : List Nat}
  {rs : List WickRec} {x y : Ctx} (hrank : rank < w.desc.spindles)
include hrank

/-- R307: the run of a STATS whose labels and rows are readable and writable. -/
theorem runStats_ok (hframe : InFrame d part idx mb 1 w f) (hmode : w.desc.topk = false)
    (hblocks : ∀ b ∈ shareBlocks w.vT w.desc.spindles rank, b ∈ f.tBlocks ∧ b ∈ f.sBlocks)
    (hlabels : wickLabels w mb (.start d c e) = .ok labels x)
    (hrows : (withIdx 0 labels).mapM (statsRow w mb rank) x = .ok rs y) :
    runStats part idx mb rank (.start d c e) = .ok (stepCounts w (shareBlocks w.vT w.desc.spindles rank) rs)
      { y with eff := .wickRank part idx mb rank 4 :: y.eff } := by
  have ht := blocksPresent_iff.2 fun b hb => (hblocks b hb).1
  have hs := blocksPresent_iff.2 fun b hb => (hblocks b hb).2
  rw [runStats, run_bind_ok (wickFrame_ok c e hframe)]
  simp only [hmode, decide_eq_true hrank, ht, hs, Bool.not_false, Bool.and_self, run_require_true_bind]
  rw [run_bind_ok hlabels, run_bind_ok hrows, run_hold_bind, run_pure]

/-- R314: the run of a STATS_T whose rows are readable and writable. -/
theorem runStatsT_ok (hframe : InFrame d part idx mb 1 w f) (hmode : w.desc.topk = true)
    (hblocks : ∀ b ∈ shareBlocks w.vT w.desc.spindles rank, b ∈ f.tBlocks)
    (hrows : (List.range w.desc.rows).mapM (statsTRow w mb rank) (.start d c e) = .ok rs y) :
    runStatsT part idx mb rank (.start d c e) = .ok (stepCounts w (shareBlocks w.vT w.desc.spindles rank) rs)
      { y with eff := .wickRank part idx mb rank 2 :: y.eff } := by
  rw [runStatsT, run_bind_ok (wickFrame_ok c e hframe)]
  simp only [hmode, decide_eq_true hrank, blocksPresent_iff.2 hblocks, Bool.and_self, run_require_true_bind]
  rw [run_bind_ok hrows, run_hold_bind, run_pure]

/-- R316: the run of a STATS_S whose labels and rows are readable and writable. -/
theorem runStatsS_ok (hframe : InFrame d part idx mb 3 w f) (hmode : w.desc.topk = true)
    (hblocks : ∀ b ∈ shareBlocks w.vS w.desc.spindles rank, b ∈ f.sBlocks)
    (hlabels : wickLabels w mb (.start d c e) = .ok labels x)
    (hrows : (withIdx 0 labels).mapM (statsSRow w mb rank) x = .ok rs y) :
    runStatsS part idx mb rank (.start d c e) = .ok (stepCounts w (shareBlocks w.vS w.desc.spindles rank) rs)
      { y with eff := .wickRank part idx mb rank 4 :: y.eff } := by
  rw [runStatsS, run_bind_ok (wickFrame_ok c e hframe)]
  simp only [hmode, decide_eq_true hrank, blocksPresent_iff.2 hblocks, Bool.and_self, run_require_true_bind]
  rw [run_bind_ok hlabels, run_bind_ok hrows, run_hold_bind, run_pure]

/-- R312, R318: the run of a GRAD, which needs the teacher's blocks in full mode alone. -/
theorem runGrad_ok (hframe : InFrame d part idx mb 5 w f)
    (hblocks : ∀ b ∈ shareBlocks w.vS w.desc.spindles rank, b ∈ f.sBlocks ∧ (w.desc.topk = false → b ∈ f.tBlocks))
    (hlabels : wickLabels w mb (.start d c e) = .ok labels x)
    (hrows : (withIdx 0 labels).mapM (gradRow w mb rank) x = .ok rs y) :
    runGrad part idx mb rank (.start d c e) = .ok (stepCounts w (shareBlocks w.vS w.desc.spindles rank) rs)
      { y with eff := .wickRank part idx mb rank 6 :: y.eff } := by
  have hs := blocksPresent_iff.2 fun b hb => (hblocks b hb).1
  have ht : (w.desc.topk || blocksPresent f.tBlocks (shareBlocks w.vS w.desc.spindles rank)) = true := by
    cases hmode : w.desc.topk with
    | true => rfl
    | false => exact blocksPresent_iff.2 fun b hb => (hblocks b hb).2 hmode
  rw [runGrad, run_bind_ok (wickFrame_ok c e hframe)]
  simp only [decide_eq_true hrank, hs, ht, Bool.and_self, run_require_true_bind]
  rw [run_bind_ok hlabels, run_bind_ok hrows, run_hold_bind, run_pure]

end

/-- R301, R302: the run of a RELEASE of the oldest micro-batch. -/
theorem runRelease_ok {d : Dev} {part idx mb : Nat} {w : WickLive} (c : CmdRef) (e : Entry) (hlive : d.wickLive part idx = some w)
    (holdest : mb = w.r % 4096) :
    runRelease part idx mb (.start d c e) = .ok (okCounts 0 0 0) (.made d c e [.wickRelease part idx]) := by
  simp only [runRelease, run_getDev_bind, start_dev, seenBy_wickLive, hlive, holdest, beq_self_eq_true, run_require_true_bind,
    run_hold_bind, run_pure]
  rfl

/-- Settles O20: each step runs on the idle vector engine (`runWickStep_ok`), and its run ends by its own lemma; a frame in another
phase is refused by `wickFrame_refused`. -/
theorem wickStepsComplete : Obligations.WickStepsComplete := by
  unfold Obligations.WickStepsComplete
  refine ⟨?stats, ?statsT, ?statsS, ?grad, ?release, ?refused⟩
  case stats =>
    intro s c e idx mb r w f labels x rs y hready hidle hp hframe hmode hrank blocks hblocks hlabels hrows
    exact runWickStep_ok hready hidle hp (runStats_ok hrank hframe hmode hblocks hlabels hrows)
  case statsT =>
    intro s c e idx mb r w f rs y hready hidle hp hframe hmode hrank blocks hblocks hrows
    exact runWickStep_ok hready hidle hp (runStatsT_ok hrank hframe hmode hblocks hrows)
  case statsS =>
    intro s c e idx mb r w f labels x rs y hready hidle hp hframe hmode hrank blocks hblocks hlabels hrows
    exact runWickStep_ok hready hidle hp (runStatsS_ok hrank hframe hmode hblocks hlabels hrows)
  case grad =>
    intro s c e idx mb r w f labels x rs y hready hidle hp hframe hrank blocks hblocks hlabels hrows
    exact runWickStep_ok hready hidle hp (runGrad_ok hrank hframe hblocks hlabels hrows)
  case release =>
    intro s c e idx mb r w hready hidle hp hlive holdest
    exact runWickStep_ok hready hidle hp (runRelease_ok c e hlive holdest)
  case refused =>
    intro s c e idx mb w f phase hlive hframe hother
    exact wickFrame_refused c e hlive hframe hother

end Sys2Proof.Machine
end

section
/-! PROOFS (O21). Merges of the Wick: a command that combines begins, and ends at once in a group of one. -/

namespace Sys2Proof.Machine

/-! ### A command that combines begins (R586, R587) -/

/-- R586: a command that combines and forms its own value waits with it. -/
theorem startColl_ok {d : Dev} {c : CmdRef} {e : Entry} {m : Run (List Byte)} {own : List Byte} {x : Ctx}
    (h : m (.start d c e) = .ok own x) : d.startColl c e m = d.started c e own x := by
  simp only [Dev.startColl, h]
  rfl

/-- R586, R587: a command that may begin forms its own value, and goes on where it has what it needs. -/
theorem beginColl_joins {d d' : Dev} {c : CmdRef} {e : Entry} {g : Nat} {key : GroupKey} {m : Run (List Byte)} {own : List Byte}
    {x : Ctx} (h : Joins d e g key d') (hown : m (.start d' c e) = .ok own x) :
    d.beginColl c e m = (d'.started c e own x).advance e.hdr.part g key := by
  have hports : (onTree key && d'.treeDown e.hdr.part g) = false := by
    cases htree : onTree key with
    | false => rfl
    | true => exact h.ports htree
  simp only [Dev.beginColl, h.coll, h.alone, h.noLoss, hports, Bool.false_eq_true, if_false, startColl_ok hown]

/-- R197, R310: a WICK_MERGE on an idle vector engine that may begin. -/
theorem doWickMerge_joins {s : State} {c : CmdRef} {e : Entry} {idx op mb g : Nat} {r : Bool} {key : GroupKey} {own : List Byte}
    {x : Ctx} {d : Dev} (hready : Ready s c e) (hidle : vecBusy s.dev e = false) (hp : e.payload = .wickMerge idx op mb r)
    (hjoins : Joins s.dev e g key d) (hown : wickLocal e.hdr.part idx op mb (.start d c e) = .ok own x) :
    doWickMerge s.dev c = (d.started c e own x).advance e.hdr.part g key := by
  rw [doWickMerge, onPacket_ready _ hready.entry hready.dispatched hready.noRoot]
  simp only [hp, hidle, Bool.false_eq_true, if_false]
  exact beginColl_joins hjoins hown

/-! ### The end of a merge in a group of one (R310, R324, R587) -/

/-- A run in two parts that ended well ended well in each. -/
theorem run_bind_inv {α β : Type} {m : Run α} {f : α → Run β} {b : β} {x z : Ctx} (h : (m >>= f) x = .ok b z) :
    ∃ a y, m x = .ok a y ∧ f a y = .ok b z := by
  rw [run_bind] at h
  cases hm : m x with
  | ok a y => rw [hm] at h; exact ⟨a, y, rfl, h⟩
  | error _ _ => rw [hm] at h; cases h

/-- R290: a device's contribution to a merge is never empty, since its header is not. -/
theorem wickLocal_isEmpty {part idx op mb : Nat} {own : List Byte} {x y : Ctx} (h : wickLocal part idx op mb x = .ok own y) :
    own.isEmpty = false := by
  obtain ⟨wf, u, -, hrest⟩ := run_bind_inv h
  obtain ⟨rows, v, -, hend⟩ := run_bind_inv hrest
  cases hend
  rfl

/-- R587: the only member of a group exchanges values with none. -/
theorem treeKids_alone : treeKids 0 1 = [] := by decide

/-- R586, R587: the only command of the only member enters its own value as the whole, and ends with it. -/
theorem advance_wick_alone {d : Dev} {part g idx mb op : Nat} {e : Entry} {m : GroupMember} {own : List Byte}
    (hwaits : d.collWaiting part g (.wick idx mb op) = [e]) (hgroup : d.groupOf part g = some ([m], 0))
    (hcoll : e.coll = some (false, own)) (hown : own.isEmpty = false) :
    d.advance part g (.wick idx mb op) = (d.endColl e own own 1 0).dropVals g (.wick idx mb op) := by
  have hval : deviceVal (.wick idx mb op) [e] = some own := by simp [deviceVal, hcoll]
  simp [Dev.advance, hwaits, hgroup, hval, edges, treeKids_alone, hcoll, Dev.deliverWhole, onward, hown]

/-- R311, R315, R317: a merge ends with the whole value by writing its rows. -/
theorem endColl_wickMerge {d : Dev} {e : Entry} {idx op mb : Nat} {r : Bool} (device whole : List Byte) (members pos : Nat)
    (hp : e.payload = .wickMerge idx op mb r) :
    d.endColl e device whole members pos = d.run e.ref e (wickFinish e.hdr.part idx op mb whole) := by
  simp only [Dev.endColl, hp]

/-- Settles O21: the merge begins by `doWickMerge_joins`; alone in its group it goes on by `advance_wick_alone` to the end that
`endColl_wickMerge` gives. -/
theorem mergeCompletes : Obligations.MergeCompletes := by
  unfold Obligations.MergeCompletes
  refine ⟨?waits, ?ends⟩
  case waits =>
    intro s c e idx op mb r own x g d hready hidle hp key hjoins hown
    exact runPut (f := (doWickMerge · c)) (doWickMerge_joins hready hidle hp hjoins hown)
  case ends =>
    intro s c e idx op mb r own x g d e' m hready hidle hp key hjoins hown d' hwaits hgroup hp' hhdr hcoll
    have hadvance := advance_wick_alone hwaits hgroup hcoll (wickLocal_isEmpty hown)
    rw [endColl_wickMerge _ _ _ _ (hp'.trans hp), hhdr] at hadvance
    exact runPut (f := (doWickMerge · c)) ((doWickMerge_joins hready hidle hp hjoins hown).trans hadvance)

end Sys2Proof.Machine
end

section
/-! PROOFS (O22). Admission, pools, releases and draft controls. -/

namespace Sys2Proof.Machine

/-! ### Request packets (R333) -/

/-- R261, R333: a request packet that may run and whose run on the block with what waits taken reaches its end holds what it made
for its commit point. -/
theorem runRequest_ok {s : State} {c : CmdRef} {e : Entry} {k : Counts} {x : Ctx} {m : Run Counts} {f : Dev → Entry → Dev}
    (h : ReadyRequest s c e) (hf : f s.dev e = s.dev.runClaimed c e m) (hrun : m (.start s.dev.claimed c e) = .ok k x) :
    s.runDev (fun d => d.onRequest c (f d)) = .next (s.ran c e k x) := by
  refine runPacket_ok h.toReady ?_
  simp only [h.first, Bool.false_eq_true, if_false]
  exact hf.trans (runClaimed_ok hrun)

/-! ### What a request packet finds (R263): tables are no bytes of memory -/

@[simp] theorem seenBy_request (d : Dev) (e : Entry) (id : Nat) : (d.seenBy e).request id = d.request id :=
  seenBy_same (·.request id) (fun _ _ => rfl) d e

@[simp] theorem seenBy_genOf (d : Dev) (e : Entry) (id : Nat) : (d.seenBy e).genOf id = d.genOf id :=
  seenBy_same (·.genOf id) (fun _ _ => rfl) d e

@[simp] theorem seenBy_liveIn (d : Dev) (e : Entry) (part : Nat) : (d.seenBy e).liveIn part = d.liveIn part :=
  seenBy_same (·.liveIn part) (fun _ _ => rfl) d e

@[simp] theorem seenBy_pool (d : Dev) (e : Entry) (part : Nat) : (d.seenBy e).pool part = d.pool part :=
  seenBy_same (·.pool part) (fun _ _ => rfl) d e

@[simp] theorem seenBy_period (d : Dev) (e : Entry) (part slot : Nat) : (d.seenBy e).period part slot = d.period part slot :=
  seenBy_same (·.period part slot) (fun _ _ => rfl) d e

theorem keepsDev_readEntry (id : Nat) : KeepsDev (readEntry id) :=
  keepsDev_bind (keepsDev_readPhys _ _) (fun _ => keepsDev_pure _)

/-- R332, R372: the entry of a request of the partition that reads is found. -/
theorem reqOf_ok {part id : Nat} {q : Request} {x y : Ctx} (hread : readEntry id x = .ok () y) (hreq : x.dev.request id = some q)
    (hpart : q.part = part) : reqOf part id x = .ok q y := by
  obtain ⟨hdev, -, -⟩ := keepsDev_readEntry id x () y hread
  rw [reqOf, run_bind_ok hread, run_getDev_bind, hdev, hreq]
  simp only [hpart, if_true, run_pure]

/-! ### REQ_ADMIT (R334, R335, R367) -/

/-- R334: the run of a REQ_ADMIT in a partition with room, whose lowest free entry reads. -/
theorem runAdmit_ok {d : Dev} {c : CmdRef} {e : Entry} {part id : Nat} {a : Admission} {x : Ctx}
    (hroom : d.liveIn part < tget 0 d.reqs.maxReq part) (hfree : lowest (fun i => !thas d.reqs.r i) 0 16384 = some id)
    (hread : readEntry id (.start d c e) = .ok () x) : runAdmit part a (.start d c e) =
      .ok (okCounts id ((d.genOf id + 1) % 2 ^ 32) 0) { x with eff := .reqAdmit part id a :: x.eff } := by
  rw [runAdmit, run_getDev_bind]
  simp only [start_dev, seenBy_liveIn, seenBy_reqs, seenBy_genOf, decide_eq_true hroom, hfree, run_require_true_bind]
  rw [run_bind_ok hread, run_hold_bind, run_pure]

/-! ### POOL_ADD and POOL_REMOVE (R347, R367) -/

/-- R347: the pages that a POOL_ADD of these keys names: the frame of each KV page with its address. -/
def Partition.kvPages (p : Partition) (keys : List Nat) : List (Nat × Nat) :=
  keys.filterMap (fun k => match p.pteAt k with
    | some x => if x.kind = .kv then some (x.pa / 65536, 65536 * k) else none
    | none => none)

/-- R367: the pages of a pool that a POOL_REMOVE of these keys names. -/
def Partition.poolPages (p : Partition) (pool : Tbl PoolPage) (keys : List Nat) : List Nat :=
  keys.filterMap (fun k => match p.pteAt k with
    | some x => if thas pool (x.pa / 65536) then some (x.pa / 65536) else none
    | none => none)

section
variable {d : Dev} {part va pages : Nat} (c : CmdRef) (e : Entry)

/-- R347: the run of a POOL_ADD of mapped KV pages outside every pool, with room. -/
theorem runPoolAdd_ok {es : List (Nat × Nat)} (hes : (d.part part).kvPages (rangeKeys va pages true) = es) (hlen : es.length = pages)
    (hout : ∀ x ∈ es, thas (d.pool part) x.1 = false) (hroom : (d.pool part).length + pages ≤ 65535) :
    runPoolAdd part va pages (.start d c e) =
      .ok (okCounts pages ((freePool (d.pool part)).length + pages) 0) (.made d c e [.poolAdd part es]) := by
  have hcheck : (es.length == pages && !es.any (fun x => thas (d.pool part) x.1)) = true := by
    simpa [hlen] using hout
  subst hes
  rw [runPoolAdd, run_getDev_bind]
  simp only [start_dev, seenBy_part, seenBy_pool]
  refine (run_require_bind hcheck _ _ _).trans ?_
  rw [run_require_bind (decide_eq_true hroom), run_hold_bind, run_pure]
  rfl

/-- R367: the run of a POOL_REMOVE of free pages of the pool. -/
theorem runPoolRemove_ok {ks : List Nat} (hks : (d.part part).poolPages (d.pool part) (rangeKeys va pages true) = ks)
    (hlen : ks.length = pages) (hidle : ∀ k ∈ ks, ∃ g, tfind (d.pool part) k = some g ∧ g.holder = none ∧ g.zeroing = false) :
    runPoolRemove part va pages (.start d c e) =
      .ok (okCounts pages ((freePool (d.pool part)).length - pages) 0) (.made d c e [.poolRemove part ks]) := by
  have hfree : ks.all (fun k => match tfind (d.pool part) k with
      | some g => g.holder.isNone && !g.zeroing
      | none => false) = true := by
    refine List.all_eq_true.2 fun k hk => ?_
    obtain ⟨g, hfind, hholder, hzero⟩ := hidle k hk
    simp only [hfind, hholder, hzero, Option.isNone_none, Bool.not_false, Bool.and_self]
  subst hks
  rw [runPoolRemove, run_getDev_bind]
  simp only [start_dev, seenBy_part, seenBy_pool]
  refine (run_require_bind (beq_iff_eq.2 hlen) _ _ _).trans ?_
  refine (run_require_bind hfree _ _ _).trans ?_
  rw [run_hold_bind, run_pure]
  rfl

end

/-! ### REQ_RELEASE and CONFIG (R368, R386) -/

section
variable {d : Dev} {c : CmdRef} {e : Entry} {part id gen : Nat} {q : Request} {x : Ctx}
  (hread : readEntry id (.start d c e) = .ok () x) (hreq : d.request id = some q) (hpart : q.part = part) (hgen : d.genOf id = gen)
  (hout : q.inPeriod = false)
include hread hreq hpart hgen hout

/-- R368: the run of a REQ_RELEASE of a request outside every period, whose page list can be cleared. -/
theorem runReqRelease_ok {y : Ctx} (hclear : clearList q.adm (q.pages.map (·.1)) x = .ok ⟨⟩ y) :
    runReqRelease part id gen (.start d c e) = .ok (okCounts id q.pages.length (if q.isLive then q.reserveLeft else 0))
      { y with eff := .reqRelease id :: y.eff } := by
  have hfound := reqOf_ok hread ((seenBy_request d e id).trans hreq) hpart
  rw [runReqRelease, run_getDev_bind, run_bind_ok hfound]
  simp only [start_dev, seenBy_genOf, hgen, hout, beq_self_eq_true, Bool.not_false, run_require_true_bind]
  rw [run_bind_ok hclear, run_hold_bind, run_pure]

/-- R386: the run of a CONFIG of a request outside every period. -/
theorem runDraftConfig_ok (ctl : Nat) :
    runDraftConfig part id gen ctl (.start d c e) = .ok (okCounts id gen 0) { x with eff := .draftCtl id ctl :: x.eff } := by
  have hfound := reqOf_ok hread ((seenBy_request d e id).trans hreq) hpart
  rw [runDraftConfig, run_getDev_bind, run_bind_ok hfound]
  simp only [start_dev, seenBy_genOf, hgen, hout, beq_self_eq_true, Bool.not_false, run_require_true_bind, run_hold_bind, run_pure]

end

/-- Settles O22: each request packet runs on the block with what waits taken (`runRequest_ok`), and its run ends by its own
lemma. -/
theorem requestTableComplete : Obligations.RequestTableComplete := by
  unfold Obligations.RequestTableComplete
  refine ⟨?admits, ?poolAdd, ?poolRemove, ?release, ?config⟩
  case admits =>
    intro s c e a id x hready hp d hroom hfree hread
    exact runRequest_ok hready (by rw [hp]) (runAdmit_ok hroom hfree hread)
  case poolAdd =>
    intro s c e va pages r hready hp d es pool hlen hout hroom
    exact runRequest_ok hready (by rw [hp]) (runPoolAdd_ok c e rfl hlen hout hroom)
  case poolRemove =>
    intro s c e va pages r hready hp d pool ks hlen hidle
    exact runRequest_ok hready (by rw [hp]) (runPoolRemove_ok c e rfl hlen hidle)
  case release =>
    intro s c e id gen r q x y hready hp d hread hreq hpart hgen hout hclear
    exact runRequest_ok hready (by rw [hp]) (runReqRelease_ok hread hreq hpart hgen hout hclear)
  case config =>
    intro s c e ctl id gen r q x hready hp d hread hreq hpart hgen hout
    exact runRequest_ok hready (by rw [hp]) (runDraftConfig_ok hread hreq hpart hgen hout ctl)

end Sys2Proof.Machine
end

section
/-! PROOFS (O23). Serving periods. -/

namespace Sys2Proof.Machine

/-! ### OPEN and PREFILL (R355 to R357, R361, R369) -/

/-- The rows of an opener for the requests that it names, with their pages placed. -/
def Dev.openedRows (d : Dev) (prefill : Bool) (e : Entry) (reqs : List ((Nat × Nat) × Request)) : List OpenRow :=
  placeRows (freePool (d.pool e.hdr.part))
    (reqs.map (fun q => openRow (d.tickAt (d.spindleOf e)) prefill q.1.1 q.1.2 q.2))

/-- R355 to R357, R361: the run of an opener of an empty slot, in the order in which it reads and writes. -/
theorem runOpen_ok {prefill : Bool} {e : Entry} {slot n batch step : Nat} {items : List (Nat × Nat)}
    {reqs : List ((Nat × Nat) × Request)} {rows : List OpenRow} {late : List Nat} {x x1 x2 x3 x4 x5 x6 : Ctx}
    (hbatch : readBatch prefill batch n x = .ok items x1)
    (hbatchAt : notDdr e.hdr.part batch ((if prefill then 8 else 2) * n) x1 = .ok ⟨⟩ x2)
    (hstepAt : notDdr e.hdr.part step (32 * n) x2 = .ok ⟨⟩ x3)
    (hreqs : (items.mapM (fun (i : Nat × Nat) => do return (i, ← reqOf e.hdr.part i.1))) x3 = .ok reqs x4)
    (honce : nodupNat (items.map (·.1)) = items.map (·.1)) (hempty : x.dev.period e.hdr.part slot = none)
    (hidle : ∀ q ∈ reqs, q.2.inPeriod = false) (hrows : x.dev.openedRows prefill e reqs = rows)
    (hcount : (rows.map (·.count)).sum ≤ 1048576) (hlate : lateWith x.dev e.hdr.part (x.dev.tickAt (x.dev.spindleOf e)) rows = late)
    (hwrite : (rows.zip (withIdx 0 (rowBases 0 rows))).forM (openOne x.dev e.hdr.part prefill step) x4 = .ok ⟨⟩ x5)
    (hexpire : late.forM (expire x.dev) x5 = .ok ⟨⟩ x6) :
    runOpen prefill e slot n batch step x = .ok (openCounts rows late)
      { x6 with eff := .periodOpen e.hdr.part slot (openedPeriod x.dev prefill e.hdr.opcode rows) :: x6.eff } := by
  have hslot : ((x.dev.period e.hdr.part slot).isNone && !reqs.any (fun q => q.2.inPeriod)) = true := by
    simpa [hempty] using hidle
  rw [Dev.openedRows] at hrows
  rw [runOpen, run_getDev_bind]
  simp only
  rw [run_bind_ok hbatch, run_bind_ok hbatchAt, run_bind_ok hstepAt, run_bind_ok hreqs, run_require_bind (decide_eq_true honce),
    run_require_bind hslot, hrows, run_require_bind (decide_eq_true hcount), run_bind_ok hwrite, hlate, run_bind_ok hexpire,
    run_hold_bind, run_pure]

/-! ### CLOSE, ABORT and DRAW of an open period (R359, R363, R389, R406) -/

section
variable {part slot vocab draft : Nat} {u : Desc} {p : Period} {x y : Ctx} (hperiod : x.dev.period part slot = some p)
include hperiod

/-- R359, R385: the run of a CLOSE of an open period, whose RUN rows with more than a root need a draft area. -/
theorem runClose_ok {rows : List (PeriodRow × Nat)} {cs : List (CloseRow × Nat)}
    (hrun : (withIdx 0 p.rows).filter (fun rk => rk.1.status == 0) = rows)
    (hdraft : draft = 0 → ∀ rk ∈ rows, rk.1.kind = 0 → rk.1.count ≤ 1)
    (hrows : rows.mapM (closeOne x.dev u vocab draft) x = .ok cs y) :
    runClose part slot u vocab draft x = .ok
      (okCounts (cs.map (fun q => q.1.tokens.length)).sum (cs.map (·.2)).sum (cs.filter (fun q => q.1.last)).length)
      { y with eff := .periodClose part slot (cs.map (·.1)) :: y.eff } := by
  have hcheck : (!(draft == 0 && rows.any (fun rk => rk.1.kind == 0 && decide (1 < rk.1.count)))) = true := by
    rw [Bool.not_eq_true', Bool.and_eq_false_imp, beq_iff_eq]
    refine fun hzero => List.any_eq_false.2 fun rk hrk => ?_
    simpa using hdraft hzero rk hrk
  rw [runClose, run_getDev_bind, hperiod]
  simp only [hrun]
  rw [run_require_bind hcheck, run_bind_ok hrows, run_hold_bind, run_pure]

/-- R363: the run of an ABORT of an open period. -/
theorem runAbort_ok {ns : List Nat} (hrows : (p.rows.filter (fun q => q.status == 0)).mapM (abortOne x.dev) x = .ok ns y) :
    runAbort part slot x = .ok (okCounts 0 ns.sum 0) { y with eff := .periodAbort part slot :: y.eff } := by
  rw [runAbort, run_getDev_bind, hperiod]
  simp only
  rw [run_bind_ok hrows, run_hold_bind, run_pure]

/-- R389, R406: the run of a DRAW in an open period that its items fit. -/
theorem runDraw_ok {n items : Nat} {b : List Byte} {nodes : List (Nat × DraftNode)} {z : Ctx}
    (hread : readOrd items (16 * n) x = .ok b z)
    (hdraw : ((List.range n).map (parseItem b)).foldlM (drawOne x.dev p u vocab draft) [] z = .ok nodes y) :
    runDraw part slot n vocab items draft u x = .ok (okCounts nodes.length (n - nodes.length) 0)
      { y with eff := .draftNodes part slot nodes :: y.eff } := by
  rw [runDraw, run_getDev_bind, hperiod]
  simp only
  rw [run_bind_ok hread, run_bind_ok hdraw, run_hold_bind, run_pure]

end

/-! ### An empty slot (R359, R363, R406) -/

section
variable {part slot : Nat} {x : Ctx} (hempty : x.dev.period part slot = none)
include hempty

theorem runClose_empty (u : Desc) (vocab draft : Nat) : runClose part slot u vocab draft x = .error ⟨stBadParam, none, none⟩ x := by
  rw [runClose, run_getDev_bind, hempty]
  rfl

theorem runAbort_empty : runAbort part slot x = .error ⟨stBadParam, none, none⟩ x := by
  rw [runAbort, run_getDev_bind, hempty]
  rfl

theorem runDraw_empty (n vocab items draft : Nat) (u : Desc) :
    runDraw part slot n vocab items draft u x = .error ⟨stBadParam, none, none⟩ x := by
  rw [runDraw, run_getDev_bind, hempty]
  rfl

end

/-- Settles O23: each request packet runs on the block with what waits taken (`runRequest_ok`), and its run ends by its own lemma;
an empty slot is refused by `runClose_empty`, `runAbort_empty` and `runDraw_empty`. -/
theorem periodsComplete : Obligations.PeriodsComplete := by
  unfold Obligations.PeriodsComplete
  refine ⟨?opens, ?prefills, ?closes, ?aborts, ?draws, ?empty⟩
  case opens =>
    intro s c e slot n b st r items reqs u x1 x2 x3 x4 x5 x6 hready hp v part rows late hbatch hbatchAt hstepAt hreqs honce hempty
      hidle hcount hwrite hexpire
    exact runRequest_ok hready (by rw [hp])
      (runOpen_ok hbatch hbatchAt hstepAt hreqs honce hempty hidle rfl hcount rfl hwrite hexpire)
  case prefills =>
    intro s c e slot n b st r items reqs u x1 x2 x3 x4 x5 x6 hready hp v part rows late hbatch hbatchAt hstepAt hreqs honce hempty
      hidle hcount hwrite hexpire
    exact runRequest_ok hready (by rw [hp])
      (runOpen_ok hbatch hbatchAt hstepAt hreqs honce hempty hidle rfl hcount rfl hwrite hexpire)
  case closes =>
    intro s c e slot u vocab draft r p cs y hready hp v rows hperiod hdraft hrows
    exact runRequest_ok hready (by rw [hp]) (runClose_ok hperiod rfl hdraft hrows)
  case aborts =>
    intro s c e slot r p ns y hready hp v hperiod hrows
    exact runRequest_ok hready (by rw [hp]) (runAbort_ok hperiod hrows)
  case draws =>
    intro s c e slot n vocab items draft u r p b x nodes y hready hp v hperiod hread hdraw
    exact runRequest_ok hready (by rw [hp]) (runDraw_ok hperiod hread hdraw)
  case empty =>
    intro s c e slot n vocab items draft u hempty
    have hseen : (Ctx.start s.dev c e).dev.period e.hdr.part slot = none := (seenBy_period s.dev e e.hdr.part slot).trans hempty
    exact ⟨runClose_empty hseen u vocab draft, runAbort_empty hseen, runDraw_empty hseen n vocab items draft u⟩

end Sys2Proof.Machine
end

section
/-! PROOFS (O24). Tenants. -/

namespace Sys2Proof.Machine

/-- R339, R370: the run of a TENANT_SET holds the change of its tenant and cannot fail. -/
theorem runTenant_ok (t op part maxLive value : Nat) (d : Dev) (c : CmdRef) (e : Entry) :
    runTenant t op part maxLive value (.start d c e) =
      .ok (okCounts t 0 0) (.made d c e [.tenantSet t op part maxLive value]) := by
  rw [runTenant, run_hold_bind, run_pure]
  rfl

/-- Settles O24: each operation of TENANT_SET is `runTenant` with its own number, which `runTenant_ok` runs. -/
theorem tenantCommandsComplete : Obligations.TenantCommandsComplete := by
  unfold Obligations.TenantCommandsComplete
  refine ⟨?setBalance, ?addBalance, ?bind⟩
  case setBalance =>
    intro s c e t p m v r hready hp
    exact runPacket_ok hready (by rw [hp]; exact run_ok (runTenant_ok ..))
  case addBalance =>
    intro s c e t p m v r hready hp
    exact runPacket_ok hready (by rw [hp]; exact run_ok (runTenant_ok ..))
  case bind =>
    intro s c e t p m v r hready hp
    exact runPacket_ok hready (by rw [hp]; exact run_ok (runTenant_ok ..))

end Sys2Proof.Machine
end

section
/-! PROOFS (O25). Token streams: the delivery of a token, and the read of a ring's consumer count. -/

namespace Sys2Proof.Machine

/-! ### Host writes of the stream writer (R398, R599, R601) -/

/-- R601: what says where a member's host-bound traffic goes. -/
def Links.hostWay (l : Links) : Bool × Bool × Nat := (l.hostUp, l.bridge, l.devNum)

theorem leave_hostWay (d : Dev) (m : Message) (cls : Nat) : (d.leave m cls).links.hostWay = d.links.hostWay := by
  unfold Dev.leave
  split
  · dsimp only
    split <;> rfl
  · unfold Dev.countDrop
    split <;> rfl

/-- R579: a message that goes, or that is held, leaves the host path as it was. -/
theorem sendMsg_hostWay (d : Dev) (c : Option CmdRef) (dst : Nat) (b : MsgBody) :
    (d.sendMsg c dst b).links.hostWay = d.links.hostWay := by
  unfold Dev.sendMsg Dev.newMsg
  dsimp only
  split
  · rfl
  · exact leave_hostWay ..

theorem sendMsg_reqs (d : Dev) (c : Option CmdRef) (dst : Nat) (b : MsgBody) : (d.sendMsg c dst b).reqs = d.reqs := by
  rw [show d.sendMsg c dst b = { d with links := (d.sendMsg c dst b).links } from linksOnly_sendMsg c dst b d]

@[simp] theorem hostWrite_reqs (d : Dev) (iova : Nat) (data : List Byte) : (d.hostWrite iova data).reqs = d.reqs := by
  unfold Dev.hostWrite Dev.hostBound
  split
  · rfl
  · split
    · rfl
    · exact sendMsg_reqs ..

/-- R601: a member that is no bridge writes host memory by a message to its bridge. -/
theorem hostWrite_member {d : Dev} {n : Nat} (iova : Nat) (data : List Byte) (hway : d.links.hostWay = (true, false, n)) :
    d.hostWrite iova data = d.sendMsg none (n / 8 * 8) (.hostWrite iova data) := by
  injection hway with hup hrest
  injection hrest with hbridge hnum
  simp [Dev.hostWrite, Dev.hostBound, Dev.bridgeNum, hup, hbridge, hnum]

/-- R397, R398: the two writes of a token's record, its sequence word last. -/
def Dev.writeRecord (d : Dev) (id : Nat) (r : Request) (tok : Nat) (last : Bool) : Dev :=
  let w := streamWords id (d.genOf id) tok r.streamSeq last
  let a := r.adm.ringIova + 64 + 16 * (r.streamSeq % ringCap r.adm)
  (d.hostWrite a w.1).hostWrite (a + 12) w.2

@[simp] theorem writeRecord_reqs (d : Dev) (id : Nat) (r : Request) (tok : Nat) (last : Bool) :
    (d.writeRecord id r tok last).reqs = d.reqs := by
  simp [Dev.writeRecord]

/-- R601: a bridge whose host path is up writes the record to host memory itself. -/
theorem writeRecord_bridge {d : Dev} (id : Nat) (r : Request) (tok : Nat) (last : Bool) (hup : d.links.hostUp = true)
    (hbridge : d.links.bridge = true) :
    let w := streamWords id (d.genOf id) tok r.streamSeq last
    let a := r.adm.ringIova + 64 + 16 * (r.streamSeq % ringCap r.adm)
    d.writeRecord id r tok last = d.modMem (fun m => { m with host := putBytes (putBytes m.host a w.1) (a + 12) w.2 }) :=
  hostBound_writes [(_, _), (_, _)] hup hbridge

/-- R601: another member sends the record to its bridge, as two messages. -/
theorem writeRecord_member {d : Dev} (id : Nat) (r : Request) (tok : Nat) (last : Bool) (hup : d.links.hostUp = true)
    (hbridge : d.links.bridge = false) :
    let w := streamWords id (d.genOf id) tok r.streamSeq last
    let a := r.adm.ringIova + 64 + 16 * (r.streamSeq % ringCap r.adm)
    let br := d.links.devNum / 8 * 8
    d.writeRecord id r tok last = (d.sendMsg none br (.hostWrite a w.1)).sendMsg none br (.hostWrite (a + 12) w.2) := by
  intro w a br
  have hway : d.links.hostWay = (true, false, d.links.devNum) := by rw [Links.hostWay, hup, hbridge]
  have hfirst : d.hostWrite a w.1 = d.sendMsg none br (.hostWrite a w.1) := hostWrite_member _ _ hway
  exact (congrArg (Dev.hostWrite · (a + 12) w.2) hfirst).trans (hostWrite_member _ _ ((sendMsg_hostWay ..).trans hway))

/-! ### STREAM_DELIVER (R397 to R400) -/

/-- R399: with room and the host path up the oldest held token goes, and the request and the count move on. -/
theorem doStreamDeliver_room {d : Dev} {id : Nat} {r : Request} {tok : Nat} {last : Bool} {rest : List (Nat × Bool)}
    (hreq : d.request id = some r) (hheld : r.held = (tok, last) :: rest) (hup : d.links.hostUp = true)
    (hroom : r.unread < ringCap r.adm) :
    let r' := { r with held := rest, streamSeq := (r.streamSeq + 1) % 2 ^ 32 }
    doStreamDeliver d id = { d.writeRecord id r tok last with
      reqs := { d.reqs with r := tins d.reqs.r id r'.wake, streamed := (d.reqs.streamed + 1) % 2 ^ 64 } } := by
  intro r'
  rw [← writeRecord_reqs d id r tok last]
  unfold doStreamDeliver
  simp only [hreq, hheld]
  rw [if_pos ⟨hup, hroom⟩]
  rfl

/-- R399, R400: where nothing can go, only a stalled request with room again changes. -/
theorem doStreamDeliver_stays {d : Dev} {id : Nat} {r : Request} (hreq : d.request id = some r)
    (hstay : r.held = [] ∨ d.links.hostUp = false ∨ ringCap r.adm ≤ r.unread) :
    doStreamDeliver d id = d.setRequest id r.wake := by
  unfold doStreamDeliver
  simp only [hreq]
  split
  · rfl
  next hheld =>
    rw [if_neg]
    rintro ⟨hup, hroom⟩
    obtain h | h | h := hstay
    · exact absurd (hheld.symm.trans h) (by simp)
    · exact absurd (hup.symm.trans h) (by simp)
    · omega

/-! ### CONS_READ (R401) -/

theorem consDue_iff (now : Nat) (r : Request) :
    r.consDue now = true ↔ r.held ≠ [] ∧ ringCap r.adm ≤ r.unread ∧ r.consRead ≤ now := by
  simp [Request.consDue, and_assoc]

/-- R401: the value read from the ring is taken where it is in range, and RING_BAD is set where it is not. -/
theorem doConsRead_due {d : Dev} {id : Nat} {r : Request} (hreq : d.request id = some r) (hup : d.links.hostUp = true)
    (hdue : r.consDue d.clk.tick = true) (hfirst : ∀ q ∈ d.reqs.r, q.1 < id → q.2.consDue d.clk.tick ≠ true) :
    let v := leAt (getBytes d.mem.host r.adm.ringIova 4) 0 4
    let n := (r.streamSeq + (2 ^ 32 - v)) % 2 ^ 32
    doConsRead d id = { d with
      reqs := if n ≤ ringCap r.adm ∧ n ≤ r.unread then
          { d.reqs with r := tins d.reqs.r id { r with consRead := d.clk.tick + 16, cons := v } }
        else
          { d.reqs with r := tins d.reqs.r id { r with consRead := d.clk.tick + 16 }, ringBad := true } } := by
  intro v n
  have hlowest : d.reqs.r.all (fun q => decide (id ≤ q.1) || !q.2.consDue d.clk.tick) = true := by
    rw [List.all_eq_true]
    intro q hq
    by_cases hle : id ≤ q.1
    · simp [hle]
    · simp [hfirst q hq (by omega)]
  unfold doConsRead
  simp only [hreq]
  rw [if_pos ⟨hup, hdue, hlowest⟩]
  by_cases hrange : n ≤ ringCap r.adm ∧ n ≤ r.unread
  · rw [if_pos hrange]
    exact if_pos hrange
  · rw [if_neg hrange]
    exact if_neg hrange

/-- Settles O25: a delivery is `doStreamDeliver_room` with the record's writes of a bridge or of another member, or
`doStreamDeliver_stays`; a read that is due is `doConsRead_due`. -/
theorem streamEventsComplete : Obligations.StreamEventsComplete := by
  unfold Obligations.StreamEventsComplete
  refine ⟨?bridge, ?member, ?stays, ?consRead⟩
  case bridge =>
    intro s id r tok last rest hcalm hreq hheld hup hbridge hroom w a r'
    refine runCalm (f := (doStreamDeliver · id)) ((doStreamDeliver_room hreq hheld hup hroom).trans ?_) hcalm
    rw [writeRecord_bridge id r tok last hup hbridge]
    rfl
  case member =>
    intro s id r tok last rest hreq hheld hup hbridge hroom w a r' br d
    refine runPut (f := (doStreamDeliver · id)) ((doStreamDeliver_room hreq hheld hup hroom).trans ?_)
    rw [writeRecord_member id r tok last hup hbridge]
  case stays =>
    intro s id r hcalm hreq hstay
    exact runCalm (f := (doStreamDeliver · id)) (doStreamDeliver_stays hreq hstay) hcalm
  case consRead =>
    intro s id r hcalm hreq hup hheld hfull hdue hlower v n
    refine runCalm (f := (doConsRead · id)) (doConsRead_due hreq hup ((consDue_iff ..).2 ⟨hheld, hfull, hdue⟩) ?_) hcalm
    intro q hq hlt hqdue
    obtain ⟨hqheld, hqfull, hqtick⟩ := (consDue_iff ..).1 hqdue
    obtain h | h | h := hlower q hq hlt
    · exact hqheld h
    · omega
    · omega

end Sys2Proof.Machine
end

section
/-! PROOFS (O27). STEP_WAIT: its issue, its decision tick, and the sum of the shard. -/

namespace Sys2Proof.Machine

/-! ### The visits of a STEP_WAIT (R427, R429, R430) -/

/-- R429: a STEP_WAIT of the context's present step issues. -/
theorem doStepWait_issues {d : Dev} {c : CmdRef} {e : Entry} {ctx replay maskVa : Nat} {r : Bool} {x : Xch} (hentry : d.entry c = some e)
    (hphase : e.phase = .dispatched) (hp : e.payload = .stepWait ctx replay x.step maskVa r) (hctx : d.xchOf ctx = some x)
    (hpart : x.part = e.hdr.part) : doStepWait d c = d.issueWait c e ctx (replay == 1) := by
  simp only [doStepWait, hentry, hp, hphase, hctx, hpart, ne_eq, not_true_eq_false, or_self, if_false]

/-- R427, R430: a decided STEP_WAIT whose die is free forms its sum. -/
theorem doStepWait_decided {d : Dev} {c : CmdRef} {e : Entry} {ctx replay step maskVa : Nat} {r : Bool} {p : Progress} {x : Xch}
    {z : XchDecision} (hentry : d.entry c = some e) (hphase : e.phase = .running p) (hp : e.payload = .stepWait ctx replay step maskVa r)
    (hctx : d.xchOf ctx = some x) (hz : x.decision = some z) (hfree : d.dieFree e = true) :
    doStepWait d c = d.run c e (runStepSum ctx x z) := by
  simp only [doStepWait, hentry, hp, hphase, hctx, hz, hfree, if_true]

/-- R427, R431: the run of a sum whose blocks read holds the end of the step and counts who was present. -/
theorem runStepSum_ok {ctx : Nat} {x : Xch} {z : XchDecision} {y₀ y : Ctx} {u : Unit}
    (hsum : (List.range x.cfg.shardBlocks).forM (sumBlock x z) y₀ = .ok u y) :
    runStepSum ctx x z y₀ =
      .ok ⟨if x.members - z.present.length = 0 then stOk else stLatePeer, z.present.length, x.members - z.present.length, z.held.length⟩
        { y with eff := .train (.stepSummed ctx z.present z.held) :: y.eff } :=
  run_bind_ok hsum

/-! ### The decision (R429, R431, R436) -/

/-- R431: a decision that is no replay's ends its command where too few are present. -/
theorem decide_own {x : Xch} (hx : x.replay = false) (d : Dev) (c : CmdRef) (e : Entry) (ctx : Nat) (z : XchDecision) :
    d.decide_ c e ctx x z =
      let d := d.modXch ctx (fun x => { x with lastPresent := z.present.length })
      if z.present.length < x.cfg.minPresent then (d.modXch ctx (fun x => { x with issueTick := none })).refuse c e stPeerLost
      else d.modXch ctx (fun x => { x with decision := some z, issueTick := none }) := by
  simp only [Dev.decide_, hx, Bool.not_false, and_true]

/-- R436: a replay's decision stands, however few are present. -/
theorem decide_replay {x : Xch} (hx : x.replay = true) (d : Dev) (c : CmdRef) (e : Entry) (ctx : Nat) (z : XchDecision) :
    d.decide_ c e ctx x z = (d.modXch ctx (fun x => { x with lastPresent := z.present.length })).modXch ctx
      (fun x => { x with decision := some z, issueTick := none }) := by
  simp only [Dev.decide_, hx, Bool.not_true, Bool.false_eq_true, and_false, if_false]

/-- R429: the decision tick decides once every contribution is present or the window after the later of issue and own contribution has
passed. -/
theorem doDecisionTick_due {d : Dev} {c : CmdRef} {e : Entry} {ctx step maskVa : Nat} {r : Bool} {p : Progress} {x : Xch}
    (hentry : d.entry c = some e) (hphase : e.phase = .running p) (hp : e.payload = .stepWait ctx 0 step maskVa r)
    (hctx : d.xchOf ctx = some x) (hopen : x.decision = none)
    (hdue : ((List.range x.members).filter (fun q => x.has x.step q)).length = x.members ∨
      ∃ i o, x.issueTick = some i ∧ x.ownTick = some o ∧ max i o + x.cfg.window < d.tickAt 14) :
    doDecisionTick d c = d.decide_ c e ctx x ⟨(List.range x.members).filter (fun q => x.has x.step q),
      (List.range x.members).filter (fun q => x.held.contains (prevStep x.step, q))⟩ := by
  simp only [doDecisionTick, hentry, hp, hphase, hctx, hopen, Option.isSome_none, Bool.false_eq_true, if_false, zero_ne_one]
  refine if_pos (hdue.imp_right ?_)
  rintro ⟨i, o, hissue, hown, hlate⟩
  simpa only [hissue, hown, decide_eq_true_eq] using hlate

/-- R436: the decision tick of a replay decides as its mask says once every contribution that the mask names is stored. -/
theorem doDecisionTick_replays {d : Dev} {c : CmdRef} {e : Entry} {ctx step maskVa : Nat} {r : Bool} {p : Progress} {x : Xch}
    {b : List Byte} {y : Ctx} (hentry : d.entry c = some e) (hphase : e.phase = .running p)
    (hp : e.payload = .stepWait ctx 1 step maskVa r) (hctx : d.xchOf ctx = some x) (hopen : x.decision = none)
    (hmask : readVa accPlain maskVa (ceilDiv x.members 4) (.start d c e) = .ok b y)
    (hheld : ∀ q ∈ (maskFlags x.members b).held, x.has (prevStep x.step) q = true)
    (hpresent : ∀ q ∈ (maskFlags x.members b).present, x.has x.step q = true) :
    doDecisionTick d c = d.decide_ c e ctx x (maskFlags x.members b) := by
  have hnoneLost : (maskFlags x.members b).held.any (fun q => !x.has (prevStep x.step) q) = false := by
    simpa only [List.any_eq_false, Bool.not_eq_true, Bool.not_eq_false'] using hheld
  have hnoneMissing : (maskFlags x.members b).present.filter (fun q => !x.has x.step q) = [] := by
    simpa only [List.filter_eq_nil_iff, Bool.not_eq_true, Bool.not_eq_false'] using hpresent
  simp only [doDecisionTick, hentry, hp, hphase, hctx, hopen, hmask, hnoneLost, hnoneMissing, Option.isSome_none, List.isEmpty_nil,
    Bool.false_eq_true, if_false, if_true]

/-- Settles O27: a STEP_WAIT's first visit is `doStepWait_issues`, its last one the run of `runStepSum_ok`; between them its decision
tick decides by `decide_own`, or under a replay by `decide_replay`. -/
theorem stepWaitCompletes : Obligations.StepWaitCompletes := by
  unfold Obligations.StepWaitCompletes
  refine ⟨?issues, ?sums, ?decides, ?replays⟩
  case issues =>
    intro s c e ctx replay step maskVa r x hready hp hctx hpart hstep
    subst hstep
    exact runPut (f := (doStepWait · c)) (doStepWait_issues hready.entry hready.dispatched hp hctx hpart)
  case sums =>
    intro s c e ctx replay step maskVa r p x z u y hentry hp hphase hcalm hctx hz hfree hsum absent
    exact runDev_ran (f := (doStepWait · c)) hcalm
      ((doStepWait_decided hentry hphase hp hctx hz hfree).trans (run_ok (runStepSum_ok hsum)))
  case decides =>
    intro s c e ctx step maskVa r p x hentry hp hphase hctx hopen hown present held hdue d
    exact runPut (f := (doDecisionTick · c))
      ((doDecisionTick_due hentry hphase hp hctx hopen hdue).trans (decide_own hown s.dev c e ctx ⟨present, held⟩))
  case replays =>
    intro s c e ctx step maskVa r p x b y hentry hp hphase hctx hopen hreplay hmask z hheld hpresent
    exact runPut (f := (doDecisionTick · c))
      ((doDecisionTick_replays hentry hphase hp hctx hopen hmask hheld hpresent).trans (decide_replay hreplay s.dev c e ctx z))

end Sys2Proof.Machine
end

section
/-! PROOFS (O28). The activation copies. -/

namespace Sys2Proof.Machine

/-! ### A copy reads one state of the block (R262) -/

theorem keepsDev_readPage (pa : Nat) : KeepsDev (readPage pa) := by
  intro x cells y h
  rw [readPage, run_get_bind] at h
  cases hfind : x.dev.mem.ue.find? (fun s => decide (pa ≤ 64 * s) && decide (64 * s < pa + pageBytes)) with
  | some s => simp only [hfind] at h; cases h
  | none =>
    simp only [hfind, run_set_bind, run_pure] at h
    cases h
    exact ⟨rfl, rfl, rfl⟩

theorem keepsDev_actPage (offload : Bool) (part src dst i : Nat) : KeepsDev (actPage offload part src dst i) :=
  keepsDev_bind (keepsDev_xlate _ _ _) fun _ => keepsDev_bind (keepsDev_xlate _ _ _) fun _ => keepsDev_bind (keepsDev_require _ _) fun _ =>
    keepsDev_bind (keepsDev_readPage _) fun _ => keepsDev_hold _

/-! ### ACT_OFFLOAD and ACT_PREFETCH (R415, R416, R440) -/

/-- R416, R440: a run that copies every page counts the pages, and the ranks whose data movers it used. -/
theorem runAct_ok {offload : Bool} {d : Dev} {c : CmdRef} {e : Entry} {part src dst n w : Nat} {u : Unit} {x : Ctx}
    (hpages : (List.range n).forM (actPage offload part src dst) (.start d c e) = .ok u x) :
    runAct offload part src dst n w (.start d c e) = .ok (okCounts n (if w = 0 then (d.part part).spindles.length else w) 0) x := by
  obtain ⟨hdev, -, -⟩ := keepsDev_forM (keepsDev_actPage offload part src dst) _ _ u x hpages
  rw [runAct, run_bind_ok hpages, run_getDev_bind, run_pure, hdev, start_dev, seenBy_part]

/-- Settles O28: either command runs (`runPacket_ok`), with the counters of `runAct_ok`. -/
theorem activationCopiesComplete : Obligations.ActivationCopiesComplete := by
  unfold Obligations.ActivationCopiesComplete
  refine ⟨?offload, ?prefetch⟩
  case offload =>
    intro s c e src dst n w r u x hready hp hpages
    exact runPacket_ok hready (by rw [hp]; exact run_ok (runAct_ok hpages))
  case prefetch =>
    intro s c e src dst n w r u x hready hp hpages
    exact runPacket_ok hready (by rw [hp]; exact run_ok (runAct_ok hpages))

end Sys2Proof.Machine
end

section
/-! PROOFS (O29). The commands of the Treadle: the norm and its result, the update, and a verify without a difference. -/

namespace Sys2Proof.Machine

/-! ### TRD_NORM (R451, R452, R586) -/

/-- R451, R452, R586: a TRD_NORM of a declared group that may begin there waits with its local sum. -/
theorem doTrdNorm_joins {s : State} {c : CmdRef} {e : Entry} {step pair group nDesc table norm : Nat} {maxNorm : Word} {r : Bool}
    {own : NormSum} {d' : Dev} {x : Ctx} (hready : ReadyDie s c e) (hp : e.payload = .trdNorm step pair group maxNorm nDesc table norm r)
    (hknown : s.dev.groupKnown e.hdr.part group = true) (hjoins : Joins s.dev e group (.norm step) d')
    (hown : runNormLocal e.hdr.part e.hdr.unit step nDesc table (.start d' c e) = .ok own x) :
    doTrdNorm s.dev c = (d'.started c e own.bytes x).advance e.hdr.part group (.norm step) := by
  rw [doTrdNorm, onDie_ready _ hready]
  simp only [hp, hknown, Bool.not_true, Bool.false_eq_true, if_false]
  exact beginColl_joins hjoins (run_bind_ok hown)

/-! ### TRD_UPDATE (R457, R471) -/

/-- R457, R471: an update whose norm record, descriptors and layers can be read and written holds its step's record, and counts
where it does not skip. -/
theorem runUpdate_ok {part die : Nat} (order : Nat) {p : TrdUpdate} {norm : List Byte} {l : Tbl LayerStat}
    {evs : List (Nat × Bool × Bool)} {x x1 x2 x3 : Ctx} (hnorm : readNorm part p x = .ok norm x1)
    (hrows : (List.range p.nDesc).foldlM (updateRow part die p norm) [] x1 = .ok l x2)
    (hlayers : (List.range p.nLayers).mapM (layerRow part p (skipOf norm) l) x2 = .ok evs x3) :
    let ovf := (l.map (·.2.ovf)).sum
    let elems := (l.map (·.2.elems)).sum
    runUpdate part die order p x = .ok (if skipOf norm then ⟨stSkipped, 0, 0, 0⟩ else okCounts elems ovf (countEvents evs))
      { x3 with eff := .train (.update die part order p.step (skipOf norm) (leAt norm 12 2) ovf elems (watchEvents evs)) :: x3.eff } := by
  intro ovf elems
  rw [runUpdate, run_bind_ok hnorm]
  simp only
  rw [run_bind_ok hrows, run_bind_ok hlayers, run_hold_bind]
  cases hskip : skipOf norm with
  | true => rfl
  | false => rfl

/-! ### TRD_VERIFY (R481, R483) -/

/-- R481, R483: a verify whose samples are all checked without a difference ends well with the blocks that it checked. -/
theorem runVerify_matches {d : Dev} {c : CmdRef} {e : Entry} {p : TrdUpdate} {part n va : Nat} {b : List Byte} {x y : Ctx} {v : Verified}
    (hread : readIn accPlain part va (8 * n) (.start d c e) = .ok b x)
    (hgo : verifyGo part e.hdr.unit p ((List.range n).map (fun i => (leAt b (8 * i) 4, leAt b (8 * i + 4) 4))) ⟨0, 0, max32⟩ x =
      (v, none, y))
    (hsame : v.bad = 0) : d.runVerify c e p part n va = d.ranOk c e ⟨stOk, v.n, 0, v.first⟩ y := by
  simp only [Dev.runVerify, hread, hgo, hsame, if_true]

/-- Settles O29: a TRD_NORM begins by `doTrdNorm_joins`, and the result of its root arrives as any group's whole value does; an update
and a verify run by `runDie_ok`, with the runs of `runUpdate_ok` and `runVerify_matches`. -/
theorem treadleCommandsComplete : Obligations.TreadleCommandsComplete := by
  unfold Obligations.TreadleCommandsComplete
  refine ⟨?norm, ?result, ?update, ?verify⟩
  case norm =>
    intro s c e step pair group maxNorm nDesc table norm r own d' x hready hp hknown hjoins hown
    exact runPut (f := (doTrdNorm · c)) (doTrdNorm_joins hready hp hknown hjoins hown)
  case result =>
    intro s group step sum flags
    exact runPut (f := (doNormResult · group step sum flags)) rfl
  case update =>
    intro s c e p norm l evs x1 x2 x3 hready hp hnorm hrows hlayers ovf elems
    exact runDie_ok hready (by rw [hp]; exact run_ok (runUpdate_ok e.order hnorm hrows hlayers))
  case verify =>
    intro s c e p part n va r b x v y hready hp hread hgo hsame
    exact runDie_ok hready (by rw [hp]; exact runVerify_matches hread hgo hsame)

end Sys2Proof.Machine
end

section
/-! PROOFS (O30). ROOT on a matrix that converges. -/

namespace Sys2Proof.Machine

/-! ### What a ROOT reads (R262): its matrix and its scratch leave the block as it was -/

theorem keepsDev_rootMatrix (a : Desc) (n : Nat) :
    KeepsDev ((List.range n).mapM (fun i => do return (← a.readVals accMover i n).map rne32)) :=
  keepsDev_mapM (fun _ => keepsDev_bind (keepsDev_readVals _ _ _ _) fun _ => keepsDev_pure _) _

theorem keepsDev_rootScratch (va n : Nat) : KeepsDev (rootScratch va n) :=
  keepsDev_get_bind fun _ => keepsDev_mapM
    (fun _ => keepsDev_bind (keepsDev_xlate _ _ _) fun _ => keepsDev_bind (keepsDev_require _ _) fun _ => keepsDev_pure _) _

/-! ### The run of a ROOT (R476 to R479, R484) -/

/-- What a ROOT holds for a piece of its scratch: free bytes. -/
def scratchEffect (free : Nat) (t : Nat × Nat) : Effect := .mem t.1 (scratchBytes free t.1 t.2)

/-- R476, R484: the run of a ROOT whose shifted matrix `m'` is finite, with a finite square sum `q` and a scale `sc`, and whose
iteration ends with `root` in `k` steps at the residual `g`: its scratch is held as free bytes, then the rows of the root. -/
theorem runRoot_ok {a z : Desc} {workVa n p itMax k : Nat} {tol eps g q : Word} {m m' root : Matrix32} {sc : Int}
    {scratch : List (Nat × Nat)} {x₀ x y w : Ctx}
    (hread : ((List.range n).mapM (fun i => do return (← a.readVals accMover i n).map rne32)) x₀ = .ok m x)
    (hscratch : rootScratch workVa (24 * n * n) x = .ok scratch y)
    (hshift : mapMat m (fun i j v => if i = j then add32 v eps else v) = m') (hfinite : finiteMat m' = true)
    (hsum : treeSum (m'.flatten.map (fun v => mul32 v v)) = q) (hsumFinite : isFinite32 q = true) (hscale : rootScale p q = some sc)
    (hiter : rootIter n p tol itMax 0
      ((List.range n).map (fun i => (List.range n).map (fun j => if i = j then ldexp32 one32 (-(sc / (p : Int))) else 0)))
      (mapMat m' (fun _ _ v => ldexp32 v (-sc))) = some (root, k, g))
    (hwrite : ((withIdx 0 root).forM (fun row => z.writeVals accMover row.2 (row.1.map v32)))
      { y with eff := (scratch.map (scratchEffect x₀.dev.free)).reverse ++ y.eff } = .ok ⟨⟩ w) :
    runRoot a z workVa n p itMax tol eps x₀ = .ok (okCounts k g.toNat (sc % 2 ^ 32).toNat) w := by
  obtain ⟨hxdev, -, -⟩ := keepsDev_rootMatrix a n _ _ _ hread
  obtain ⟨hydev, -, -⟩ := keepsDev_rootScratch _ _ _ _ _ hscratch
  have hhold := run_forM_hold (act := fun t => hold (scratchEffect x₀.dev.free t)) (eff := fun t => [scratchEffect x₀.dev.free t])
    (fun _ _ => rfl) scratch y
  rw [← List.map_eq_flatMap] at hhold
  rw [runRoot, run_bind_ok hread, run_bind_ok hscratch, run_getDev_bind, hydev, hxdev]
  refine (run_bind_ok hhold).trans ?_
  simp only [hshift, hfinite, hsum, hsumFinite, Bool.and_self, if_true, hscale, hiter]
  exact run_bind_ok hwrite

/-- R479: a ROOT that no other command keeps from its Spindle runs, and uses up the free value of its scratch. -/
theorem doRoot_ready {s : State} {c : CmdRef} {e : Entry} {a z : Desc} {workVa n p itMax : Nat} {tol eps : Word} {r : Bool}
    (hready : Ready s c e) (hp : e.payload = .root a z workVa n p itMax tol eps r) (hidle : rootBlocked s.dev e = false) :
    doRoot s.dev c = { s.dev.run c e (runRoot a z workVa n p itMax tol eps) with
      free := (s.dev.run c e (runRoot a z workVa n p itMax tol eps)).free + 1 } := by
  rw [doRoot, onPacket_ready _ hready.entry hready.dispatched hready.noRoot]
  simp only [hp, hidle, Bool.false_eq_true, if_false]

/-- Settles O30: an idle Spindle's ROOT runs (`doRoot_ready`), and its run ends by `runRoot_ok`. -/
theorem rootCompletes : Obligations.RootCompletes := by
  unfold Obligations.RootCompletes
  intro s c e a z workVa n p itMax tol eps r m x scratch y sc q k g w hready hp hidle hread hscratch m' hfinite hsumFinite hscale hiter
    hwrite d
  have hrun : runRoot a z workVa n p itMax tol eps (.start s.dev c e) = .ok (okCounts k g.toNat (sc % 2 ^ 32).toNat) w :=
    runRoot_ok hread hscratch rfl hfinite rfl hsumFinite hscale hiter (by rw [start_dev, seenBy_free]; exact hwrite)
  have hdone := doRoot_ready hready hp hidle
  rw [run_ok hrun] at hdone
  exact runCalm (f := (doRoot · c)) hdone ((ranOk_errDue ..).trans hready.calm)

end Sys2Proof.Machine
end

section
/-! PROOFS (O36, O49). The ports of the links, and the device number. -/

namespace Sys2Proof.Machine

/-! ### The device number (R577, R605) -/

/-- R577, R605: a write of LNK_DEV_NUM on a path that may write it. -/
theorem writeLnk_devNum (d : Dev) {p : Path} (v : Nat) (hp : p ≠ .lamplighter) : d.writeLnk p 0 0 v = d.writeDevNum v := by
  have hctl : inArr 0x100 16 4 0 = false := by decide
  have hstatus : inArr 0x104 16 4 0 = false := by decide
  unfold Dev.writeLnk
  rw [hctl, hstatus]
  simp [mayWrite, hp]

theorem doDevNumWrite_reached {d : Dev} {p : Path} (v : Word) (hup : d.lamp.cdUp = true) (hp : p ≠ .lamplighter)
    (hr : d.reaches p 0x1600000 = true) : doDevNumWrite d p v = d.writeDevNum v.toNat := by
  rw [doDevNumWrite, writeReg_dies v.toNat hup hr rfl, ← writeLnk_devNum d v.toNat hp]
  exact writeUp_lnk d p (die := 0) (o := 0) v.toNat (by decide) (by decide)

/-- Whether a port is UP or TRAINING, while which LNK_DEV_NUM takes no number (R577). -/
def Dev.anyPortBusy (d : Dev) : Bool := (List.range 8).any (fun j => (d.port j).state == .up || (d.port j).state == .training)

theorem anyPortBusy_iff (d : Dev) :
    d.anyPortBusy = true ↔ ∃ j < 8, (d.port j).state = .up ∨ (d.port j).state = .training := by
  simp [Dev.anyPortBusy]

theorem writeDevNum_busy {d : Dev} (v : Nat) (h : d.anyPortBusy = true) :
    d.writeDevNum v = { d with links := { d.links with numRej := true } } := by
  rw [Dev.anyPortBusy] at h
  simp only [Dev.writeDevNum, h, if_true]
  cases bit v 31 <;> rfl

theorem writeDevNum_free {d : Dev} (v : Nat) (h : d.anyPortBusy = false) :
    d.writeDevNum v = { d with links := { d.links with devNum := v % 2 ^ 14, numRej := d.links.numRej && !bit v 31 } } := by
  rw [Dev.anyPortBusy] at h
  simp only [Dev.writeDevNum, h, Bool.false_eq_true, if_false]
  cases bit v 31 <;> simp [Dev.modLinks]

/-- Settles O49: the write reaches the device number (`doDevNumWrite_reached`), which takes it only while no port is busy. -/
theorem devNumWriteRule : Obligations.DevNumWriteRule := by
  unfold Obligations.DevNumWriteRule
  intro s p v hcalm hup hp hr
  have hwrite := doDevNumWrite_reached v hup hp hr
  constructor
  · intro hfree
    have hidle : s.dev.anyPortBusy = false := by
      rw [← Bool.not_eq_true, anyPortBusy_iff]
      rintro ⟨j, hj, hup | htraining⟩
      · exact (hfree j hj).1 hup
      · exact (hfree j hj).2 htraining
    exact runCalm (f := (doDevNumWrite · p v)) (hwrite.trans (writeDevNum_free _ hidle)) hcalm
  · intro j hj hbusy
    have hany : s.dev.anyPortBusy = true := (anyPortBusy_iff _).2 ⟨j, hj, hbusy⟩
    exact runCalm (f := (doDevNumWrite · p v)) (hwrite.trans (writeDevNum_busy _ hany)) hcalm

/-! ### Flits and replays (R571, R572) -/

/-- A change of a port is what it does to the port as it is. -/
theorem modPort_congr {d : Dev} {j : Nat} {f g : Port → Port} (h : f (d.port j) = g (d.port j)) : d.modPort j f = d.modPort j g := by
  have htable : tmod Port.reset d.links.ports j f = tmod Port.reset d.links.ports j g := congrArg (tput Port.reset d.links.ports j) h
  simp only [Dev.modPort, Dev.modLinks, htable]

/-- Settles O36: what a flit, a replay request and the end of a retrain do to their port (`modPort_congr`), and how a retrain, its
time-out and a full training go on. -/
theorem portsComplete : Obligations.PortsComplete := by
  unfold Obligations.PortsComplete
  refine ⟨?badCrc, ?outOfTurn, ?inTurn, ?replay, ?retrain, ?retrained, ?timeout, ?trained⟩
  case badCrc =>
    intro s j f hcalm hcarries hcrc
    refine runCalm (f := (doFlitReceive · j f)) (modPort_congr ?_) hcalm
    simp only [hcarries, hcrc, Bool.not_true, Bool.not_false, Bool.false_eq_true, if_false, if_true]
  case outOfTurn =>
    intro s j f hcalm hcarries hcrc hidle hnum
    refine runCalm (f := (doFlitReceive · j f)) (modPort_congr ?_) hcalm
    have hturn : (!f.idle && f.num != (s.dev.port j).rxNext) = true := by simp [hidle, hnum]
    simp only [hcarries, hcrc, hturn, Bool.not_true, Bool.false_eq_true, if_false, if_true]
  case inTurn =>
    intro s j f hcalm hcarries hcrc hidle hnum htransit
    refine runCalm (f := (doFlitReceive · j f)) (modPort_congr ?_) hcalm
    simp only [hcarries, hcrc, hidle, htransit, hnum, bne_self_eq_false, Bool.and_false, Bool.false_and, Bool.not_true,
      Bool.false_eq_true, if_false]
  case replay =>
    intro s j n hcalm hcarries
    refine runCalm (f := (doReplayRequest · j n)) (modPort_congr ?_) hcalm
    simp only [hcarries, Bool.not_true, Bool.false_eq_true, if_false]
  case retrain =>
    intro s j cause hcalm hstate hcause hrecent
    refine runCalm (f := (doRetrain · j cause none)) ?_ hcalm
    have hgo : ¬((s.dev.port j).state ≠ .up ∨
        cause = .thirdReplay ∧ (!(s.dev.port j).replay.any (fun r => decide (3 ≤ r.replays))) = true) := by
      rintro (h | ⟨h, -⟩)
      · exact h hstate
      · exact hcause h
    simp only [doRetrain, if_neg hgo, hrecent, List.nil_append, List.length_singleton, Nat.reduceLeDiff, if_false]
  case retrained =>
    intro s j hcalm hstate
    exact runCalm (f := (doRetrainDone · j)) (modPort_congr (if_pos hstate)) hcalm
  case timeout =>
    intro s j hstate hlate
    exact runPut (f := (doRetrainTimeout · j)) (if_pos ⟨hstate, hlate⟩)
  case trained =>
    intro s j hcalm hstate
    have hgo : ¬(s.dev.port j).state ≠ .training := not_not.2 hstate
    exact ⟨runCalm (f := (doFullTrainingDone · j [])) (if_neg hgo) hcalm,
      fun l => runCalm (f := (doFullTrainingDone · j [l])) (if_neg hgo) hcalm,
      fun a b l => runPut (f := (doFullTrainingDone · j (a :: b :: l))) (if_neg hgo)⟩

end Sys2Proof.Machine
end

section
/-! PROOFS (O5). Creation and regrowth of partitions, and their shares. -/

namespace Sys2Proof.Machine

/-! ### Commands of class 0x1 that run at once (R537) -/

/-- R261, R537: a command of class 0x1 that may start and whose run reaches its end holds what it made for its commit point. -/
theorem runPart_ok {s : State} {c : CmdRef} {e : Entry} {k : Counts} {x : Ctx} {f more : Dev → Entry → Dev} (h : ReadyPart s c e)
    (hf : f s.dev e = s.dev.ranOk c e k x) : s.runDev (fun d => d.onPart c (f d) (more d)) = .next (s.ran c e k x) :=
  runDev_ran h.calm ((onPart_ready (f s.dev) (more s.dev) h).trans hf)

/-- R533: the Spindles that a placement takes where enough are free. -/
theorem pickSpindles_ok {d : Dev} {w : Nat} {l : List Nat} (hl : d.freeSpindles.take w = l) (hlen : l.length = w) :
    d.pickSpindles w = some l := by
  rw [Dev.pickSpindles, hl]
  exact if_pos hlen

/-! ### What a run reads of host memory (R601) -/

@[simp] theorem seenBy_host (d : Dev) (e : Entry) : (d.seenBy e).mem.host = d.mem.host := seenBy_same (·.mem.host) (fun _ _ => rfl) d e

/-- R601: a run that has held nothing yet reads host memory as it is. -/
theorem readHost_start {d : Dev} (c : CmdRef) (e : Entry) (iova n : Nat) (hup : d.links.hostUp = true) :
    readHost iova n (.start d c e) = .ok (getBytes d.mem.host iova n) (.start d c e) := by
  simp only [readHost, run_get_bind, start_dev, seenBy_links, hup, run_require_true_bind, seenBy_host]
  rfl

/-! ### PART_CREATE, PART_CREATE_REGROW and PART_SHARES (R533, R534, R540, R561, R566) -/

section
variable {d : Dev} {part w : Nat} {l : List Nat}

/-- R533, R534: the run of a creation of a partition of this device alone. -/
theorem runPartCreate_alone (c : CmdRef) (e : Entry) (share attr spanId n iova : Nat) (hfree : (d.part part).state = .free)
    (hspan : bit attr 1 = false) (hpick : d.pickSpindles w = some l) :
    runPartCreate part w share attr spanId n iova (.start d c e) =
      .ok (okCounts (maskOf l) 0 0) (.made d c e [.partNew part share 0 (bit attr 0) false [] l]) := by
  rw [runPartCreate, run_getDev_bind]
  simp only [start_dev, seenBy_part, seenBy_links, seenBy_pickSpindles, hfree, hspan, hpick, beq_self_eq_true, Bool.false_eq_true,
    if_false, Bool.not_false, Bool.true_or, run_require_true_bind, run_bind_pure, run_hold_bind, run_pure]
  rfl

/-- R533, R534, R561: the run of a creation of a span whose list names this device. -/
theorem runPartCreate_span (c : CmdRef) (e : Entry) (share spanId : Nat) {attr n iova : Nat} {list : List Nat}
    (hfree : (d.part part).state = .free) (hspan : bit attr 1 = true) (hpick : d.pickSpindles w = some l) (hup : d.links.hostUp = true)
    (hlist : list = (List.range n).map (fun i => leAt (getBytes d.mem.host iova (2 * n)) (2 * i) 2)) (hmine : d.links.devNum ∈ list) :
    runPartCreate part w share attr spanId n iova (.start d c e) =
      .ok (okCounts (maskOf l) n 0) (.made d c e [.partNew part share spanId (bit attr 0) true list l]) := by
  have hlen : list.length = n := by rw [hlist, List.length_map, List.length_range]
  have hnamed : (!true || list.contains d.links.devNum) = true := by simpa using hmine
  rw [runPartCreate, run_getDev_bind]
  simp only [start_dev, seenBy_part, seenBy_links, seenBy_pickSpindles, hfree, hspan, hpick, beq_self_eq_true, if_true,
    run_require_true_bind]
  rw [run_bind_ok (readHost_start c e iova (2 * n) hup), run_bind_pure, ← hlist, run_require_bind hnamed, run_hold_bind, run_pure, hlen]
  rfl

/-- R566: the run of a regrowth of a RECLAIMED partition. -/
theorem runPartRegrow_ok (c : CmdRef) (e : Entry) (hstate : (d.part part).state = .reclaimed) (hpick : d.pickSpindles w = some l) :
    runPartRegrow part w (.start d c e) =
      .ok (okCounts (maskOf l) (d.part part).spanList.length 0) (.made d c e [.partRegrow part l]) := by
  rw [runPartRegrow, run_getDev_bind]
  simp only [start_dev, seenBy_part, seenBy_pickSpindles, hstate, hpick, beq_self_eq_true, run_require_true_bind, run_hold_bind, run_pure]
  rfl

end

/-- R540: the run of a new share of a partition, or of a queue that exists. -/
theorem runPartShares_ok {d : Dev} {kind index : Nat} (c : CmdRef) (e : Entry) (share : Nat)
    (hqueue : kind ≠ 0 → 2 ≤ index ∧ d.hasQueue index = true) :
    runPartShares kind index share (.start d c e) =
      .ok (okCounts index share 0) (.made d c e [if kind = 0 then .partShare index share else .queueShare index share]) := by
  have hknown : (kind == 0 || (decide (2 ≤ index) && d.hasQueue index)) = true := by
    by_cases hkind : kind = 0
    · rw [hkind]; rfl
    · obtain ⟨hindex, hhas⟩ := hqueue hkind
      rw [hhas, decide_eq_true hindex, Bool.and_self, Bool.or_true]
  rw [runPartShares, run_getDev_bind, start_dev, seenBy_hasQueue, run_require_bind hknown, run_hold_bind, run_pure]
  rfl

/-- Settles O5: each command runs on the block with what waits taken (`runClaimed_ok`), and its run ends by its own lemma. -/
theorem partCreateCompletes : Obligations.PartCreateCompletes := by
  unfold Obligations.PartCreateCompletes
  refine ⟨?alone, ?span, ?regrow, ?partShare, ?queueShare⟩
  case alone =>
    intro s c e part w share attr spanId n iova r l hready hp d hfree hspan hl hlen
    refine runPart_ok hready ?_
    rw [hp]
    exact runClaimed_ok (runPartCreate_alone c e share attr spanId n iova hfree hspan (pickSpindles_ok hl hlen))
  case span =>
    intro s c e part w share attr spanId n iova r l list hready hp d hfree hspan hl hlen hup hlist hmine
    refine runPart_ok hready ?_
    rw [hp]
    exact runClaimed_ok (runPartCreate_span c e share spanId hfree hspan (pickSpindles_ok hl hlen) hup hlist hmine)
  case regrow =>
    intro s c e part w r l hready hp d hstate hl hlen
    exact runPart_ok hready (by rw [hp]; exact runClaimed_ok (runPartRegrow_ok c e hstate (pickSpindles_ok hl hlen)))
  case partShare =>
    intro s c e p share r hready hp
    exact runPart_ok hready (by rw [hp]; exact runClaimed_ok (runPartShares_ok c e share (fun h => absurd rfl h)))
  case queueShare =>
    intro s c e q share r hready hp hq hhas
    exact runPart_ok hready (by rw [hp]; exact runClaimed_ok (runPartShares_ok c e share (fun _ => ⟨hq, hhas⟩)))

end Sys2Proof.Machine
end

section
/-! PROOFS (O7). CTX_SAVE and CTX_RESTORE. -/

namespace Sys2Proof.Machine

/-! ### What a save or a restore finds (R263): its partition, its packets and its pages are no bytes of memory -/

@[simp] theorem seenBy_heldIn (d : Dev) (e : Entry) (part : Nat) : (d.seenBy e).heldIn part = d.heldIn part :=
  seenBy_same (·.heldIn part) (fun _ _ => rfl) d e

@[simp] theorem seenBy_skeinSum (d : Dev) (e : Entry) : (d.seenBy e).skeinSum = d.skeinSum :=
  seenBy_same (·.skeinSum) (fun _ _ => rfl) d e

@[simp] theorem seenBy_freePages (d : Dev) (e : Entry) (t : Tier) (f : Nat → Bool) (n : Nat) :
    (d.seenBy e).mem.freePages t f n = d.mem.freePages t f n :=
  seenBy_same (·.mem.freePages t f n) (fun _ _ => rfl) d e

/-! ### CTX_SAVE (R546, R549, R553) -/

/-- A command of class 0x1 at work goes on. -/
theorem onPart_running {d : Dev} {c : CmdRef} {e : Entry} {p : Progress} (start more : Entry → Dev) (hentry : d.entry c = some e)
    (hphase : e.phase = .running p) : d.onPart c start more = more e := by
  simp only [Dev.onPart, hentry, hphase, reduceCtorEq, if_false]

/-- R546: the first visit of a save of an ACTIVE partition with room for its area. -/
theorem doCtxSave_starts {s : State} {c : CmdRef} {e : Entry} {part : Nat} {r : Bool} {area : List Nat} (hready : ReadyPart s c e)
    (hp : e.payload = .ctxSave part r) (hactive : (s.dev.part part).state = .active)
    (harea : s.dev.claimed.mem.freePages .hbm (fun _ => true) (s.dev.part part).areaPages = area)
    (hlen : area.length = (s.dev.part part).areaPages) : doCtxSave s.dev c = s.dev.saveStart c part area := by
  have hroom : ¬area.length < (s.dev.part part).areaPages := by rw [hlen]; exact lt_irrefl _
  rw [doCtxSave, onPart_ready _ _ hready]
  simp only [hp, hactive, harea, hroom, ne_eq, not_true_eq_false, if_false]

/-- What a save keeps of a partition: its area, its Skein pages, and its Spindles' half-tiles and tile queues. -/
def Dev.savedOf (d : Dev) (part : Nat) (area : List Nat) (pages : List (Nat × List Host.Cell)) : SavedCtx :=
  ⟨area, pages, (d.part part).spindles.map (fun i => (d.spin i).acc),
    (d.part part).spindles.map (fun i => ((d.spin i).tq, (d.spin i).tqHead))⟩

/-- R553: a forerunner's Skein pages are unmapped, not copied. -/
theorem runCtxSave_forerunner {d : Dev} {part : Nat} (c : CmdRef) (e : Entry) (held : Nat) (area : List Nat)
    (hfore : (d.part part).forerunner = true) :
    runCtxSave part held area (.start d c e) = .ok (okCounts held 0 area.length)
      (.made d c e [.ctxSaved part (d.savedOf part area ((d.part part).skeinData.map (fun kv => (kv.1, []))))]) := by
  rw [runCtxSave, run_getDev_bind]
  simp only [start_dev, seenBy_part, seenBy_spin, hfore, List.mapM_pure, run_bind_pure, if_true, run_hold_bind, run_pure]
  rfl

/-- R546: the Skein pages of another partition are copied. -/
theorem runCtxSave_copies {d : Dev} {part : Nat} {c : CmdRef} {e : Entry} {pages : List (Nat × List Host.Cell)} {x : Ctx} (held : Nat)
    (area : List Nat) (hfore : (d.part part).forerunner = false)
    (hpages : ((d.part part).skeinData.mapM (fun kv => do return (kv.1, ← readPage kv.2.pa)) : Run (List (Nat × List Host.Cell)))
      (.start d c e) = .ok pages x) :
    runCtxSave part held area (.start d c e) = .ok (okCounts held pages.length area.length)
      { x with eff := .ctxSaved part (d.savedOf part area pages) :: x.eff } := by
  rw [runCtxSave, run_getDev_bind]
  simp only [start_dev, seenBy_part, seenBy_spin, hfore, Bool.false_eq_true, if_false]
  exact (run_bind_ok hpages).trans rfl

/-- R546: a save's copy that reaches its end is kept with its area. -/
theorem saveCopy_ok {d : Dev} {c : CmdRef} {e : Entry} {part : Nat} {area : List Nat} {k : Counts} {x : Ctx}
    (hentry : d.entry c = some e) (hrun : runCtxSave part (d.heldIn part) area (.start d c e) = .ok k x) :
    d.saveCopy c e part { Result.fresh with effects := [.ctxSaved part ⟨area, [], [], []⟩] } = d.ranOk c e k x := by
  have hdone : ((d.ranOk c e k x).entry c).any Entry.isDone = false := by rw [ranOk_entry hentry]; rfl
  simp only [Dev.saveCopy, List.flatMap_cons, List.flatMap_nil, List.append_nil, run_ok hrun, hdone, Bool.false_eq_true, if_false]

/-- R546: the last visit of a save, once nothing of its partition waits for a commit point. -/
theorem doCtxSave_copies {s : State} {c : CmdRef} {e : Entry} {part : Nat} {r : Bool} {area : List Nat} {k : Counts} {x : Ctx}
    (hstage : AtStage s c e 1 { Result.fresh with effects := [.ctxSaved part ⟨area, [], [], []⟩] }) (hp : e.payload = .ctxSave part r)
    (hquiet : s.dev.live.any (fun x => x.2.hdr.part == part && x.2.ref != c && x.2.isRan) = false)
    (hrun : runCtxSave part (s.dev.heldIn part) area (.start s.dev c e) = .ok k x) : doCtxSave s.dev c = s.dev.ranOk c e k x := by
  obtain ⟨hentry, hrunning⟩ := hstage
  have hat : e.stage = some (1, { Result.fresh with effects := [.ctxSaved part ⟨area, [], [], []⟩] }) := by rw [Entry.stage, hrunning]
  rw [doCtxSave, onPart_running _ _ hentry hrunning]
  simp only [hp, hat, hquiet, Bool.false_eq_true, if_false]
  exact saveCopy_ok hentry hrun

/-! ### CTX_RESTORE (R550, R551) -/

/-- R550: what a restore holds of one saved page and the frame that it takes. -/
def restoredPage (part : Nat) (pf : (Nat × List Host.Cell) × Nat) : List Effect :=
  [.block (paOf .skein pf.2) pageBytes pf.1.2, .map part pf.1.1 ⟨paOf .skein pf.2, .data⟩, .pageUse .skein pf.2 (.mapped part)]

/-- R550, R551: the run of a restore without a reload table, with its Spindles, its frames and its quota. -/
theorem runCtxRestore_ok {d : Dev} {part : Nat} {l frames : List Nat} (c : CmdRef) (e : Entry) (va : Nat)
    (hstate : (d.part part).state = .saved) (hpick : d.pickSpindles (d.part part).saved.acc.length = some l)
    (hquota : d.skeinSum - (d.part part).wickUsed + (d.part part).quotaSkein ≤ 376)
    (hframes : d.mem.freePages .skein (fun _ => true) (d.part part).saved.pages.length = frames)
    (hlen : frames.length = (d.part part).saved.pages.length) :
    runCtxRestore part 0 va (.start d c e) =
      .ok (okCounts (maskOf l) (if (d.part part).forerunner then 0 else (d.part part).saved.pages.length) (d.heldIn part))
        (.made d c e (.ctxActive part l :: (((d.part part).saved.pages.zip frames).flatMap (restoredPage part)).reverse)) := by
  have hroom : (decide (d.skeinSum - (d.part part).wickUsed + (d.part part).quotaSkein ≤ 376) &&
      frames.length == (d.part part).saved.pages.length) = true := by
    rw [hlen, decide_eq_true hquota, beq_self_eq_true, Bool.and_self]
  have hpages := run_forM_hold (eff := restoredPage part) (act := fun pf => do
      hold (.block (paOf .skein pf.2) pageBytes pf.1.2)
      hold (.map part pf.1.1 ⟨paOf .skein pf.2, .data⟩)
      hold (.pageUse .skein pf.2 (.mapped part))) (fun _ _ => rfl) ((d.part part).saved.pages.zip frames) (.start d c e)
  rw [runCtxRestore, run_getDev_bind]
  simp only [start_dev, seenBy_part, seenBy_pickSpindles, seenBy_skeinSum, seenBy_freePages, seenBy_heldIn, hstate, hpick, hframes,
    hroom, beq_self_eq_true, Bool.true_or, if_true, run_require_true_bind, run_bind_pure, List.filter_nil, List.foldl_nil]
  rw [run_bind_ok hpages, run_hold_bind, run_pure]
  simp only [Ctx.made, Ctx.start, List.append_nil, List.length_nil]

/-- Settles O7: the visits of a save by `doCtxSave_starts` and `doCtxSave_copies`, whose copy is `runCtxSave_forerunner` or
`runCtxSave_copies`; a restore runs on the block with what waits taken (`runClaimed_ok`). -/
theorem contextCommandsComplete : Obligations.ContextCommandsComplete := by
  unfold Obligations.ContextCommandsComplete
  refine ⟨?starts, ?forerunner, ?copies, ?restore⟩
  case starts =>
    intro s c e part r hready hp hactive area hlen
    have hgo : doCtxSave s.dev c = s.dev.saveStart c part area := doCtxSave_starts hready hp hactive rfl hlen
    exact runPut (f := (doCtxSave · c)) hgo
  case forerunner =>
    intro s c e part r area hstage hcalm hp hquiet x hfore
    exact runDev_ran (f := (doCtxSave · c)) hcalm
      (doCtxSave_copies hstage hp hquiet (runCtxSave_forerunner c e (s.dev.heldIn part) area hfore))
  case copies =>
    intro s c e part r area pages x hstage hcalm hp hquiet hfore hpages k y
    exact runDev_ran (f := (doCtxSave · c)) hcalm
      (doCtxSave_copies hstage hp hquiet (runCtxSave_copies (s.dev.heldIn part) area hfore hpages))
  case restore =>
    intro s c e part va r l hready hp hstate d x frames hl hlen hquota hframes
    refine runPart_ok hready ?_
    rw [hp]
    exact runClaimed_ok (runCtxRestore_ok c e va hstate (pickSpindles_ok hl hlen) hquota rfl hframes)

end Sys2Proof.Machine
end

section
/-! PROOFS (O8, O9). RECLAIM and PART_RELEASE. -/

namespace Sys2Proof.Machine

/-! ### RECLAIM (R558 to R560, R567) -/

section
variable {d : Dev} {c : CmdRef} {e : Entry} {part snap : Nat} {rsv : Bool} {r : Result}

/-- R558: a RECLAIM at work goes on by its phase. -/
theorem doReclaim_goes {p : Progress} (hentry : d.entry c = some e) (hphase : e.phase = .running p)
    (hp : e.payload = .reclaim part snap rsv) : doReclaim d c = d.reclaimGoes c part snap e := by
  rw [doReclaim, onPart_running _ _ hentry hphase]
  simp only [hp]

/-- R558: the first visit of a RECLAIM of an ACTIVE or SAVED partition. -/
theorem doReclaim_starts {s : State} (hready : ReadyPart s c e) (hp : e.payload = .reclaim part snap rsv)
    (hstate : (s.dev.part part).state = .active ∨ (s.dev.part part).state = .saved) :
    let k := s.dev.stopAndKill c part true
    doReclaim s.dev c = ({ k.1 with parts := { k.1.parts with reclaim := { k.1.parts.reclaim with part := part } } } : Dev).toStage c 1
      { Result.fresh with c1 := k.2.2 } := by
  rw [doReclaim, onPart_ready _ _ hready]
  simp only [hp, hstate, if_true]

/-- R559: once every record is written, a RECLAIM takes its snapshot where one is due, and else goes on without. -/
theorem reclaimGoes_killed (hphase : e.phase = .running (.stage 1 r)) (hquiet : d.partQuiet c part = true) :
    d.reclaimGoes c part snap e = (d.reclaimTakes part snap).elim (d.toStage c 3 { r with c2 := max32 })
      (fun n => d.reclaimTake c e part n r.c1) := by
  simp only [Dev.reclaimGoes, hphase, hquiet, Bool.not_true, Bool.false_eq_true, if_false]
  cases d.reclaimTakes part snap <;> rfl

/-- R559: the TAKE of a RECLAIM ends once its messages are acknowledged. -/
theorem reclaimGoes_taken {sent : Bool} {own : List Byte} (hphase : e.phase = .running (.coll sent own r)) (hacked : d.awaits c = false) :
    d.reclaimGoes c part snap e = d.reclaimTaken c e part own r := by
  simp only [Dev.reclaimGoes, hphase, hacked, Bool.false_eq_true, if_false]

/-- R560: the phase that releases what the partition holds. -/
theorem reclaimGoes_releases (hphase : e.phase = .running (.stage 3 r)) : d.reclaimGoes c part snap e = d.reclaimRelease c part r := by
  simp only [Dev.reclaimGoes, hphase]

/-- R560, R567: the last phase, once everything released is zero. -/
theorem reclaimGoes_zero (hphase : e.phase = .running (.stage 4 r)) (hzero : d.stillZeroing part = false) :
    d.reclaimGoes c part snap e =
      (d.noteReclaim part r).stagesDone c e { r with effects := .reclaimed part :: ownQueueGone d c part } := by
  simp only [Dev.reclaimGoes, hphase, hzero, Bool.false_eq_true, if_false]

end

/-- Settles O8: the first visit by `doReclaim_starts`, each later one (`doReclaim_goes`) by the lemma of its phase. -/
theorem reclaimCompletes : Obligations.ReclaimCompletes := by
  unfold Obligations.ReclaimCompletes
  refine ⟨?starts, ?untaken, ?takes, ?taken, ?releases, ?zero⟩
  case starts =>
    intro s c e part snap r hready hp hstate
    exact runPut (f := (doReclaim · c)) (doReclaim_starts hready hp hstate)
  case untaken =>
    intro s c e part snap r res hstage hp hquiet htakes
    have hgo := (doReclaim_goes hstage.entry hstage.running hp).trans (reclaimGoes_killed hstage.running hquiet)
    exact runPut (f := (doReclaim · c)) (by rw [hgo, htakes]; rfl)
  case takes =>
    intro s c e part snap r res n hstage hp hquiet htakes
    have hgo := (doReclaim_goes hstage.entry hstage.running hp).trans (reclaimGoes_killed hstage.running hquiet)
    exact runPut (f := (doReclaim · c)) (by rw [hgo, htakes]; rfl)
  case taken =>
    intro s c e part snap r sent own res hentry hphase hp hacked
    exact runPut (f := (doReclaim · c)) ((doReclaim_goes hentry hphase hp).trans (reclaimGoes_taken hphase hacked))
  case releases =>
    intro s c e part snap r res hstage hp x
    exact runPut (f := (doReclaim · c)) ((doReclaim_goes hstage.entry hstage.running hp).trans (reclaimGoes_releases hstage.running))
  case zero =>
    intro s c e part snap r res hstage hp hzero d
    exact runPut (f := (doReclaim · c)) ((doReclaim_goes hstage.entry hstage.running hp).trans (reclaimGoes_zero hstage.running hzero))

/-! ### PART_RELEASE (R560, R565) -/

/-- R565: the first visit of a PART_RELEASE of a partition that is not FREE. -/
theorem doPartRelease_starts {s : State} {c : CmdRef} {e : Entry} {part : Nat} {r : Bool} (hready : ReadyPart s c e)
    (hp : e.payload = .partRelease part r) (hstate : (s.dev.part part).state ≠ .free) :
    doPartRelease s.dev c =
      (s.dev.stopAndKill c part false).1.toStage c 1 { Result.fresh with c0 := (s.dev.stopAndKill c part false).2.1 } := by
  rw [doPartRelease, onPart_ready _ _ hready]
  simp only [hp, if_neg hstate]

/-- R560, R565: a PART_RELEASE at work goes on by its stage. -/
theorem doPartRelease_goes {s : State} {c : CmdRef} {e : Entry} {part n : Nat} {r : Bool} {res : Result} (hstage : AtStage s c e n res)
    (hp : e.payload = .partRelease part r) :
    doPartRelease s.dev c =
      if n = 1 then (if s.dev.partQuiet c part then s.dev.releaseRelease c part res else s.dev)
      else if s.dev.stillZeroing part then s.dev
      else s.dev.stagesDone c e { res with effects := .partFree part :: ownQueueGone s.dev c part } := by
  have hat : e.stage = some (n, res) := by rw [Entry.stage, hstage.running]
  rw [doPartRelease, onPart_running _ _ hstage.entry hstage.running]
  simp only [hp, hat]

/-- Settles O9: the first visit by `doPartRelease_starts`, each later one by its branch of `doPartRelease_goes`. -/
theorem partReleaseCompletes : Obligations.PartReleaseCompletes := by
  unfold Obligations.PartReleaseCompletes
  refine ⟨?starts, ?releases, ?zero⟩
  case starts =>
    intro s c e part r hready hp hstate
    exact runPut (f := (doPartRelease · c)) (doPartRelease_starts hready hp hstate)
  case releases =>
    intro s c e part r res hstage hp hquiet x
    exact runPut (f := (doPartRelease · c)) ((doPartRelease_goes hstage hp).trans ((if_pos rfl).trans (if_pos hquiet)))
  case zero =>
    intro s c e part r res hstage hp hzero
    have hnonzero : ¬s.dev.stillZeroing part = true := by rw [hzero]; decide
    exact runPut (f := (doPartRelease · c)) ((doPartRelease_goes hstage hp).trans ((if_neg (by decide)).trans (if_neg hnonzero)))

end Sys2Proof.Machine
end

section
/-! PROOFS (O34). The commands of routes, groups, writes and signals across devices, and chain reductions. -/

namespace Sys2Proof.Machine

/-! ### ROUTE_SET (R578, R581) -/

@[simp] theorem seenBy_routeChanges (d : Dev) (e : Entry) (runs : List (Nat × Nat × Nat)) :
    (d.seenBy e).routeChanges runs = d.routeChanges runs :=
  seenBy_same (·.routeChanges runs) (fun _ _ => rfl) d e

@[simp] theorem seenBy_groupInUse (d : Dev) (e : Entry) (c : CmdRef) (g : Nat) : (d.seenBy e).groupInUse c g = d.groupInUse c g :=
  seenBy_same (·.groupInUse c g) (fun _ _ => rfl) d e

@[simp] theorem seenBy_hopsTo (d : Dev) (e : Entry) (dst : Nat) : (d.seenBy e).hopsTo dst = d.hopsTo dst :=
  seenBy_same (·.hopsTo dst) (fun _ _ => rfl) d e

/-- R581: the run of a ROUTE_SET, which cannot fail. -/
theorem runRouteSet_ok (runs : List (Nat × Nat × Nat)) (d : Dev) (c : CmdRef) (e : Entry) :
    runRouteSet runs (.start d c e) =
      .ok (okCounts (runs.map (·.2.1)).sum (d.routeChanges runs).length 0) (.made d c e [.link (.routes runs)]) := by
  rw [runRouteSet, run_getDev_bind, start_dev, seenBy_routeChanges, run_hold_bind, run_pure]
  rfl

/-! ### GROUP_DECLARE and GROUP_REMOVE (R583 to R585) -/

section
variable {d : Dev} {c : CmdRef} {e : Entry} {part g : Nat}

/-- R583, R584: the run of a declaration of a readable list of distinct members that names this device, under an id that is new or
that no other command names. -/
theorem runGroupDeclare_ok {n va : Nat} {b : List Byte} {x : Ctx} (hread : readIn accPlain part va (8 * n) (.start d c e) = .ok b x) :
    let ms := (List.range n).map (parseMember b)
    let devs := ms.map (·.1.device)
    (∀ m ∈ ms, m.2 = true ∧ m.1.part < 14 ∧ m.1.device < 16384) → nodupNat devs = devs → d.links.devNum ∈ devs →
    (tfind d.links.groups g = none → d.links.groups.length < 256) →
    (∀ old, tfind d.links.groups g = some old → old.part = part ∧ d.groupInUse c g = false) →
    let pos := (devs.findIdx? (· == d.links.devNum)).getD 0
    runGroupDeclare part g n va (.start d c e) = .ok (okCounts n (groupDigest g b) pos)
      { x with eff := .link (.group g ⟨part, ms.map (·.1), pos, groupDigest g b⟩) :: x.eff } := by
  intro ms devs hmembers hdistinct hmine hnew hold pos
  have hlist : (ms.all (fun m => m.2 && decide (m.1.part < 14) && decide (m.1.device < 16384)) && decide (nodupNat devs = devs) &&
      devs.contains d.links.devNum) = true := by
    have hall : ms.all (fun m => m.2 && decide (m.1.part < 14) && decide (m.1.device < 16384)) = true := by
      refine List.all_eq_true.2 fun m hm => ?_
      obtain ⟨hzero, hpart, hdevice⟩ := hmembers m hm
      rw [hzero, decide_eq_true hpart, decide_eq_true hdevice, Bool.and_self, Bool.and_self]
    rw [hall, decide_eq_true hdistinct, List.contains_iff_mem.2 hmine, Bool.and_self, Bool.and_self]
  have hchecks : (!(tfind d.links.groups g).any (fun k => k.part != part)) = true ∧
      ((tfind d.links.groups g).isSome || decide (d.links.groups.length < 256)) = true ∧
      (!((tfind d.links.groups g).isSome && d.groupInUse c g)) = true := by
    cases hg : tfind d.links.groups g with
    | none => exact ⟨rfl, decide_eq_true (hnew hg), rfl⟩
    | some old =>
      obtain ⟨hpart, hidle⟩ := hold old hg
      exact ⟨by simp [hpart], rfl, by simp [hidle]⟩
  obtain ⟨howner, hroom, hidle⟩ := hchecks
  rw [runGroupDeclare, run_get_bind]
  simp only [start_dev, seenBy_links, seenBy_groupInUse]
  rw [run_require_bind howner, run_bind_ok hread, run_require_bind hlist, run_require_bind hroom]
  exact run_require_bind hidle _ _ _

/-- R585: the run of a removal of a group of the partition that no other command names. -/
theorem runGroupRemove_ok {old : Group} (hfound : tfind d.links.groups g = some old) (hpart : old.part = part)
    (hidle : d.groupInUse c g = false) :
    runGroupRemove part g (.start d c e) =
      .ok (okCounts old.members.length old.digest old.pos) (.made d c e [.link (.groupGone g)]) := by
  have hfree : (!d.groupInUse (Ctx.start d c e).cmd g) = true := by rw [Ctx.start, hidle]; rfl
  rw [runGroupRemove, run_get_bind]
  simp only [start_dev, seenBy_links, seenBy_groupInUse, hfound, hpart, beq_self_eq_true, run_require_true_bind]
  rw [run_require_bind hfree, run_hold_bind, run_pure]
  rfl

/-! ### LINK_WRITE and LINK_SIGNAL (R591, R593) -/

/-- R583: a member named by its position. -/
theorem memberOf_ok {ms : List GroupMember} {pos p : Nat} {m : GroupMember} {x : Ctx} (hgroup : x.dev.groupOf part g = some (ms, pos))
    (hm : ms[p]? = some m) : memberOf part g p x = .ok m x := by
  simp only [memberOf, run_getDev_bind, hgroup, hm, run_pure]

/-- R591: the run of a LINK_WRITE to a member with a route, whose source reads. -/
theorem runLinkWrite_ok {ms : List GroupMember} {pos p n va : Nat} {m : GroupMember} {src : Desc} {data : List Byte} {x : Ctx}
    (hgroup : d.groupOf part g = some (ms, pos)) (hm : ms[p]? = some m) (hroute : d.routeOk m.device = true)
    (hread : readVa accMover src.va n (.start d c e) = .ok data x) :
    runLinkWrite part g p n va src (.start d c e) =
      .ok (okCounts n (d.hopsTo m.device) 0, [(m.device, .linkData g m.part va d.links.nextMsg data)]) x := by
  rw [runLinkWrite, run_bind_ok (memberOf_ok (by rw [start_dev, seenBy_groupOf]; exact hgroup) hm), run_getDev_bind]
  simp only [start_dev, seenBy_routeOk, seenBy_hopsTo, seenBy_links, hroute, run_require_true_bind]
  exact run_bind_ok hread

/-- R593: the run of a LINK_SIGNAL to a member with a route. -/
theorem runLinkSignal_ok {ms : List GroupMember} {pos p : Nat} {m : GroupMember} (tok val : Nat)
    (hgroup : d.groupOf part g = some (ms, pos)) (hm : ms[p]? = some m) (hroute : d.routeOk m.device = true) :
    runLinkSignal part g p tok val (.start d c e) =
      .ok (okCounts (d.hopsTo m.device) 0 0, [(m.device, .signal g m.part tok val)]) (.start d c e) := by
  rw [runLinkSignal, run_bind_ok (memberOf_ok (by rw [start_dev, seenBy_groupOf]; exact hgroup) hm), run_getDev_bind]
  simp only [start_dev, seenBy_routeOk, seenBy_hopsTo, hroute, run_require_true_bind, run_pure]

end

/-- R579, R591: a packet whose run gives one message to the link waits for its acknowledgement. -/
theorem runThenSend_one {d : Dev} {c : CmdRef} {e : Entry} {m : Run (Counts × List (Nat × MsgBody))} {k : Counts} {dst : Nat}
    {body : MsgBody} {x : Ctx} (h : m (.start d c e) = .ok (k, [(dst, body)]) x) :
    d.runThenSend c e [] m = (d.sending c e k x).sendMsg (some c) dst body :=
  runThenSend_ok h

/-- A packet that may run has the effect of its run, with the errors taken. -/
theorem runPacket_put {s : State} {c : CmdRef} {e : Entry} {d : Dev} {f : Dev → Entry → Dev} (h : Ready s c e) (hf : f s.dev e = d) :
    s.runDev (fun d => d.onPacket c (f d)) = .next (s.put d) :=
  runPut ((onPacket_ready (f s.dev) h.entry h.dispatched h.noRoot).trans hf)

/-! ### CHAIN_REDUCE (R586, R589) -/

/-- R586, R589: a CHAIN_REDUCE in a declared group that it may begin in waits with its member's partial. -/
theorem doChainReduce_joins {s : State} {c : CmdRef} {e : Entry} {g op w n tag outFmt inVa inStride inFmt outVa pos : Nat} {r : Bool}
    {ms : List GroupMember} {own : List Byte} {d' : Dev} {x : Ctx} (hready : Ready s c e)
    (hp : e.payload = .chainReduce g op w n tag outFmt inVa inStride inFmt outVa r)
    (hgroup : s.dev.groupOf e.hdr.part g = some (ms, pos)) (hjoins : Joins s.dev e g (.chain tag) d')
    (hown : chainLocal op w n outFmt inVa inStride inFmt (((ms[pos]?).map (·.idxOffset)).getD 0) (.start d' c e) = .ok own x) :
    doChainReduce s.dev c = (d'.started c e own x).advance e.hdr.part g (.chain tag) := by
  rw [doChainReduce, onPacket_ready _ hready.entry hready.dispatched hready.noRoot]
  simp only [hp, hgroup]
  exact beginColl_joins hjoins hown

/-- Settles O34: the commands of routes and groups run on the block with what waits taken (`runClaimed_ok`), a write or a signal
sends its one message (`runThenSend_one`), and a chain reduction begins by `doChainReduce_joins`. -/
theorem linkCommandsComplete : Obligations.LinkCommandsComplete := by
  unfold Obligations.LinkCommandsComplete
  refine ⟨?routes, ?declare, ?remove, ?write, ?signal, ?chain⟩
  case routes =>
    intro s c e runs r hready hp
    exact runPacket_ok hready (by rw [hp]; exact runClaimed_ok (runRouteSet_ok runs _ c e))
  case declare =>
    intro s c e g n va r b x hready hp d hread ms devs hmembers hdistinct hmine hold pos
    refine runPacket_ok hready ?_
    rw [hp]
    exact runClaimed_ok (runGroupDeclare_ok hread hmembers hdistinct hmine (fun hnone => by rw [hnone] at hold; exact hold)
      (fun old hsome => by rw [hsome] at hold; exact hold))
  case remove =>
    intro s c e g r old hready hp d hfound hpart hidle
    exact runPacket_ok hready (by rw [hp]; exact runClaimed_ok (runGroupRemove_ok hfound hpart hidle))
  case write =>
    intro s c e g p n va src r ms pos m data x hready hp hgroup hm hroute hread
    exact runPacket_put hready (by rw [hp]; exact runThenSend_one (runLinkWrite_ok hgroup hm hroute hread))
  case signal =>
    intro s c e g p tok val r ms pos m hready hp hgroup hm hroute
    exact runPacket_put hready (by rw [hp]; exact runThenSend_one (runLinkSignal_ok tok val hgroup hm hroute))
  case chain =>
    intro s c e g op w n tag outFmt inVa inStride inFmt outVa r ms pos own d' x hready hp hgroup hjoins hown
    exact runPut (f := (doChainReduce · c)) (doChainReduce_joins hready hp hgroup hjoins hown)

end Sys2Proof.Machine
end

section
/-! PROOFS (O35). What a message does at its destination, on its way, and to its sender. -/

namespace Sys2Proof.Machine

/-! ### Arrivals (R584, R586, R591 to R593) -/

section
variable {d : Dev} {m : Message}

/-- R584, R586: a value of a group on its way to the value that it joins, a vote's aside: another digest is answered with a notice. -/
theorem doGroupMessageArrive_up {g digest pos : Nat} {key : GroupKey} {data : List Byte} (hbody : m.body = .groupVal g digest key pos true data)
    (hkey : ∀ step attempt, key ≠ .vote step attempt) :
    doGroupMessageArrive d m = if d.digestOf g = some digest
      then ((d.ackMsg m).storeVal ⟨g, key, pos, true, data⟩).advance ((d.ackMsg m).groupPart g) g key
      else d.answer m.src (.groupNotice m.id) := by
  have hplain : doGroupMessageArrive d m = doGroupMessage d m := by
    rw [doGroupMessageArrive, hbody]
    cases key with
    | vote step attempt => exact absurd rfl (hkey step attempt)
    | _ => rfl
  rw [hplain]
  simp only [doGroupMessage, hbody, if_true]
  exact ite_not ..

/-- R591, R592: the data of a write whose sender the group lists and whose pages take them are kept. -/
theorem doLinkWriteData_listed {g p va xfer : Nat} {data : List Byte} {l : List (Nat × List Byte)}
    (hbody : m.body = .linkData g p va xfer data) (hlisted : d.groupLists g m.src p = true) (hpages : d.linkPieces p va data = .ok l) :
    doLinkWriteData d m = (d.modLinks (fun k => { k with shadow := k.shadow ++ [⟨m.src, xfer, p, va, data⟩] })).ackMsg m := by
  simp only [doLinkWriteData, hbody, hlisted, hpages, Bool.not_true, Bool.false_eq_true, if_false]

/-- R592: the data of a device that the group does not list are refused. -/
theorem doLinkWriteData_unlisted {g p va xfer : Nat} {data : List Byte} (hbody : m.body = .linkData g p va xfer data)
    (hlisted : d.groupLists g m.src p = false) : doLinkWriteData d m = d.answer m.src (.refused m.id stXlateFault) := by
  simp only [doLinkWriteData, hbody, hlisted, Bool.not_false, if_true]

/-- R591: a commit message publishes the shadows of its write where their pages still take them. -/
theorem landShadows_ok {xfer : Nat} {l : List (Nat × List Byte)}
    (hland : d.landing (d.links.shadow.filter (fun x => x.src == m.src && x.xfer == xfer)) = .ok l) :
    d.landShadows m xfer =
      ((l.foldl (fun (d : Dev) x => d.poke false x.1 x.2) (d.keepOld none (l.map (fun x => (x.1, x.2.length))))).modLinks (fun l =>
        { l with shadow := l.shadow.filter (fun x => !(x.src == m.src && x.xfer == xfer)) })).ackMsg m := by
  simp only [Dev.landShadows, hland]

/-- R593: a signal raises its token where the group lists its sender, and is refused elsewhere. -/
theorem doCommitMessage_signal {g p tok val : Nat} (hbody : m.body = .signal g p tok val) :
    doCommitMessage d m = if d.groupLists g m.src p then (d.signal p tok val).ackMsg m
      else d.answer m.src (.refused m.id stXlateFault) := by
  simp only [doCommitMessage, hbody]

end

/-! ### Acknowledgements and losses (R579, R591) -/

section
variable {d : Dev} {id : Nat} {x : Sent} {c : CmdRef} {e : Entry}

/-- R579, R591: the acknowledgement of a write's data sends its commit message. -/
theorem doEndToEndAck_data {sent : Bool} {own : List Byte} {res : Result} {g p va xfer : Nat} {data : List Byte}
    (hsent : d.sentMsg id = some x) (hcmd : x.cmd = some c) (hentry : (d.settled id).entry c = some e)
    (hphase : e.phase = .running (.coll sent own res)) (hbody : x.msg.body = .linkData g p va xfer data) :
    doEndToEndAck d id = (d.settled id).sendMsg (some c) x.msg.dst (.commitMsg g p xfer) := by
  have hsending : e.coll.isSome = true := by rw [Entry.coll, hphase]; rfl
  simp only [doEndToEndAck, hsent, hcmd, hbody, hentry, Option.any_some, hsending, if_true]

/-- R579: the command of a lost message fails, a RECLAIM aside. -/
theorem failSender_fails (status : Nat) (hsent : d.sentMsg id = some x) (hcmd : x.cmd = some c)
    (hentry : (d.settled id).entry c = some e) (hflight : e.inFlight = true) (hreclaim : ∀ p m r, e.payload ≠ .reclaim p m r) :
    d.failSender id status = (d.settled id).failEntry e.ref e ⟨status, none, none⟩ e.runCycles := by
  simp only [Dev.failSender, hsent, hcmd, Option.bind_some, hentry, hflight, Bool.not_true, Bool.false_eq_true, if_false]

/-- R579: a notice fails the sender with ST_LINK_DOWN, a vote's message aside. -/
theorem doUnreachable_fails (hsent : d.sentMsg id = some x) (hhost : isHostBound x.msg.body = false)
    (hvote : ∀ g digest step a pos up v, x.msg.body ≠ .groupVal g digest (.vote step a) pos up v) :
    doUnreachable d id = d.failSender id stLinkDown := by
  simp only [doUnreachable, hsent, hhost, Bool.false_eq_true, if_false]

/-- R579: a message that waited 10,000 ticks is lost. -/
theorem doMessageLost_late (hsent : d.sentMsg id = some x) (hhost : isHostBound x.msg.body = false) (hheld : x.held = false)
    (hlate : x.tick + 10000 < d.clk.tick) : doMessageLost d id = d.failSender id (lostStatus x.msg.body) := by
  have hlost : (!x.held) = true ∧ x.tick + 10000 < d.clk.tick := ⟨by rw [hheld]; rfl, hlate⟩
  simp only [doMessageLost, hsent, if_pos hlost, hhost, Bool.false_eq_true, if_false]

end

/-! ### Held and forwarded messages (R579, R581, R599) -/

/-- R581: what a destination holds back goes once none of the messages before it is outstanding. -/
theorem doRouteHoldRelease_goes {d : Dev} {dst : Nat} {ids : List Nat} (hheld : tfind d.links.holds dst = some ids)
    (hended : ∀ x ∈ d.links.sent, x.msg.id ∉ ids) :
    doRouteHoldRelease d dst = (d.links.heldMsgs.filter (fun m => m.msg.dst == dst)).foldl Dev.letHeldGo
      (d.modLinks (fun l => { l with holds := terase l.holds dst, heldMsgs := l.heldMsgs.filter (fun m => m.msg.dst != dst) })) := by
  have hnone : d.links.sent.any (fun x => ids.contains x.msg.id) = false := by
    simpa only [List.any_eq_false, List.contains_iff_mem] using hended
  simp only [doRouteHoldRelease, hheld, hnone, Bool.false_eq_true, if_false]

/-- R599: a member's write reaches the host at its bridge, and is acknowledged. -/
theorem doMessageForward_host {d : Dev} {m : Message} {iova : Nat} {data : List Byte} (port cls : Nat) (hdst : m.dst = d.links.devNum)
    (hbody : m.body = .hostWrite iova data) (hbridge : d.links.bridge = true) (hup : d.links.hostUp = true) :
    doMessageForward d port cls m = (((d.modLinks (fun l => { l with hostReqs := l.hostReqs ++
      [(if d.links.pasidEn then some (m.src % 8) else none, iova, data.length)] })).toHost m.body).ackMsg m) := by
  simp only [doMessageForward, if_pos hdst, isHostBound, Dev.hostForward, hbridge, hup, Bool.and_self, if_true, hbody]

/-- Settles O35: each event by the lemma of its meaning, with the errors taken (`runPut`). -/
theorem messagesComplete : Obligations.MessagesComplete := by
  unfold Obligations.MessagesComplete
  refine ⟨?group, ?data, ?commit, ?signal, ?acked, ?lost, ?held, ?forward, ?host, ?span⟩
  case group =>
    intro s m g digest key pos data hbody hkey
    exact runPut (f := (doGroupMessageArrive · m)) (doGroupMessageArrive_up hbody hkey)
  case data =>
    intro s m g p va xfer data l hbody
    exact ⟨fun hlisted hpages => runPut (f := (doLinkWriteData · m)) (doLinkWriteData_listed hbody hlisted hpages),
      fun hlisted => runPut (f := (doLinkWriteData · m)) (doLinkWriteData_unlisted hbody hlisted)⟩
  case commit =>
    intro s m g p xfer l hbody hland
    have hcommit : doCommitMessage s.dev m = s.dev.landShadows m xfer := by simp only [doCommitMessage, hbody]
    exact runPut (f := (doCommitMessage · m)) (hcommit.trans (landShadows_ok hland))
  case signal =>
    intro s m g p tok val hbody
    have hsignal := doCommitMessage_signal (d := s.dev) hbody
    refine ⟨fun hlisted => ?_, fun hlisted => ?_⟩
    · exact runPut (f := (doCommitMessage · m)) (by rw [hsignal, hlisted, if_pos rfl])
    · exact runPut (f := (doCommitMessage · m)) (by rw [hsignal, hlisted, if_neg Bool.false_ne_true])
  case acked =>
    intro s id x c e sent own res g p va xfer data hsent hcmd hentry hphase hbody
    exact runPut (f := (doEndToEndAck · id)) (doEndToEndAck_data hsent hcmd hentry hphase hbody)
  case lost =>
    intro s id x c e hsent hcmd hentry hflight hhost hreclaim hvote
    have hfails := fun status => failSender_fails status hsent hcmd hentry hflight hreclaim
    exact ⟨runPut (f := (doUnreachable · id)) ((doUnreachable_fails hsent hhost hvote).trans (hfails _)),
      fun hheld hlate => runPut (f := (doMessageLost · id)) ((doMessageLost_late hsent hhost hheld hlate).trans (hfails _))⟩
  case held =>
    intro s dst ids hheld hended
    exact runPut (f := (doRouteHoldRelease · dst)) (doRouteHoldRelease_goes hheld hended)
  case forward =>
    intro s port cls m hdst
    exact runPut (f := (doMessageForward · port cls m)) (if_neg hdst)
  case host =>
    intro s port cls m iova data hdst hbody hbridge hup
    exact runPut (f := (doMessageForward · port cls m)) ((doMessageForward_host port cls hdst hbody hbridge hup).trans (by rw [hbody]; rfl))
  case span =>
    intro s id p x hspan
    exact runPut (f := (doSpanReset · id)) (by rw [doSpanReset, hspan]; rfl)

end Sys2Proof.Machine
end

section
/-! PROOFS (O51). The commands of the Lamplighter. -/

namespace Sys2Proof.Machine

/-! ### What a run sees of the Lamplighter (R263) -/

@[simp] theorem seenBy_lamp (d : Dev) (e : Entry) : (d.seenBy e).lamp = d.lamp := seenBy_same (·.lamp) (fun _ _ => rfl) d e
@[simp] theorem seenBy_power (d : Dev) (e : Entry) : (d.seenBy e).power = d.power := seenBy_same (·.power) (fun _ _ => rfl) d e

@[simp] theorem seenBy_report (d : Dev) (e : Entry) (k : BootKey) (mask : Nat) (nonce : List Byte) :
    (d.seenBy e).report k mask nonce = d.report k mask nonce :=
  seenBy_same (·.report k mask nonce) (fun _ _ => rfl) d e

/-! ### Commands of class 0xB (R610) -/

/-- R610: a command of the class starts where no other one has run and waits for its commit point. -/
theorem onLamp_ready {s : State} {c : CmdRef} {e : Entry} (f : Entry → Dev) (h : Ready s c e) (hidle : s.dev.lampBusy = false) :
    s.dev.onLamp c f = f e := by
  have hfree : ¬s.dev.lampBusy = true := by rw [hidle]; exact Bool.false_ne_true
  exact (onPacket_ready _ h.entry h.dispatched h.noRoot).trans (if_neg hfree)

/-- R261, R610: a command of the class whose run on the block `d` reaches its end holds what it made for its commit point. -/
theorem runLamp_ok {s : State} {c : CmdRef} {e e' : Entry} {d : Dev} {k : Counts} {x : Ctx} {f : Dev → Entry → Dev} (h : Ready s c e)
    (hidle : s.dev.lampBusy = false) (hcalm : d.errDue = []) (hf : f s.dev e = d.ranOk c e' k x) :
    s.runDev (fun d => d.onLamp c (f d)) = .next ((s.withDev d).ran c e' k x) := by
  have hran := (onLamp_ready (f s.dev) h hidle).trans hf
  exact runCalm (f := fun d => d.onLamp c (f d)) hran ((ranOk_errDue ..).trans hcalm)

/-- R601, R610: where the output of a command goes: with its record on queue 1, to host memory from another queue. -/
def Dev.givesOut (d : Dev) (q out : Nat) (data : List Byte) (e : Effect) : Prop :=
  (q = 1 ∧ e = .lamp (.output data)) ∨ (q ≠ 1 ∧ d.links.hostUp = true ∧ e = .host out data)

/-- R601, R610: an output that has a way out is held. -/
theorem putOutput_bind {d : Dev} {c : CmdRef} {e : Entry} {q out : Nat} {data : List Byte} {ef : Effect} {α : Type} (f : Unit → Run α)
    (h : d.givesOut q out data ef) : (putOutput q out data >>= f) (.start d c e) = f () (.made d c e [ef]) := by
  obtain ⟨hq, rfl⟩ | ⟨hq, hup, rfl⟩ := h
  · rw [putOutput, if_pos hq]
    exact run_hold_bind _ _ _
  · rw [putOutput, if_neg hq]
    refine run_bind_ok ?_
    rw [run_getDev_bind, start_dev, seenBy_links, run_require_bind hup, run_hold]
    rfl

/-! ### ATTEST (R620 to R623) -/

/-- R621: a key that has an index left signs with it, and the index is spent. -/
theorem spendKey_left {d : Dev} {k : BootKey} (hkey : d.lamp.key = some k) (hleft : k.next < 1024) :
    d.spendKey = (some k, d.modLamp (fun l => { l with key := some { k with next := k.next + 1 } })) := by
  simp only [Dev.spendKey, hkey, if_pos hleft]

theorem runReport_ok {d : Dev} {c : CmdRef} {e : Entry} {q out mask : Nat} {k : BootKey} {nonce : List Byte} {ef : Effect}
    (h : d.givesOut q out (d.report k mask nonce) ef) :
    runReport q out k mask nonce (.start d c e) = .ok (okCounts 6040 k.next (1048576 - d.lamp.idIndex)) (.made d c e [ef]) := by
  rw [runReport, run_getDev_bind]
  simp only [start_dev, seenBy_report, seenBy_lamp]
  exact putOutput_bind _ h

theorem runExtend_ok (d : Dev) (c : CmdRef) (e : Entry) (reg ak : Nat) (digest : List Byte) :
    runExtend reg digest ak (.start d c e) =
      .ok (okCounts 0 ak (1048576 - d.lamp.idIndex)) (.made d c e [.lamp (.extend reg digest)]) := by
  rw [runExtend, run_hold_bind, run_getDev_bind, run_pure]
  simp only [start_dev, seenBy_lamp]
  rfl

/-! ### DEVREC_READ and DEVREC_INSTALL (R611, R614 to R616) -/

/-- R614: what DEVREC_READ gives out: a summary of the live record, or the record. -/
def Lamp.recordOut (l : Lamp) (op : Nat) : List Byte := if op = 0 then recordSummary l.live (l.copy l.live) else l.copy l.live

theorem runDevrecRead_ok {d : Dev} {c : CmdRef} {e : Entry} {q op out : Nat} {ef : Effect}
    (h : d.givesOut q out (d.lamp.recordOut op) ef) :
    runDevrecRead q op out (.start d c e) =
      .ok (okCounts (d.lamp.recordOut op).length (recordCounter (d.lamp.copy d.lamp.live)) d.lamp.live) (.made d c e [ef]) := by
  rw [runDevrecRead, run_getDev_bind]
  simp only [start_dev, seenBy_lamp]
  exact putOutput_bind _ h

/-- R615: a record that verifies and whose counter is not lower than the live one's is installed. -/
theorem installRecord_ok {d : Dev} (c : CmdRef) (e : Entry) {b : List Byte}
    (hsig : recordOk ((d.lamp.board.map (·.serial)).getD 0) d.lamp.minCounter b = true)
    (hcounter : recordCounter (d.lamp.copy d.lamp.live) ≤ recordCounter b) :
    installRecord b (.start d c e) =
      .ok (okCounts (recordCounter b) (1 - d.lamp.live) 0) (.made d c e [.lamp (.install b)]) := by
  rw [installRecord, run_getDev_bind]
  simp only [start_dev, seenBy_lamp, hsig, decide_eq_true hcounter, Bool.and_self, run_require_true_bind, run_hold_bind, run_pure]
  rfl

/-- R611, R615: a record in host memory. -/
theorem runInstall_ok {d : Dev} (c : CmdRef) (e : Entry) {len iova : Nat} (hup : d.links.hostUp = true)
    (hsig : recordOk ((d.lamp.board.map (·.serial)).getD 0) d.lamp.minCounter (getBytes d.mem.host iova len) = true)
    (hcounter : recordCounter (d.lamp.copy d.lamp.live) ≤ recordCounter (getBytes d.mem.host iova len)) :
    runInstall len iova (.start d c e) = .ok (okCounts (recordCounter (getBytes d.mem.host iova len)) (1 - d.lamp.live) 0)
      (.made d c e [.lamp (.install (getBytes d.mem.host iova len))]) := by
  rw [runInstall, run_bind_ok (readHost_start c e iova len hup), installRecord_ok c e hsig hcounter]

/-- R611: the continuation data of a packet are those of the packet. -/
theorem contOf_cmd (d : Dev) (e : Entry) : (d.contOf e).cmd = e.ref := by
  unfold Dev.contOf
  cases h : d.lamp.conts.find? (fun k => k.cmd == e.ref) with
  | none => rfl
  | some k =>
    have hk := List.find?_some h
    exact eq_of_beq hk

/-- R611: the packet of an install that has issued and waits for its record. -/
def Entry.waiting (e : Entry) : Entry := { e with phase := .running (.stage 1 Result.fresh), issued := true }

theorem entry_toStage {d : Dev} {c : CmdRef} {e : Entry} (hentry : d.entry c = some e) :
    (d.toStage c 1 Result.fresh).entry c = some e.waiting :=
  entry_modEntry (fun _ => rfl) hentry

section
variable {d : Dev} {k : Continuation} {e : Entry} {len : Nat}

/-- R611: a command whose record is not complete goes on waiting. -/
theorem contDone_waits (hentry : d.entry k.cmd = some e) (hcont : e.continues = some len) (hlen : k.data.length ≠ len) : d.contDone k = d := by
  have hshort : (e.continues == some k.data.length) = false := by
    rw [hcont]
    exact beq_eq_false_iff_ne.2 fun h => hlen (Option.some.inj h).symm
  simp only [Dev.contDone, hentry, hshort, Bool.and_false, Bool.false_eq_true, if_false]

/-- R611: a command that has issued goes on once all bytes of its record have come. -/
theorem contDone_complete (hentry : d.entry k.cmd = some e) (hstage : e.stage.isSome = true) (hcont : e.continues = some len)
    (hlen : k.data.length = len) : d.contDone k = (d.dropCont k.cmd).run k.cmd e (installRecord k.data) := by
  have hall : (e.continues == some k.data.length) = true := by rw [hcont, hlen]; exact beq_self_eq_true _
  simp only [Dev.contDone, hentry, hstage, hall, Bool.and_self, if_true]

end

/-! ### TELEMETRY, ERRQ_READ and POWER_CAP (R631, R635, R656) -/

theorem latestSample_taken {d : Dev} (h : d.lamp.sample ≠ []) : d.latestSample = (d.lamp.sample, d) :=
  if_neg (by simpa only [List.isEmpty_iff] using h)

theorem runTelemetry_ok {d : Dev} {c : CmdRef} {e : Entry} {q out : Nat} {b : List Byte} {ef : Effect} (h : d.givesOut q out b ef) :
    runTelemetry q out b (.start d c e) = .ok (okCounts b.length 0 0) (.made d c e [ef]) :=
  putOutput_bind _ h

/-- R631: records of the error queue are given out, and their removal is held. -/
theorem runErrqRead_queue {d : Dev} {c : CmdRef} {e : Entry} {q n out : Nat} {ef : Effect} (first : Nat)
    (h : d.givesOut q out ((d.lamp.errq.take n).flatMap ErrRecord.bytes) ef) :
    let rs := d.lamp.errq.take n
    runErrqRead q n 0 first out (.start d c e) =
      .ok (okCounts rs.length (d.lamp.errq.length - rs.length) d.lamp.dropped) (.made d c e [.lamp (.errqTake rs.length), ef]) := by
  intro rs
  rw [runErrqRead, run_getDev_bind]
  simp only [start_dev, seenBy_lamp, if_true]
  exact putOutput_bind _ h

/-- R631: records of the log are given out, and stay. -/
theorem runErrqRead_log {d : Dev} {c : CmdRef} {e : Entry} {q n first out : Nat} {ef : Effect}
    (h : d.givesOut q out (((d.lamp.mram.drop first).take n).flatMap ErrRecord.bytes) ef) :
    runErrqRead q n 1 first out (.start d c e) =
      .ok (okCounts ((d.lamp.mram.drop first).take n).length d.lamp.errq.length d.lamp.dropped) (.made d c e [ef]) := by
  rw [runErrqRead, run_getDev_bind]
  simp only [start_dev, seenBy_lamp, one_ne_zero, if_false, Nat.sub_zero]
  exact putOutput_bind _ h

theorem runPowerCap_ok (d : Dev) (c : CmdRef) (e : Entry) (mw persist : Nat) :
    runPowerCap mw persist (.start d c e) = .ok (okCounts mw d.power.cap 0) (.made d c e [.lamp (.cap mw (persist == 1))]) := by
  rw [runPowerCap, run_hold_bind, run_getDev_bind, run_pure]
  simp only [start_dev, seenBy_power]
  rfl

/-- Settles O51: each command starts on an idle Lamplighter (`runLamp_ok`), and its run ends by its own lemma; an install whose record
comes in messages waits by `contDone_waits` and ends by `contDone_complete`. -/
theorem lampCommandsComplete : Obligations.LampCommandsComplete := by
  unfold Obligations.LampCommandsComplete
  intro given
  refine ⟨?report, ?extend, ?read, ?installs, ?continues, ?telemetry, ?queue, ?log, ?cap⟩
  case report =>
    intro s c e mask out nonce r k ef hready hidle hp hkey hleft d hout
    refine runLamp_ok hready hidle hready.calm ?_
    simp only [hp, spendKey_left hkey hleft]
    exact run_ok (runReport_ok hout)
  case extend =>
    intro s c e reg out digest r hready hidle hp d
    refine runLamp_ok hready hidle hready.calm ?_
    simp only [hp]
    exact run_ok (runExtend_ok d c e reg _ digest)
  case read =>
    intro s c e op out r ef hready hidle hp record data hout
    refine runLamp_ok hready hidle hready.calm ?_
    simp only [hp]
    exact run_ok (runDevrecRead_ok hout)
  case installs =>
    intro s c e len iova r hready hidle hp hqueue hup record hsig hcounter
    refine runLamp_ok hready hidle hready.calm ?_
    have hhost : e.continues = none := by simp only [Entry.continues, hp, hqueue, false_and, if_false]
    simp only [hp, hhost, Option.isSome_none, Bool.false_eq_true, if_false]
    exact run_ok (runInstall_ok c e hup hsig hcounter)
  case continues =>
    intro s c e len r hready hidle hp hqueue hc k e₁ d
    have hcmd : k.cmd = c := (contOf_cmd s.dev e).trans hc.symm
    have hcont : e.waiting.continues = some len := by simp only [Entry.continues, Entry.waiting, hp, hqueue, and_self, if_true]
    have hentry : (s.dev.toStage c 1 Result.fresh).entry k.cmd = some e.waiting := by rw [hcmd]; exact entry_toStage hready.entry
    have hgo : doDevrecInstall s.dev c = (s.dev.toStage c 1 Result.fresh).contDone k := by
      have hfrom : e.continues.isSome = true := by rw [show e.continues = some len from hcont]; rfl
      rw [doDevrecInstall, onLamp_ready _ hready hidle]
      simp only [hp, hfrom, if_true]
      rfl
    refine ⟨fun hlen => ?_, fun hlen hsig hcounter => ?_⟩
    · exact runCalm (f := (doDevrecInstall · c)) (hgo.trans (contDone_waits hentry hcont hlen)) hready.calm
    · have hdone := hgo.trans (contDone_complete hentry rfl hcont hlen)
      rw [hcmd] at hdone
      have hrun := installRecord_ok (d := d) c e₁ hsig hcounter
      exact runCalm (f := (doDevrecInstall · c)) (hdone.trans (run_ok hrun)) ((ranOk_errDue ..).trans hready.calm)
  case telemetry =>
    intro s c e out r ef hready hidle hp hsample hout
    refine runLamp_ok hready hidle hready.calm ?_
    simp only [hp, latestSample_taken hsample]
    exact run_ok (runTelemetry_ok hout)
  case queue =>
    intro s c e n first out r ef hready hidle hp rs hout
    refine runLamp_ok hready hidle hready.calm ?_
    simp only [hp]
    exact run_ok (runErrqRead_queue first hout)
  case log =>
    intro s c e n first out r ef hready hidle hp rs hout
    refine runLamp_ok hready hidle hready.calm ?_
    simp only [hp]
    exact run_ok (runErrqRead_log hout)
  case cap =>
    intro s c e mw persist r hready hidle hp
    refine runLamp_ok hready hidle hready.calm ?_
    simp only [hp]
    exact run_ok (runPowerCap_ok s.dev c e mw persist)

end Sys2Proof.Machine
end

section
/-! PROOFS (O32). The Roving log, recovery on a spare, and the service of a buddy. -/

namespace Sys2Proof.Machine

/-! ### What a run finds of training (R263) -/

@[simp] theorem seenBy_trainOf (d : Dev) (e : Entry) (part : Nat) : (d.seenBy e).trainOf part = d.trainOf part :=
  seenBy_same (·.trainOf part) (fun _ _ => rfl) d e

@[simp] theorem seenBy_ringOk (d : Dev) (e : Entry) (part die va pages : Nat) :
    (d.seenBy e).ringOk part die va pages = d.ringOk part die va pages :=
  seenBy_same (·.ringOk part die va pages) (fun _ _ => rfl) d e

@[simp] theorem seenBy_teacherOk (d : Dev) (e : Entry) (r : Recovery) : (d.seenBy e).teacherOk r = d.teacherOk r :=
  seenBy_same (·.teacherOk r) (fun _ _ => rfl) d e

/-! ### LOG_MARK (R490, R494) -/

section
variable {d : Dev} {part : Nat}

/-- R490: the run of the configuration of a partition without a log, with its rings in their dies. -/
theorem runLogConfig_ok (c : CmdRef) (e : Entry) {a b pa pb : Nat} (hnone : (d.trainOf part).log = none)
    (ha : d.ringOk part 0 a pa = true) (hb : d.ringOk part 1 b pb = true) :
    runLogConfig part a b pa pb (.start d c e) = .ok (okCounts (ringEntries pa) (ringEntries pb) 0)
      (.made d c e [.train (.logConfig part ⟨a, b, pa, pb, 0, 0, false, [], none⟩)]) := by
  rw [runLogConfig, run_getDev_bind]
  simp only [start_dev, seenBy_trainOf, seenBy_ringOk, hnone, ha, hb, Option.isNone_none, Bool.and_self, run_require_true_bind,
    run_hold_bind, run_pure]
  rfl

/-- R494: the run of a MARK of a partition with a log. -/
theorem runMark_ok (c : CmdRef) (e : Entry) (step cursor : Nat) (digest : List Byte) {l : TrainLog} (hlog : (d.trainOf part).log = some l) :
    runMark part step cursor digest (.start d c e) =
      .ok (okCounts 0 0 0) (.made d c e [.train (.mark part step cursor digest)]) := by
  rw [runMark, run_getDev_bind]
  simp only [start_dev, seenBy_trainOf, hlog, Option.isSome_some, run_require_true_bind, run_hold_bind, run_pure]
  rfl

/-! ### SPARE_FILL (R518, R526) -/

theorem runSpareBegin_ok (c : CmdRef) (e : Entry) (position gen : Nat) (hnone : d.train.recovery = none) :
    runSpareBegin part position gen (.start d c e) = .ok (okCounts position (gen % 2 ^ 32) 0)
      (.made d c e [.train (.recoveryOpen ⟨part, position, gen, false, false, none⟩)]) := by
  rw [runSpareBegin, run_getDev_bind]
  simp only [start_dev, seenBy_train, hnone, Option.isNone_none, run_require_true_bind, run_hold_bind, run_pure]
  rfl

/-- R518: the run of an END of the open recovery that has its state, its log and its teacher. -/
theorem runSpareEnd_ok (c : CmdRef) (e : Entry) {position : Nat} {x : Recovery} (hopen : d.train.recovery = some x) (hpart : x.part = part)
    (hposition : x.position = position) (hstate : x.stateDone = true) (hlog : x.logDone = true) (hteacher : d.teacherOk x = true) :
    runSpareEnd part position (.start d c e) =
      .ok (okCounts position (x.gen % 2 ^ 32) 0) (.made d c e [.train .recoveryClosed]) := by
  rw [runSpareEnd, run_getDev_bind]
  simp only [start_dev, seenBy_train, seenBy_teacherOk, hopen, hpart, hposition, hstate, hlog, hteacher, beq_self_eq_true, Bool.and_self,
    run_require_true_bind, run_hold_bind, run_pure]
  rfl

theorem runSpareAbandon_ok (c : CmdRef) (e : Entry) (position : Nat) :
    runSpareAbandon position (.start d c e) = .ok (okCounts position (((d.train.recovery).map (·.gen)).getD 0 % 2 ^ 32) 0)
      (.made d c e [.train .recoveryClosed]) := by
  rw [runSpareAbandon, run_getDev_bind, run_hold_bind, run_pure, start_dev, seenBy_train]
  rfl

end

/-! ### Buddies (R495, R499, R509) -/

section
variable {d : Dev} {m : Message} {i slot off : Nat} {st : Store} {data : List Byte}

/-- R495: an entry from a store's source goes to its mirror, and is acknowledged. -/
theorem doLogMirrorReceive_source {share lsn : Nat} (hbody : m.body = .logEntry i share lsn data) (hstore : d.store i = some st)
    (hsource : st.source = m.src) (hshare : share ≤ 1) (hpages : 0 < st.mirrorPages share) (hlen : data.length = 64) :
    doLogMirrorReceive d m =
      (d.pokeStore st (st.mirrorOff share + 64 * (lsn % ringEntries (st.mirrorPages share))) data).answer m.src
        (.logAck st.srcPart share lsn) := by
  simp only [doLogMirrorReceive, hbody, hstore, hsource, hshare, hpages, hlen, and_self, if_true]

/-- R509: a write of a slot from the store's source is published, and acknowledged. -/
theorem doServeBuddy_write (hbody : m.body = .snapWrite i slot off data) (hstore : d.store i = some st) (hsource : st.source = m.src)
    (hslot : slot < 4) (hfits : off + data.length ≤ st.slotBytes) :
    doServeBuddy d m =
      ((d.servesOn st (slot / 2 * st.slotBytes + off) data.length).pokeStore st (slot / 2 * st.slotBytes + off) data).ackMsg m := by
  simp only [doServeBuddy, hbody, hstore, hsource, hslot, hfits, and_self, if_true]

/-- R499: a write from another device than the store's source has no effect. -/
theorem doServeBuddy_stranger (hbody : m.body = .snapWrite i slot off data) (hstore : d.store i = some st) (hsource : st.source ≠ m.src) :
    doServeBuddy d m = d := by
  simp only [doServeBuddy, hbody, hstore, hsource, false_and, if_false]

/-- R508, R509: what a store answers to reads, of whatever device. -/
theorem doServeBuddy_slot (hbody : m.body = .snapRead i slot) (hstore : d.store i = some st) (hslot : slot < 4) :
    doServeBuddy d m = d.serveRead m st (slot / 2 * st.slotBytes) st.slotBytes (.snapData m.id) := by
  simp only [doServeBuddy, hbody, hstore, hslot, if_true]

theorem doServeBuddy_mirrors (hbody : m.body = .logRead i) (hstore : d.store i = some st) :
    doServeBuddy d m = d.serveRead m st (st.mirrorOff 0) ((st.logA + st.logB) * pageBytes)
      (fun b => .logData m.id (b.take (st.logA * pageBytes)) (b.drop (st.logA * pageBytes))) := by
  simp only [doServeBuddy, hbody, hstore]

theorem doServeBuddy_size (hbody : m.body = .storeRead i) (hstore : d.store i = some st) :
    doServeBuddy d m = d.answer m.src (.storeData m.id st.slotBytes) := by
  simp only [doServeBuddy, hbody, hstore, Option.map_some, Option.getD_some]

end

/-- A message as it reaches the buddy's Bobbin, which serves it by its number, its source and its body. -/
def Dev.atBuddy (d : Dev) (m : Message) : Message := ⟨m.id, m.src, d.links.devNum, m.body.channel, m.body⟩

/-- R509: the service of a message by its number, its source and its body. -/
theorem runServe {s : State} {m : Message} {d : Dev} (h : doServeBuddy s.dev (s.dev.atBuddy m) = d) :
    exec (.SERVING_A_BUDDY m.id m.src m.body) s = .next (s.put d) :=
  runPut (f := fun d => doServeBuddy d ⟨m.id, m.src, d.links.devNum, m.body.channel, m.body⟩) h

/-! ### LOG_ENTRY_SECURED (R495) -/

/-- R495: where no vote waits, an entry that both buddies hold is dropped from those not secured, and nothing goes on. -/
theorem doLogEntrySecured_alone {d : Dev} (part share lsn : Nat) (hvotes : ∀ x ∈ d.live, d.voteOf x.2.ref = none) :
    doLogEntrySecured d part share lsn = d.modTrain part (fun t => { t with log := t.log.map (fun l =>
      { l with unsecured := l.unsecured.filter (fun u => !(u.share == share && u.lsn == lsn)) }) }) := by
  have hnone : (d.live.map (·.2)).filter (fun e => e.hdr.part == part && (d.voteOf e.ref).isSome) = [] := by
    refine List.filter_eq_nil_iff.2 fun e he => ?_
    obtain ⟨x, hx, rfl⟩ := List.mem_map.1 he
    simp [hvotes x hx]
  unfold doLogEntrySecured
  simp only
  exact congrArg (List.foldl _ _) hnone

/-- Settles O32: the commands of the log and of a recovery run by their own lemmas, on the block with what waits taken where they
change a table; a buddy's messages are served by `runServe`. -/
theorem logAndRecoveryComplete : Obligations.LogAndRecoveryComplete := by
  unfold Obligations.LogAndRecoveryComplete
  refine ⟨?config, ?mark, ?begins, ?ends, ?abandon, ?mirror, ?write, ?stranger, ?slot, ?mirrors, ?size, ?secured⟩
  case config =>
    intro s c e a b pa pb r hready hp d hnone ha hb
    exact runPacket_ok hready (by rw [hp]; exact runClaimed_ok (runLogConfig_ok c e hnone ha hb))
  case mark =>
    intro s c e step cursor digest r l hready hp hlog
    exact runPacket_ok hready (by rw [hp]; exact run_ok (runMark_ok c e step cursor digest hlog))
  case begins =>
    intro s c e p pos gen r hready hp hnone
    exact runPacket_ok hready (by rw [hp]; exact runClaimed_ok (runSpareBegin_ok c e pos gen hnone))
  case ends =>
    intro s c e p pos r x hready hp d hopen hpart hposition hstate hlog hteacher
    refine runPacket_ok hready ?_
    rw [hp]
    exact runClaimed_ok (runSpareEnd_ok c e hopen hpart hposition hstate hlog hteacher)
  case abandon =>
    intro s c e p pos r hready hp
    exact runPacket_ok hready (by rw [hp]; exact runClaimed_ok (runSpareAbandon_ok c e pos))
  case mirror =>
    intro s m i share lsn data st hbody hstore hsource hshare hpages hlen
    exact runPut (f := (doLogMirrorReceive · m)) (doLogMirrorReceive_source hbody hstore hsource hshare hpages hlen)
  case write =>
    intro s m i st slot off data hbody hstore hsource hslot hfits
    exact runServe (doServeBuddy_write hbody hstore hsource hslot hfits)
  case stranger =>
    intro s m i st slot off data hcalm hbody hstore hsource
    exact runSame (f := fun d => doServeBuddy d (d.atBuddy m)) hcalm (doServeBuddy_stranger hbody hstore hsource)
  case slot =>
    intro s m i st slot hbody hstore hslot
    exact runServe (doServeBuddy_slot hbody hstore hslot)
  case mirrors =>
    intro s m i st hbody hstore
    exact runServe (doServeBuddy_mirrors hbody hstore)
  case size =>
    intro s m i st hbody hstore
    exact runServe (doServeBuddy_size hbody hstore)
  case secured =>
    intro s p share lsn hvotes
    exact runPut (f := (doLogEntrySecured · p share lsn)) (doLogEntrySecured_alone p share lsn hvotes)

end Sys2Proof.Machine
end

section
/-! PROOFS (O33). The step commit: votes, the root's decision, and queries. -/

namespace Sys2Proof.Machine

/-! ### VOTE (R510) -/

/-- R510: what a VOTE that may begin waits with: its code, and whether its entries are secured. -/
def Dev.voteWait (d : Dev) (part attempt dieMask step : Nat) : VoteWait :=
  let code := d.voteFor part dieMask step
  let n : Nat × Nat := ((d.trainOf part).log.map (fun l => (l.nextA, l.nextB))).getD (0, 0)
  let secured : Bool := ((d.trainOf part).log.map (fun l => l.securedBelow n.1 n.2)).getD true
  ⟨code, attempt, if secured = true ∨ code = 2 then 1 else 0, d.tickAt 16, n.1, n.2, false⟩

/-- R510: a VOTE of the next step in a declared group, with its path to the root up and no decision that stands, waits. -/
theorem doVote_waits {s : State} {c : CmdRef} {e : Entry} {attempt dieMask step group window pos : Nat} {r : Bool} {ms : List GroupMember}
    (hready : Ready s c e) (hp : e.payload = .stepVote attempt dieMask step group window r)
    (hgroup : s.dev.groupOf e.hdr.part group = some (ms, pos)) (hstep : step = nextStep (s.dev.trainOf e.hdr.part).step)
    (hroute : pos = 0 ∨ s.dev.routeOk (memberAt ms (treeParent pos)) = true)
    (hnone : (tget [] s.dev.train.table (groupSlot e.hdr.part group)).find? (fun x => x.standsFor step attempt) = none) :
    let v := s.dev.voteWait e.hdr.part attempt dieMask step
    doVote s.dev c = (s.dev.modEntry c (fun e => { e with
      issued := true, phase := .running (.coll (v.stage == 0) v.bytes (Result.failed stOk 0 e.ce)) })).advance e.hdr.part group
        (.vote step attempt) := by
  have hup : ¬(pos ≠ 0 ∧ (!s.dev.routeOk (memberAt ms (treeParent pos))) = true) := by
    rintro ⟨hpos, hdown⟩
    rcases hroute with h | h
    · exact hpos h
    · simp [h] at hdown
  rw [doVote, onPacket_ready _ hready.entry hready.dispatched hready.noRoot]
  simp only [hp, hgroup, if_neg (not_not.2 hstep), if_neg hup, modEntry_train, hnone]
  rfl

/-! ### The root's decision and the windows (R511, R512) -/

section
variable {d : Dev} {c : CmdRef} {e : Entry} {v : VoteWait}

/-- R512: a complete tree result of REVERT is decided at once. -/
theorem doCommitDecide_revert (hvote : d.voteOf c = some (e, v)) (hready : v.ready = true) (hstage : v.stage = 1) (hcode : v.code = 2) :
    doCommitDecide d c = d.rootDecides e v 2 false := by
  simp only [doCommitDecide, hvote, hready, hstage, hcode, and_self, if_true]

variable {attempt dieMask step group window : Nat} {r : Bool}

theorem voteParams_vote (hp : e.payload = .stepVote attempt dieMask step group window r) : voteParams e = (step, group, window) := by
  simp only [voteParams, hp]

/-- R512: a complete tree result of APPLY or SKIP waits until its entry is secured. -/
theorem doCommitDecide_secures (hvote : d.voteOf c = some (e, v)) (hready : v.ready = true) (hstage : v.stage = 1) (hcode : v.code ≠ 2)
    (hp : e.payload = .stepVote attempt dieMask step group window r) :
    let d' := d.logAdd e.hdr.part 0 step 0x07 (decisionBody group v.attempt v.code true)
    doCommitDecide d c = d'.setVote c true { v with
      stage := if (d.trainOf e.hdr.part).room 0 then 2 else 3, tick := d'.tickAt 16
      lsnA := ((d.trainOf e.hdr.part).log.map (·.nextA)).getD 0 } := by
  simp only [doCommitDecide, hvote, hready, hstage, hcode, and_self, if_true, if_false, voteParams_vote hp]

/-- R512: past its window the root decides REVERT. -/
theorem doCommitWindowExpire_late {ms : List GroupMember} (hvote : d.voteOf c = some (e, v))
    (hp : e.payload = .stepVote attempt dieMask step group window r) (hgroup : d.groupOf e.hdr.part group = some (ms, 0))
    (hstage : v.stage ≤ 1) (hready : v.ready = false) (hlate : v.tick + window < d.tickAt 16) :
    doCommitWindowExpire d c = d.rootDecides e v 2 false := by
  simp only [doCommitWindowExpire, hvote, voteParams_vote hp, hgroup, hstage, hready, hlate, Option.map_some, Option.getD_some,
    beq_self_eq_true, Bool.not_false, and_self, if_true]

/-- R510, R512: past the window of an entry that is not secured. -/
theorem doUnsecuredTimeout_late (hvote : d.voteOf c = some (e, v)) (hp : e.payload = .stepVote attempt dieMask step group window r)
    (hlate : v.tick + window < d.tickAt 16) :
    doUnsecuredTimeout d c =
      if v.stage = 0 then
        (d.setVote c false { v with code := 2, stage := 1 }).advance e.hdr.part group (.vote step v.attempt)
      else if 2 ≤ v.stage then d.rootDecides e v 2 false
      else d := by
  simp only [doUnsecuredTimeout, hvote, voteParams_vote hp, if_pos hlate]

/-! ### A decision at a member (R513) -/

/-- R513: a decision ends a vote that waits for it, and goes down the tree. -/
theorem decisionFor_vote {pos code : Nat} {ms : List GroupMember} (hp : e.payload = .stepVote attempt dieMask step group window r)
    (hwaits : e.coll.isSome = true) (hgroup : d.groupOf e.hdr.part group = some (ms, pos)) (hpos : pos ≠ 0) (hcode : code ≤ 2) :
    d.decisionFor group step attempt code e = (d.sendDecision e code attempt).endVote e code attempt ms.length true := by
  obtain ⟨w, hw⟩ := Option.isSome_iff_exists.1 hwaits
  have hmember : (pos != 0) = true := bne_iff_ne.2 hpos
  simp only [Dev.decisionFor, hp, hw, hgroup, hcode, hmember, Dev.groupSize, Option.map_some, Option.getD_some, and_self, if_true]

/-- R513: a decision leaves a packet that waits for nothing. -/
theorem decisionFor_idle (d : Dev) (group step attempt code : Nat) {e : Entry} (hidle : e.coll = none) :
    d.decisionFor group step attempt code e = d := by
  unfold Dev.decisionFor
  rw [hidle]
  cases e.payload <;> rfl

theorem foldl_decisionFor_idle (group step attempt code : Nat) (es : List Entry) (hidle : ∀ e ∈ es, e.coll = none) (d : Dev) :
    es.foldl (fun d e => d.decisionFor group step attempt code e) d = d := by
  induction es with
  | nil => rfl
  | cons e es ih =>
    rw [List.foldl_cons, decisionFor_idle d group step attempt code (hidle e List.mem_cons_self)]
    exact ih fun x hx => hidle x (List.mem_cons_of_mem _ hx)

end

/-- R513: a decision reaches the one packet that waits. -/
theorem doDecisionArrive_one {d : Dev} {group step attempt code q : Nat} {e : Entry} {before after : List (Nat × Entry)}
    (hlive : d.live = before ++ (q, e) :: after) (hidle : ∀ x ∈ before ++ after, x.2.coll = none) :
    doDecisionArrive d group step attempt code = d.decisionFor group step attempt code e := by
  have hside : ∀ l : List (Nat × Entry), (∀ x ∈ l, x ∈ before ++ after) → ∀ x ∈ l.map (·.2), x.coll = none := by
    intro l hl x hx
    obtain ⟨y, hy, rfl⟩ := List.mem_map.1 hx
    exact hidle y (hl y hy)
  rw [doDecisionArrive, hlive, List.map_append, List.map_cons, List.foldl_append, List.foldl_cons,
    foldl_decisionFor_idle _ _ _ _ _ (hside before fun _ h => List.mem_append_left _ h),
    foldl_decisionFor_idle _ _ _ _ _ (hside after fun _ h => List.mem_append_right _ h)]

/-! ### QUERY (R515) -/

section
variable {s : State} {c : CmdRef} {e : Entry} {p step group p2 : Nat} {r : Bool} {ms : List GroupMember}

/-- R515: the root answers a QUERY of its own from its commit table. -/
theorem doQuery_root (hready : Ready s c e) (hp : e.payload = .stepQuery p step group p2 r)
    (hgroup : s.dev.groupOf e.hdr.part group = some (ms, 0)) :
    doQuery s.dev c = s.dev.answerQuery e step group (s.dev.tableSays (groupSlot e.hdr.part group) step).1
      (s.dev.tableSays (groupSlot e.hdr.part group) step).2 := by
  rw [doQuery, onPacket_ready _ hready.entry hready.dispatched hready.noRoot]
  simp only [hp, hgroup, if_true]

/-- R515: a member with a path to the root asks it, and waits. -/
theorem doQuery_member {pos : Nat} (hready : Ready s c e) (hp : e.payload = .stepQuery p step group p2 r)
    (hgroup : s.dev.groupOf e.hdr.part group = some (ms, pos)) (hpos : pos ≠ 0) (hroute : s.dev.routeOk (memberAt ms 0) = true) :
    doQuery s.dev c = (s.dev.asking c).sendMsg (some c) (memberAt ms 0) (.query group step) := by
  rw [doQuery, onPacket_ready _ hready.entry hready.dispatched hready.noRoot]
  simp only [hp, hgroup, if_neg hpos, hroute, Bool.not_true, Bool.false_eq_true, if_false]

end

/-- R515: a QUERY of a member that reaches the root is answered. -/
theorem doCommitTableQuery_member {d : Dev} {src group : Nat} (step : Nat) {g : Group} (hgroup : tfind d.links.groups group = some g)
    (hroot : g.pos = 0) (hmember : ∃ m ∈ g.members, m.device = src) :
    doCommitTableQuery d src group step =
      d.answer src (.queryAnswer group step (d.tableSays group step).1 (d.tableSays group step).2) := by
  have hlists : g.members.any (fun m => m.device == src) = true := by
    simpa only [List.any_eq_true, beq_iff_eq] using hmember
  simp only [doCommitTableQuery, hgroup, hroot, hlists, and_self, if_true]

/-- Settles O33: each event by the lemma of its meaning, with the errors taken (`runPut`). -/
theorem stepCommitCompletes : Obligations.StepCommitCompletes := by
  unfold Obligations.StepCommitCompletes
  refine ⟨?vote, ?revert, ?secures, ?window, ?unsecured, ?decision, ?root, ?member, ?query⟩
  case vote =>
    intro s c e attempt dieMask step group window r ms pos hready hp hgroup hstep hroute hnone code n secured stage
    exact runPut (f := (doVote · c)) (doVote_waits hready hp hgroup hstep hroute hnone)
  case revert =>
    intro s c e v hvote hready hstage hcode
    exact runPut (f := (doCommitDecide · c)) (doCommitDecide_revert hvote hready hstage hcode)
  case secures =>
    intro s c e v attempt dieMask step group window r hvote hready hstage hcode hp d
    exact runPut (f := (doCommitDecide · c)) (doCommitDecide_secures hvote hready hstage hcode hp)
  case window =>
    intro s c e v attempt dieMask step group window r ms hvote hp hgroup hstage hready hlate
    exact runPut (f := (doCommitWindowExpire · c)) (doCommitWindowExpire_late hvote hp hgroup hstage hready hlate)
  case unsecured =>
    intro s c e v attempt dieMask step group window r hvote hp hlate
    have hgo := doUnsecuredTimeout_late hvote hp hlate
    refine ⟨fun hzero => ?_, fun htwo => ?_⟩
    · exact runPut (f := (doUnsecuredTimeout · c)) (hgo.trans (if_pos hzero))
    · exact runPut (f := (doUnsecuredTimeout · c)) (hgo.trans ((if_neg (by omega)).trans (if_pos htwo)))
  case decision =>
    intro s e attempt dieMask step group window r ms pos code q before after hlive hidle hp hwaits hgroup hpos hcode
    exact runPut (f := (doDecisionArrive · group step attempt code))
      ((doDecisionArrive_one hlive hidle).trans (decisionFor_vote hp hwaits hgroup hpos hcode))
  case root =>
    intro s c e p step group p2 r ms hready hp hgroup
    exact runPut (f := (doQuery · c)) (doQuery_root hready hp hgroup)
  case member =>
    intro s c e p step group p2 r ms pos hready hp hgroup hpos hroute
    exact runPut (f := (doQuery · c)) (doQuery_member hready hp hgroup hpos hroute)
  case query =>
    intro s src group step g hgroup hroot hmember
    exact runPut (f := (doCommitTableQuery · src group step)) (doCommitTableQuery_member step hgroup hroot hmember)

end Sys2Proof.Machine
end

section
/-! PROOFS (O31). Stores, snapshot sets, TAKE and RESTORE. -/

namespace Sys2Proof.Machine

/-! ### STORE (R508) -/

@[simp] theorem seenBy_store (d : Dev) (e : Entry) (i : Nat) : (d.seenBy e).store i = d.store i :=
  seenBy_same (·.store i) (fun _ _ => rfl) d e

/-- R508: the run of a STORE of a free store whose host partition has room for its pages. -/
theorem runStore_ok {d : Dev} {c : CmdRef} {e : Entry} {queuePart i hostPart slotBytes a b : Nat} {x : Placing} (source srcPart : Nat) :
    let host := if hostPart = 0xFF then queuePart else hostPart
    let n := 2 * (slotBytes / pageBytes) + a + b
    host < 14 → (d.part host).state ≠ .free → d.store i = none →
    storePages (d.seenBy e) (d.part host) n ⟨[], [], [], [], []⟩ = some x →
    runStore queuePart i source srcPart hostPart slotBytes a b (.start d c e) = .ok (okCounts n 0 0) (.made d c e
      (.train (.store i ⟨source, srcPart, host, slotBytes, a, b, x.ddr⟩) :: (x.ddr.map (fun k => Effect.pageUse .ddr k (.store i))).reverse)) := by
  intro host n hhost hstate hfree hpages
  have hlives : (decide (host < 14) && (d.part host).state != .free) = true := by simpa using ⟨hhost, hstate⟩
  rw [runStore, run_getDev_bind]
  simp only [start_dev, seenBy_part, seenBy_store, hfree, Option.isNone_none]
  rw [run_require_bind hlives, run_require_bind rfl, hpages]
  refine (run_holdAll_bind ..).trans ?_
  rw [run_hold_bind, run_pure]
  simp only [Ctx.made, Ctx.start, List.append_nil, host, n]

/-! ### Buddies that are asked, and their answers (R508, R523, R529) -/

/-- R529: a command asks buddies to whom the path is up, and waits. -/
theorem askBuddies_up {d : Dev} {asks : List (Nat × MsgBody)} (c : CmdRef) (e : Entry) (hup : ∀ a ∈ asks, d.routeOk a.1 = true) :
    d.askBuddies c e asks = asks.foldl (fun d a => d.sendMsg (some c) a.1 a.2) (d.asking c) := by
  have hall : asks.all (fun a => d.routeOk a.1) = true := List.all_eq_true.2 hup
  simp only [Dev.askBuddies, hall, Bool.not_true, Bool.false_eq_true, if_false]

section
variable {s : State} {c : CmdRef} {e : Entry} {m : Message} {own : List Byte} {d' : Dev}

/-- R508, R523: an answer that a command waits for reaches it. -/
theorem onAnswer_waits (h : Answered s c e m own d') (f : Dev → Entry → List Byte → Dev) : s.dev.onAnswer c m f = f d' e own := by
  obtain ⟨hentry, ⟨res, hphase⟩, ⟨r, x, hread, hsent, hcmd, hsrc, rfl⟩, -⟩ := h
  simp only [Dev.onAnswer, hentry, hread, Option.bind_some, hsent, if_pos (And.intro hcmd hsrc), hphase]

/-- A message settled leaves no error that did not wait before. -/
theorem answered_calm (h : Answered s c e m own d') : d'.errDue = [] := by
  obtain ⟨r, x, -, -, -, -, rfl⟩ := h.reads
  exact h.calm

/-- R261: a command that the last answer lets run to its end holds what it made for its commit point. -/
theorem runAnswer_ok {k : Counts} {x : Ctx} {f : Dev → Entry → List Byte → Dev} (h : Answered s c e m own d')
    (hf : f d' e own = d'.ranOk c e k x) : s.runDev (fun d => d.onAnswer c m f) = .next ((s.withDev d').ran c e k x) :=
  runCalm (f := fun d => d.onAnswer c m f) ((onAnswer_waits h f).trans hf) ((ranOk_errDue ..).trans (answered_calm h))

end

/-! ### CONFIG (R498, R502, R523) -/

@[simp] theorem seenBy_takeRuns (d : Dev) (e : Entry) (part : Nat) (c : CmdRef) : (d.seenBy e).takeRuns part c = d.takeRuns part c :=
  seenBy_same (·.takeRuns part c) (fun _ _ => rfl) d e

@[simp] theorem seenBy_regionOk (d : Dev) (e : Entry) (part : Nat) (r : SnapRegion) : (d.seenBy e).regionOk part r = d.regionOk part r :=
  seenBy_same (·.regionOk part r) (fun _ _ => rfl) d e

/-- R498: the first visit of a CONFIG asks its two buddies, distinct devices other than this one. -/
theorem doSnapConfig_asks {s : State} {c : CmdRef} {e : Entry} {x : SnapConfig} (hready : Ready s c e) (hp : e.payload = .snapConfig x)
    (hdistinct : x.buddy0 ≠ x.buddy1) (h0 : x.buddy0 ≠ s.dev.links.devNum) (h1 : x.buddy1 ≠ s.dev.links.devNum)
    (hup0 : s.dev.routeOk x.buddy0 = true) (hup1 : s.dev.routeOk x.buddy1 = true) :
    doSnapConfig s.dev c none = ((s.dev.asking c).sendMsg (some c) x.buddy0 (.storeRead x.store0)).sendMsg (some c) x.buddy1
      (.storeRead x.store1) := by
  have hbuddies : s.dev.buddiesOk x = true := by simp [Dev.buddiesOk, hdistinct, h0, h1]
  have hup : ∀ a ∈ [(x.buddy0, MsgBody.storeRead x.store0), (x.buddy1, .storeRead x.store1)], s.dev.routeOk a.1 = true := by
    intro a ha
    rcases List.mem_pair.1 ha with rfl | rfl
    · exact hup0
    · exact hup1
  simp only [doSnapConfig]
  rw [onPacket_ready _ hready.entry hready.dispatched hready.noRoot]
  simp only [hp, hbuddies, Bool.not_true, Bool.false_eq_true, if_false]
  exact askBuddies_up c e hup

/-- R498, R502, R523: the run of a CONFIG with a declared group, a table of good regions and room for an image in both stores. -/
theorem runSnapConfig_ok {d : Dev} {c : CmdRef} {e : Entry} {part slot0 slot1 pos : Nat} {x : SnapConfig} {ms : List GroupMember}
    {b : List Byte} {y : Ctx} (hidle : d.takeRuns part c = false) (hgroup : d.groupOf part x.group = some (ms, pos))
    (hread : readIn accPlain part x.tableVa (32 * x.nRegions) (.start d c e) = .ok b y) :
    let rs := (List.range x.nRegions).map (parseRegion b)
    let need := granuleBytes * (totalGranules rs + 1)
    (∀ r ∈ rs, d.regionOk part r = true) → need ≤ slot0 → need ≤ slot1 →
    runSnapConfig part x slot0 slot1 (.start d c e) = .ok (okCounts (totalGranules rs) x.nRegions 0)
      { y with eff := .train (.snapConfig part ⟨x, pos, b, rs, [], [], none, none⟩) :: y.eff } := by
  intro rs need hregions h0 h1
  have hquiet : (!d.takeRuns part c) = true := by rw [hidle]; rfl
  have hgood : rs.all (d.regionOk part) = true := List.all_eq_true.2 hregions
  have hroom : (decide (need ≤ slot0) && decide (need ≤ slot1)) = true := by
    rw [decide_eq_true h0, decide_eq_true h1, Bool.and_self]
  have hseen : (d.seenBy e).regionOk part = d.regionOk part := funext (seenBy_regionOk d e part)
  rw [runSnapConfig, run_getDev_bind, run_get_bind]
  simp only [start_dev, seenBy_takeRuns, seenBy_groupOf, hseen, hgroup]
  refine (run_require_bind hquiet _ _ _).trans ((run_bind_ok hread).trans ?_)
  rw [run_require_bind hgood, run_require_bind hroom, run_hold_bind, run_pure]

/-! ### TAKE (R500 to R507) -/

/-- R504: a change of a snapshot set is read back. -/
theorem trainOf_modSnap {d : Dev} {part : Nat} {set : SnapSet} (f : SnapSet → SnapSet) (hset : (d.trainOf part).snap = some set) :
    (d.modSnap part f).trainOf part = { d.trainOf part with snap := some (f set) } := by
  have hkeeps : ({ d.trainOf part with snap := (d.trainOf part).snap.map f } : Train) ≠ Train.reset := by
    rw [hset]
    exact fun h => Option.some_ne_none _ (congrArg Train.snap h)
  have hread : (d.modSnap part f).trainOf part = { d.trainOf part with snap := (d.trainOf part).snap.map f } :=
    tget_tput_of_ne _ _ hkeeps
  rw [hread, hset, Option.map_some]

/-- R500, R501, R507: the run of a TAKE of the next generation, marked, with its path up and its granules readable. -/
theorem runTake_ok {d : Dev} {c : CmdRef} {e : Entry} {part n : Nat} {set : SnapSet} {msgs : List (Nat × MsgBody)} {y : Ctx}
    (hset : (d.trainOf part).snap = some set) (hnext : n = set.nextGen) (hmarked : (d.trainOf part).marked = true)
    (hroute : d.routeOk (set.buddyOf (n % 4)).1 = true)
    (hmsgs : (set.dirtyFor (n % 4)).mapM (takeGranule part n (d.trainOf part).step d.epochOf set) (.start d c e) = .ok msgs y) :
    let gs := set.dirtyFor (n % 4)
    let step := (d.trainOf part).step
    runTake part n (.start d c e) = .ok (okCounts gs.length (n % 2 ^ 32) step, msgs)
      { y with eff := .train (.snapTaken part n step gs.length) :: y.eff } := by
  intro gs step
  have hepochs : (d.seenBy e).epochOf = d.epochOf := seenBy_same (·.epochOf) (fun _ _ => rfl) d e
  rw [runTake, run_getDev_bind]
  simp only [start_dev, seenBy_trainOf, seenBy_routeOk, hset, hmarked, hroute, hepochs]
  exact (run_require_bind (beq_iff_eq.2 hnext) _ _ _).trans (run_bind_ok hmsgs)

/-- A change of the links keeps every packet. -/
theorem linksOnly_entry {f : Dev → Dev} (hf : LinksOnly f) (d : Dev) (c : CmdRef) : (f d).entry c = d.entry c := by
  rw [hf d]
  rfl

/-- R579: a run that reaches its end is in flight, whether it waits for its commit point or for acknowledgements. -/
theorem runThenSend_inFlight {d : Dev} {c : CmdRef} {e : Entry} (k : Counts) (msgs : List (Nat × MsgBody)) (x : Ctx)
    (hentry : d.entry c = some e) :
    ∃ e', (if msgs = [] then d.ranOk c e k x else msgs.foldl (fun d m => d.sendMsg (some c) m.1 m.2) (d.sending c e k x)).entry c =
      some e' ∧ e'.inFlight = true := by
  by_cases hnone : msgs = []
  · rw [if_pos hnone]
    exact ⟨_, ranOk_entry hentry, rfl⟩
  · rw [if_neg hnone]
    have hsends : LinksOnly (fun d => msgs.foldl (fun d m => d.sendMsg (some c) m.1 m.2) d) :=
      linksOnly_foldl (fun m => linksOnly_sendMsg (some c) m.1 m.2) msgs
    have hentry' := entry_setPhase (.running (.coll true [] (runResult k (d.issuedRun c e x).2.1 (d.issuedRun c e x).1.ce x)))
      (issuedRun_entry e x 0 hentry)
    exact ⟨_, (linksOnly_entry hsends _ c).trans hentry', by simp only [Entry.inFlight]⟩

/-- R504: a TAKE whose run reaches its end has cleared the bits of the granules that it read. -/
theorem takeFor_ok {d : Dev} {c : CmdRef} {e : Entry} {part n : Nat} {set : SnapSet} {k : Counts} {msgs : List (Nat × MsgBody)} {y : Ctx}
    (hentry : d.entry c = some e) (hset : (d.trainOf part).snap = some set)
    (hrun : runTake part n (.start (d.modSnap part SnapSet.untake) c e) = .ok (k, msgs) y) :
    d.takeFor c e part n [] =
      (if msgs = [] then (d.modSnap part SnapSet.untake).ranOk c e k y
        else msgs.foldl (fun d m => d.sendMsg (some c) m.1 m.2) ((d.modSnap part SnapSet.untake).sending c e k y)).modSnap part
        (fun s => s.clearBits (n % 4) (set.untake.dirtyFor (n % 4))) := by
  have hsnap : ((d.modSnap part SnapSet.untake).trainOf part).snap = some set.untake := by rw [trainOf_modSnap _ hset]
  have hentry' : (d.modSnap part SnapSet.untake).entry c = some e := hentry
  obtain ⟨e', he', hflight⟩ := runThenSend_inFlight k msgs y hentry'
  simp only [Dev.takeFor, hsnap, runThenSend_ok hrun, he', hflight, if_true]

/-! ### RESTORE (R519 to R521) -/

/-- R519, R520: the run of a RESTORE STATE of a slot whose manifest passes. -/
theorem runRestoreState_ok {d : Dev} {c : CmdRef} {e : Entry} {part position gen job epoch cursor : Nat} {slot : List Byte} {set : SnapSet}
    {u : PUnit} {x : Ctx} (hset : (d.trainOf part).snap = some set) :
    let n := totalGranules set.regions
    let b := slot.take 256
    granuleBytes * (n + 1) ≤ slot.length → manifestStatus (some set) position gen job epoch cursor b = stOk →
    (List.range n).forM (restoreGranule part set.regions (leAt b 24 4) (leAt b 62 2) slot) (.start d c e) = .ok u x →
    runRestoreState part position gen job epoch cursor slot (.start d c e) = .ok (okCounts n (leAt b 24 4) (gen % 2 ^ 32))
      { x with eff := .train (.restored part (leAt b 24 4) gen (leAt b 62 2) (leAt b 40 8) (leAt b 48 8) (slice b 80 32)) :: x.eff } := by
  intro n b hlen hmanifest hgranules
  rw [runRestoreState, run_getDev_bind]
  simp only [start_dev, seenBy_trainOf, hset, Option.map_some, Option.getD_some]
  refine (run_require_bind (decide_eq_true hlen) _ _ _).trans ?_
  rw [hmanifest, run_require_bind (beq_self_eq_true _)]
  exact run_bind_ok hgranules

/-- R521: the run of a RESTORE LOG whose two shares can be written back. -/
theorem runRestoreLog_ok {d : Dev} {c : CmdRef} {e : Entry} {part na nb : Nat} {l : TrainLog} {a b : List Byte} {x y : Ctx}
    (hlog : (d.trainOf part).log = some l) (ha : restoreShare part l 0 (mirrorEntries a) (.start d c e) = .ok na x)
    (hb : restoreShare part l 1 (mirrorEntries b) x = .ok nb y) :
    let es := mirrorEntries a ++ mirrorEntries b
    runRestoreLog part a b (.start d c e) = .ok (okCounts es.length (rootDecisions es).length 0)
      { y with eff := .train (.logRestored part na nb (rootDecisions es)) :: y.eff } := by
  intro es
  rw [runRestoreLog, run_getDev_bind]
  simp only [start_dev, seenBy_trainOf, hlog]
  rw [run_bind_ok ha, run_bind_ok hb, run_hold_bind, run_pure, ← List.length_append]

/-- Settles O31: a store runs on the block with what waits taken; the commands of buddies ask them (`askBuddies_up`) and go on with
their answers (`runAnswer_ok`); a TAKE is `takeFor_ok` with the run of `runTake_ok`. -/
theorem snapshotCommandsComplete : Obligations.SnapshotCommandsComplete := by
  unfold Obligations.SnapshotCommandsComplete
  refine ⟨?store, ?asks, ?first, ?second, ?take, ?stateAsks, ?state, ?logAsks, ?log⟩
  case store =>
    intro s c e i source srcPart hostPart slotBytes a b r x hready hp d host n hhost hstate hfree hpages
    exact runPacket_ok hready (by rw [hp]; exact runClaimed_ok (runStore_ok source srcPart hhost hstate hfree hpages))
  case asks =>
    intro s c e x hready hp hdistinct h0 h1 hup0 hup1
    exact runPut (f := (doSnapConfig · c none)) (doSnapConfig_asks hready hp hdistinct h0 h1 hup0 hup1)
  case first =>
    intro s c e m d' x k n hanswer hp hbody
    refine runPut (f := (doSnapConfig · c (some m))) ?_
    simp only [doSnapConfig]
    rw [onAnswer_waits hanswer]
    simp only [hp, hbody, List.isEmpty_nil, if_true]
  case second =>
    intro s c e m own d' x k n ms pos b y hanswer hown hp hbody hidle hgroup hread rs g hregions hn hown'
    have hsome : own.isEmpty = false := List.isEmpty_eq_false_iff.2 hown
    refine runAnswer_ok hanswer ?_
    simp only [hp, hbody, hsome, Bool.false_eq_true, if_false]
    split
    · exact runClaimed_ok (runSnapConfig_ok hidle hgroup hread hregions hown' hn)
    · exact runClaimed_ok (runSnapConfig_ok hidle hgroup hread hregions hn hown')
  case take =>
    intro s c e n r set msgs y hready hp hidle hset hnext hmarked hroute step d gs hmsgs
    have htrain := trainOf_modSnap SnapSet.untake hset
    have hrun : runTake e.hdr.part n (.start d c e) = .ok (okCounts gs.length (n % 2 ^ 32) step, msgs)
        { y with eff := .train (.snapTaken e.hdr.part n step gs.length) :: y.eff } := by
      have h := runTake_ok (d := d) (c := c) (e := e) (part := e.hdr.part) (set := set.untake) (msgs := msgs) (y := y)
        (by rw [htrain]) hnext (by rw [htrain]; exact hmarked) hroute (by rw [htrain]; exact hmsgs)
      rw [htrain] at h
      exact h
    have htake := takeFor_ok hready.entry hset hrun
    refine runPacket_put hready ?_
    simp only [hp, hidle, Bool.false_eq_true, if_false]
    exact htake
  case stateAsks =>
    intro s c e store buddy position gen job epoch cursor r hready hp hup
    exact runPacket_put hready (by rw [hp]; exact askBuddies_up c e (List.forall_mem_singleton.2 hup))
  case state =>
    intro s c e m own d' store buddy position gen job epoch cursor r k slot set u x hanswer hp hbody hset n b hlen hmanifest hgranules
    refine runAnswer_ok hanswer ?_
    simp only [hp, hbody]
    exact run_ok (runRestoreState_ok hset hlen hmanifest hgranules)
  case logAsks =>
    intro s c e store buddy p1 p2 r hready hp hup
    exact runPacket_put hready (by rw [hp]; exact askBuddies_up c e (List.forall_mem_singleton.2 hup))
  case log =>
    intro s c e m own d' p1 p2 p3 p4 r l k a b na nb x y hanswer hp hbody hlog ha hb es
    refine runAnswer_ok hanswer ?_
    simp only [hp, hbody]
    exact run_ok (runRestoreLog_ok hlog ha hb)

end Sys2Proof.Machine
end
